-- ==== Sys2Proof/Word.lean ====
section
/-!
DEFINITION. Word.lean: the word types, the small closed sets of names the encodings use (R23, R26, R71 to R80, R149,
R392), and sparse finite maps, the one form in which indexed state is held.
-/
namespace Sys2Proof

/-- A scalar register's content (R34). -/
abbrev Word := BitVec 64
/-- A byte of memory. -/
abbrev Byte := BitVec 8
/-- A vector register's content (R34). -/
abbrev Vec := BitVec 1024
/-- A virtual address (R8). -/
abbrev VAddr := BitVec 72
/-- A logical core number (R2). -/
abbrev CoreId := BitVec 9

/-- A 6-bit scalar register field, s0 to s63 (R72). -/
abbrev SReg := BitVec 6
/-- A 4-bit scalar register field of V, M and X, s48 to s63 (R72). -/
abbrev XReg := BitVec 4
/-- A 6-bit vector register field, v0 to v63 (R72). -/
abbrev VReg := BitVec 6
/-- A 5-bit vector register field of format VF, v0 to v31 (R72). -/
abbrev VReg5 := BitVec 5
/-- A 3-bit predicate field (R72). -/
abbrev PReg := BitVec 3
/-- A 3-bit mask field. -/
abbrev KReg := BitVec 3
/-- A 4-bit tile, accumulator or weight view field (R82). -/
abbrev TReg := BitVec 4

/-- The four streams of a task, numbered 0 to 3 (R23). -/
inductive Strm | c | v | m | x
  deriving DecidableEq, Repr, Inhabited

/-- The stream's number (R23). -/
def Strm.num : Strm → Nat
  | .c => 0 | .v => 1 | .m => 2 | .x => 3

/-- next of the ring X → M → V → C → X (R25). -/
def Strm.nextOf : Strm → Strm
  | .x => .m | .m => .v | .v => .c | .c => .x

/-- prev of the ring, the inverse of next (R25). -/
def Strm.prevOf : Strm → Strm
  | .m => .x | .v => .m | .c => .v | .x => .c

/-- The four ring bits of a full word (R26, R71). -/
structure Ring where
  wp : Bool
  wn : Bool
  sp : Bool
  sn : Bool
  deriving DecidableEq, Repr, Inhabited

/-- Element formats and their codes (R78). -/
inductive Fmt
  | f64 | f32 | bf16 | f16 | e4m3 | e5m2 | e3m2 | e2m3 | e2m1 | e8m0
  | i4 | i8 | i16 | i32 | i64 | n4 | n8 | n16 | n32 | n64
  deriving DecidableEq, Repr, Inhabited

/-- Comparison conditions (R74). -/
inductive Cond | eq | ne | lt | ge | ltn | gen | any | none
  deriving DecidableEq, Repr, Inhabited

/-- Access sizes of formats L and LX (R73). -/
inductive Sz | b | h | w | d
  deriving DecidableEq, Repr, Inhabited

/-- The local spaces of the C stream's loads and stores (R73, R118). -/
inductive LSp | cr | xb | ofs
  deriving DecidableEq, Repr, Inhabited

/-- The spaces of barrier instructions (R262). -/
inductive BSp | cr | xb | ofs | vm
  deriving DecidableEq, Repr, Inhabited

/-- The spaces of the V stream's VX forms (R76). -/
inductive VSp | xb | ofs
  deriving DecidableEq, Repr, Inhabited

/-- Element widths of class W (R77). -/
inductive Wd | w8 | w16 | w32 | w64
  deriving DecidableEq, Repr, Inhabited

/-- FENCE scopes (R136). -/
inductive Scope | stream | task | cluster | die | package | system
  deriving DecidableEq, Repr, Inhabited

/-- Quantisation geometries of VQNT and VDQNT (R190). -/
inductive QGeo | mx | s16 | s32 | g32
  deriving DecidableEq, Repr, Inhabited

/-- Group geometries of MMAI (R214). -/
inductive IGeo | g32 | g64 | g128
  deriving DecidableEq, Repr, Inhabited

/-- Block geometries of MMAX (R214). -/
inductive XGeo | mx | s16 | s32
  deriving DecidableEq, Repr, Inhabited

/-- Rounding modes (R149). -/
inductive Rnd | rne | rtz | rdn | rup | rna | sr
  deriving DecidableEq, Repr, Inhabited

/-- The spaces an access may name: the OORINFO.SPACE codes 0x0 to 0x9 (R60), and virtual memory. -/
inductive Space | ofs | acs | wb | xb | sm | cr | t1 | t2 | t3 | t4 | virt
  deriving DecidableEq, Repr, Inhabited

/-- OORINFO.SPACE of a space (R60); virtual has the region code 0xF (R296). -/
def Space.code : Space → Nat
  | .ofs => 0 | .acs => 1 | .wb => 2 | .xb => 3 | .sm => 4 | .cr => 5
  | .t1 => 6 | .t2 => 7 | .t3 => 8 | .t4 => 9 | .virt => 15

/-- The space of a SPC, SSPC or DSPC code (R303, R346); none for 0xA to 0xE. -/
def Space.ofCode : Nat → Option Space
  | 0 => some .ofs | 1 => some .acs | 2 => some .wb | 3 => some .xb | 4 => some .sm
  | 5 => some .cr | 6 => some .t1 | 7 => some .t2 | 8 => some .t3 | 9 => some .t4
  | 15 => some .virt | _ => none

/-- Cause codes (R392). -/
inductive Cause
  | illegalEncoding | reservedOpcode | privileged | misaligned | translation | protection
  | staleGeneration | sealedWrite | undeclaredAccess | race | ephemeralExpired | lateStart
  | ringTimeout | barrierOverarrival | arrivalOverflow | nestBounds | viewInvalid
  | uncorrectableData | watchdog | trapInstruction | nestedTrap | saveAborted | retentionLost
  | coreFrozen | cancelled | levelShed
  deriving DecidableEq, Repr, Inhabited

/-- The numeric cause code (R392). -/
def Cause.code : Cause → Nat
  | .illegalEncoding => 0x01 | .reservedOpcode => 0x02 | .privileged => 0x03
  | .misaligned => 0x04 | .translation => 0x05 | .protection => 0x06
  | .staleGeneration => 0x07 | .sealedWrite => 0x08 | .undeclaredAccess => 0x09
  | .race => 0x0A | .ephemeralExpired => 0x0B | .lateStart => 0x0C
  | .ringTimeout => 0x0D | .barrierOverarrival => 0x0E | .arrivalOverflow => 0x0F
  | .nestBounds => 0x10 | .viewInvalid => 0x11 | .uncorrectableData => 0x12
  | .watchdog => 0x13 | .trapInstruction => 0x14 | .nestedTrap => 0x15
  | .saveAborted => 0x16 | .retentionLost => 0x17 | .coreFrozen => 0x18
  | .cancelled => 0x19 | .levelShed => 0x1A

/-- The heading of a TOCL request: its session (none is the control session) and its sequence number (R453, R483). -/
structure Toc where
  sess : Option (BitVec 4)
  seq : BitVec 32
  deriving DecidableEq, Repr, Inhabited

/-- Who gives a management command: the host over TOCL, or Botra through the management port (R454, R474, R484). -/
inductive Giver
  | host (h : Toc)
  | botra
  deriving DecidableEq, Repr, Inhabited

/-- An operand of a management command together with who gives it (R474). -/
structure Given (α : Type) where
  who : Giver
  arg : α
  deriving DecidableEq, Repr, Inhabited

/-- What a DEVID of the route table stands for: a fabric port, or this device itself, whose DEVID it then is (R444). -/
inductive RouteDest
  | port (p : BitVec 4)
  | here
  deriving DecidableEq, Repr, Inhabited

/-- The counters that COUNTER_SET names (R454). -/
inductive CtrKind | graph | phase | job
  deriving DecidableEq, Repr, Inhabited

/-- What a fabric packet carries: bytes of a SEND for a receive, with the SEND they belong to, or one rank's data of a
collective step (R444 to R449). -/
inductive FabBody
  | send (chan : BitVec 8) (job off : BitVec 32) (bytes : List Byte)
  | coll (grp : BitVec 6) (step : BitVec 32) (rank : BitVec 4) (op : BitVec 8) (len : BitVec 32) (fmt : BitVec 5)
      (off : BitVec 32) (bytes : List Byte)
  deriving DecidableEq, Repr, Inhabited

/-- A fabric packet: source and destination device, write identity, the hops it has taken when it arrives (R298, R444). -/
structure FabPkt where
  src : BitVec 12
  dst : BitVec 12
  id : BitVec 32
  hops : BitVec 3
  body : FabBody
  deriving DecidableEq, Repr, Inhabited

/-- A bank of a level, or a through-silicon-via lane of its bonded interface (R312). -/
inductive SpareUnit
  | bank (n : BitVec 14)
  | lane (n : BitVec 14)
  deriving DecidableEq, Repr, Inhabited

/-- An error that a scrubber or an LPDDR6 device meets: the first 8-byte word, the words of the access, and whether the error is
uncorrectable (R279, R315, R316). -/
structure EccReport where
  first : BitVec 38
  words : BitVec 6
  bad : Bool
  deriving DecidableEq, Repr, Inhabited

/-- A signed record: the header with MAGIC, TYPE, VERSION, LENGTH and SIGNER, the body, and the signature of 4,627 bytes (R476). -/
structure FwRec where
  magic : BitVec 32
  typ : BitVec 8
  version : BitVec 32
  len : BitVec 32
  signer : BitVec 8
  body : List Byte
  sig : BitVec 37016
  deriving DecidableEq, Repr, Inhabited

/-- What a boot fails at (R475): the identity seed of step 1, the Botra slots of step 2, a configuration record of step 4, the
self-test or the training of step 5. -/
inductive BootCause
  | seed
  | botra
  | config (typ : BitVec 8)
  | bist
  | training
  deriving DecidableEq, Repr, Inhabited

/-- The step of R475 that a failure belongs to. -/
def BootCause.step : BootCause → Nat
  | .seed => 1 | .botra => 2 | .config _ => 4 | .bist => 5 | .training => 5

/-- A sparse finite map: (key, value) pairs with keys strictly rising and no entry equal to the map's default. -/
abbrev FMap (α : Type) := List (Nat × α)

/-- The value at a key, or the default. -/
def FMap.getD {α : Type} (m : FMap α) (k : Nat) (d : α) : α :=
  match m with
  | [] => d
  | (k', v) :: t => if k' = k then v else FMap.getD t k d

/-- Insert a pair before the first larger key. -/
def FMap.ins {α : Type} (m : FMap α) (k : Nat) (v : α) : FMap α :=
  match m with
  | [] => [(k, v)]
  | (k', v') :: t => if k < k' then (k, v) :: (k', v') :: t else (k', v') :: FMap.ins t k v

/-- Drop every pair of a key. -/
def FMap.del {α : Type} (m : FMap α) (k : Nat) : FMap α :=
  match m with
  | [] => []
  | (k', v') :: t => if k' = k then FMap.del t k else (k', v') :: FMap.del t k

/-- Store a value: the default is not listed. -/
def FMap.put {α : Type} [DecidableEq α] (m : FMap α) (k : Nat) (v d : α) : FMap α :=
  if v = d then m.del k else (m.del k).ins k v

/-- Whether a key is listed. -/
def FMap.has {α : Type} (m : FMap α) (k : Nat) : Bool :=
  m.any (fun p => p.1 == k)

/-- The value at a key, if listed. -/
def FMap.get? {α : Type} (m : FMap α) (k : Nat) : Option α :=
  match m with
  | [] => none
  | (k', v) :: t => if k' = k then some v else FMap.get? t k

/-- Store a value that is always listed. -/
def FMap.set {α : Type} (m : FMap α) (k : Nat) (v : α) : FMap α := (m.del k).ins k v

/-- The canonical form: keys strictly rising from a lower bound, no entry equal to the default. -/
def FMap.wfFrom {α : Type} [DecidableEq α] (lo : Nat) (m : FMap α) (d : α) : Bool :=
  match m with
  | [] => true
  | (k, v) :: t => decide (lo ≤ k) && decide (v ≠ d) && FMap.wfFrom (k + 1) t d

/-- The canonical form of a map. -/
def FMap.wf {α : Type} [DecidableEq α] (m : FMap α) (d : α) : Bool := m.wfFrom 0 d

end Sys2Proof
end

