-- ==== Sys2Proof/Syntax.lean ====
section
/-!
DEFINITION. Syntax.lean: the instructions and events of the opcode table, one constructor per row. A stream
instruction carries its ring bits (R26, R71) and its operand fields (R72 to R84); an event carries the agents it names.
-/
namespace Sys2Proof

/-- Every step of the device: the instructions of the four streams, the dictionary code, and the events. -/
inductive Instr
  /-- ADD (R100): C stream adds two scalar registers modulo 2^64. -/
  | add (r : Ring) (d : SReg) (a : SReg) (b : SReg)
  /-- SUB (R100): C stream subtracts b from a modulo 2^64. -/
  | sub (r : Ring) (d : SReg) (a : SReg) (b : SReg)
  /-- AND (R100): Bitwise AND of two scalars. -/
  | and (r : Ring) (d : SReg) (a : SReg) (b : SReg)
  /-- OR (R100): Bitwise OR of two scalars. -/
  | or (r : Ring) (d : SReg) (a : SReg) (b : SReg)
  /-- XOR (R100): Bitwise XOR of two scalars. -/
  | xor (r : Ring) (d : SReg) (a : SReg) (b : SReg)
  /-- ANDN (R100): a AND NOT b. -/
  | andn (r : Ring) (d : SReg) (a : SReg) (b : SReg)
  /-- ORN (R100): a OR NOT b. -/
  | orn (r : Ring) (d : SReg) (a : SReg) (b : SReg)
  /-- SLL (R100): Shift left logical by b[5:0]. -/
  | sll (r : Ring) (d : SReg) (a : SReg) (b : SReg)
  /-- SRL (R100): Shift right logical by b[5:0]. -/
  | srl (r : Ring) (d : SReg) (a : SReg) (b : SReg)
  /-- SRA (R100): Shift right arithmetic by b[5:0]. -/
  | sra (r : Ring) (d : SReg) (a : SReg) (b : SReg)
  /-- ROL (R100): Rotate left by b[5:0]. -/
  | rol (r : Ring) (d : SReg) (a : SReg) (b : SReg)
  /-- ROR (R100): Rotate right by b[5:0]. -/
  | ror (r : Ring) (d : SReg) (a : SReg) (b : SReg)
  /-- SEL (R100): Bitwise select between a and b under the old d as mask. -/
  | sel (r : Ring) (d : SReg) (a : SReg) (b : SReg)
  /-- MIN (R100): Signed minimum. -/
  | min (r : Ring) (d : SReg) (a : SReg) (b : SReg)
  /-- MAX (R100): Signed maximum. -/
  | max (r : Ring) (d : SReg) (a : SReg) (b : SReg)
  /-- MINN (R100): Unsigned minimum. -/
  | minn (r : Ring) (d : SReg) (a : SReg) (b : SReg)
  /-- MUL (R101): Low 64 bits of the product. -/
  | mul (r : Ring) (d : SReg) (a : SReg) (b : SReg)
  /-- MULH (R101): High 64 bits of the signed product. -/
  | mulh (r : Ring) (d : SReg) (a : SReg) (b : SReg)
  /-- MULHN (R101): High 64 bits of the unsigned product. -/
  | mulhn (r : Ring) (d : SReg) (a : SReg) (b : SReg)
  /-- DIV (R101): Signed quotient truncated toward zero. -/
  | div (r : Ring) (d : SReg) (a : SReg) (b : SReg)
  /-- DIVN (R101): Unsigned quotient. -/
  | divn (r : Ring) (d : SReg) (a : SReg) (b : SReg)
  /-- REM (R101): Signed remainder with the sign of a. -/
  | rem (r : Ring) (d : SReg) (a : SReg) (b : SReg)
  /-- REMN (R101): Unsigned remainder. -/
  | remn (r : Ring) (d : SReg) (a : SReg) (b : SReg)
  /-- MAXN (R101): Unsigned maximum. -/
  | maxn (r : Ring) (d : SReg) (a : SReg) (b : SReg)
  /-- CLZ (R102): Count leading zeros. -/
  | clz (r : Ring) (d : SReg) (a : SReg)
  /-- CTZ (R102): Count trailing zeros. -/
  | ctz (r : Ring) (d : SReg) (a : SReg)
  /-- POPC (R102): Count set bits. -/
  | popc (r : Ring) (d : SReg) (a : SReg)
  /-- BREV (R102): Reverse the bits. -/
  | brev (r : Ring) (d : SReg) (a : SReg)
  /-- BSWAP (R102): Reverse the bytes. -/
  | bswap (r : Ring) (d : SReg) (a : SReg)
  /-- SEXT (R102): Sign-extend the low w bits. -/
  | sext (r : Ring) (d : SReg) (a : SReg) (w1 : BitVec 6)
  /-- ZEXT (R102): Zero-extend the low w bits. -/
  | zext (r : Ring) (d : SReg) (a : SReg) (w1 : BitVec 6)
  /-- ADDI (R103): Add a sign-extended 10-bit immediate. -/
  | addi (r : Ring) (d : SReg) (a : SReg) (imm : BitVec 10)
  /-- ANDI (R103): AND with a sign-extended immediate. -/
  | andi (r : Ring) (d : SReg) (a : SReg) (imm : BitVec 10)
  /-- ORI (R103): OR with a sign-extended immediate. -/
  | ori (r : Ring) (d : SReg) (a : SReg) (imm : BitVec 10)
  /-- XORI (R103): XOR with a sign-extended immediate. -/
  | xori (r : Ring) (d : SReg) (a : SReg) (imm : BitVec 10)
  /-- MULI (R103): Multiply by a sign-extended immediate. -/
  | muli (r : Ring) (d : SReg) (a : SReg) (imm : BitVec 10)
  /-- SLLI (R104): Shift left by an immediate count. -/
  | slli (r : Ring) (d : SReg) (a : SReg) (sh : BitVec 6)
  /-- SRLI (R104): Logical shift right by an immediate count. -/
  | srli (r : Ring) (d : SReg) (a : SReg) (sh : BitVec 6)
  /-- SRAI (R104): Arithmetic shift right by an immediate count. -/
  | srai (r : Ring) (d : SReg) (a : SReg) (sh : BitVec 6)
  /-- RORI (R104): Rotate right by an immediate count. -/
  | rori (r : Ring) (d : SReg) (a : SReg) (sh : BitVec 6)
  /-- MOVI (R105): Load a sign-extended 16-bit immediate. -/
  | movi (r : Ring) (d : SReg) (imm : BitVec 16)
  /-- MOVK (R105): Shift the old d left 16 and insert an immediate. -/
  | movk (r : Ring) (d : SReg) (imm : BitVec 16)
  /-- ADDPC (R105): Write a PC-relative address. -/
  | addpc (r : Ring) (d : SReg) (imm : BitVec 16)
  /-- BFX (R106): Extract a bit field sign-extended. -/
  | bfx (r : Ring) (d : SReg) (a : SReg) (b : SReg)
  /-- BFXN (R106): Extract a bit field zero-extended. -/
  | bfxn (r : Ring) (d : SReg) (a : SReg) (b : SReg)
  /-- BFI (R106): Insert a bit field into the old d. -/
  | bfi (r : Ring) (d : SReg) (a : SReg) (b : SReg)
  /-- FSHL (R107): Funnel shift left of d and a. -/
  | fshl (r : Ring) (d : SReg) (a : SReg) (b : SReg)
  /-- FSHR (R107): Funnel shift right of a and d. -/
  | fshr (r : Ring) (d : SReg) (a : SReg) (b : SReg)
  /-- CMP (R108): Compare two scalars and write the predicate. -/
  | cmp (r : Ring) (pd : PReg) (cond : Cond) (a : SReg) (b : SReg)
  /-- CMP_AND (R108): Compare and AND into the predicate. -/
  | cmpAnd (r : Ring) (pd : PReg) (cond : Cond) (a : SReg) (b : SReg)
  /-- CMP_OR (R108): Compare and OR into the predicate. -/
  | cmpOr (r : Ring) (pd : PReg) (cond : Cond) (a : SReg) (b : SReg)
  /-- CMPI (R109): Compare with a sign-extended immediate. -/
  | cmpi (r : Ring) (pd : PReg) (cond : Cond) (a : SReg) (imm : BitVec 10)
  /-- PAND (R110): AND of two predicates. -/
  | pand (r : Ring) (pd : PReg) (pa : PReg) (pb : PReg)
  /-- POR (R110): OR of two predicates. -/
  | por (r : Ring) (pd : PReg) (pa : PReg) (pb : PReg)
  /-- PXOR (R110): XOR of two predicates. -/
  | pxor (r : Ring) (pd : PReg) (pa : PReg) (pb : PReg)
  /-- PNOT (R110): Negate a predicate. -/
  | pnot (r : Ring) (pd : PReg) (pa : PReg)
  /-- PMOV (R110): Copy a predicate. -/
  | pmov (r : Ring) (pd : PReg) (pa : PReg)
  /-- BR (R112): Branch on a predicate to a PC-relative target. -/
  | br (r : Ring) (p : PReg) (neg : Bool) (off : BitVec 18)
  /-- JMP (R113): Jump to a PC-relative target. -/
  | jmp (r : Ring) (off : BitVec 22)
  /-- CALL (R113): Jump and write the link into s47. -/
  | call (r : Ring) (off : BitVec 22)
  /-- JR (R114): Jump to the address in a. -/
  | jr (r : Ring) (a : SReg)
  /-- JALR (R114): Jump to a and write the link into d. -/
  | jalr (r : Ring) (d : SReg) (a : SReg)
  /-- RET (R114): Jump to s47. -/
  | ret (r : Ring)
  /-- LOOP (R115): Decrement d and branch while nonzero. -/
  | loop (r : Ring) (d : SReg) (imm : BitVec 16)
  /-- NOP (R117): Does nothing. -/
  | nop (r : Ring)
  /-- SKIP (R116): Annul the next n instructions when the predicate holds. -/
  | skip (r : Ring) (p : PReg) (neg : Bool) (n : BitVec 6)
  /-- JOIN (R32): C-stream rendezvous of all live streams on k. -/
  | join (r : Ring) (k : BitVec 6)
  /-- EXIT (R33): Ends the C stream. -/
  | exit (r : Ring)
  /-- LD (R118): Load from CR, XB or OF by local address. -/
  | ld (r : Ring) (d : SReg) (a : SReg) (sz : Sz) (sp : LSp) (off : BitVec 6)
  /-- ST (R118): Store to CR, XB or OF by local address. -/
  | st (r : Ring) (d : SReg) (a : SReg) (sz : Sz) (sp : LSp) (off : BitVec 6)
  /-- LDX (R118): Indexed local load. -/
  | ldx (r : Ring) (d : SReg) (a : SReg) (b : SReg) (sz : Sz) (sp : LSp)
  /-- STX (R118): Indexed local store. -/
  | stx (r : Ring) (d : SReg) (a : SReg) (b : SReg) (sz : Sz) (sp : LSp)
  /-- PFT (R123): Local prefetch, which has no effect. -/
  | pft (r : Ring) (a : SReg) (sz : Sz) (sp : LSp) (off : BitVec 6)
  /-- LD_VM (R290): Virtual-memory load, held until its data returns. -/
  | ldVm (r : Ring) (d : SReg) (a : SReg) (sz : Sz) (off : BitVec 6)
  /-- ST_VM (R290): Virtual-memory store, held until the home accepts it. -/
  | stVm (r : Ring) (d : SReg) (a : SReg) (sz : Sz) (off : BitVec 6)
  /-- LDX_VM (R290): Indexed virtual-memory load. -/
  | ldxVm (r : Ring) (d : SReg) (a : SReg) (b : SReg) (sz : Sz)
  /-- STX_VM (R290): Indexed virtual-memory store. -/
  | stxVm (r : Ring) (d : SReg) (a : SReg) (b : SReg) (sz : Sz)
  /-- PFT_VM (R292): Loads a translation into the core cache and never faults. -/
  | pftVm (r : Ring) (a : SReg) (sz : Sz) (off : BitVec 6)
  /-- AMO_ADD (R293): Atomic add at the home controller. -/
  | amoAdd (r : Ring) (d : SReg) (a : SReg) (b : SReg)
  /-- AMO_AND (R293): Atomic AND at the home. -/
  | amoAnd (r : Ring) (d : SReg) (a : SReg) (b : SReg)
  /-- AMO_OR (R293): Atomic OR at the home. -/
  | amoOr (r : Ring) (d : SReg) (a : SReg) (b : SReg)
  /-- AMO_XOR (R293): Atomic XOR at the home. -/
  | amoXor (r : Ring) (d : SReg) (a : SReg) (b : SReg)
  /-- AMO_MIN (R293): Atomic signed minimum. -/
  | amoMin (r : Ring) (d : SReg) (a : SReg) (b : SReg)
  /-- AMO_MAX (R293): Atomic signed maximum. -/
  | amoMax (r : Ring) (d : SReg) (a : SReg) (b : SReg)
  /-- AMO_MINN (R293): Atomic unsigned minimum. -/
  | amoMinn (r : Ring) (d : SReg) (a : SReg) (b : SReg)
  /-- AMO_MAXN (R293): Atomic unsigned maximum. -/
  | amoMaxn (r : Ring) (d : SReg) (a : SReg) (b : SReg)
  /-- AMO_SWAP (R293): Atomic swap. -/
  | amoSwap (r : Ring) (d : SReg) (a : SReg) (b : SReg)
  /-- CAS (R294): Compare and swap at the home controller. -/
  | cas (r : Ring) (d : SReg) (a : SReg) (b : SReg)
  /-- ARM (R305): Arms a region entry with target, action and rearm. -/
  | arm (r : Ring) (d : SReg) (a : SReg) (b : SReg)
  /-- ARRV (R306): Adds bytes to a region counter without data. -/
  | arrv (r : Ring) (d : SReg) (a : SReg) (b : SReg)
  /-- AWAIT (R307): Waits for a region entry to fire, bounded. -/
  | await (r : Ring) (pd : PReg) (a : SReg) (b : SReg)
  /-- BARI (R264): Initialises a barrier object. -/
  | bari (r : Ring) (sp : BSp) (a : SReg) (b : SReg)
  /-- BARA (R265): Arrives at a barrier object with count c, optionally dropping. -/
  | bara (r : Ring) (sp : BSp) (a : SReg) (c1 : BitVec 4) (drop : Bool)
  /-- BARW (R266): Waits until a barrier object leaves phase PH, bounded. -/
  | barw (r : Ring) (pd : PReg) (a : SReg) (b : SReg)
  /-- SEAL (R309): Seals a region once accepted writes are performed. -/
  | seal (r : Ring) (a : SReg)
  /-- UNSEAL (R311): Drops replicas and clears the seal. -/
  | unseal (r : Ring) (a : SReg)
  /-- FENCE (R136): Holds the C stream until earlier accesses are performed within the scope. -/
  | fence (r : Ring) (s : Scope)
  /-- CSRR (R124): Reads a control register. -/
  | csrr (r : Ring) (g : SReg) (csr : BitVec 10)
  /-- CSRW (R124): Writes a control register. -/
  | csrw (r : Ring) (g : SReg) (csr : BitVec 10)
  /-- CSRS (R124): Sets bits of a control register. -/
  | csrs (r : Ring) (g : SReg) (csr : BitVec 10)
  /-- CSRC (R124): Clears bits of a control register. -/
  | csrc (r : Ring) (g : SReg) (csr : BitVec 10)
  /-- TIME (R127): Writes DEVTIME into a scalar. -/
  | time (r : Ring) (g : SReg)
  /-- VIEW (R128): Sets the base of a vector view. -/
  | view (r : Ring) (vd : VReg) (a : SReg)
  /-- TDESC (R129): Writes a tile or accumulator view descriptor. -/
  | tdesc (r : Ring) (d : BitVec 5) (a : SReg) (b : SReg)
  /-- TRAP (R134): Takes a TRAP_INSTRUCTION fault with a code. -/
  | trap (r : Ring) (code : BitVec 6)
  /-- ERET (R400): Returns from the trap handler and releases the streams. -/
  | eret (r : Ring)
  /-- TOKEN (R132): Deposits n tokens toward a ring neighbour. -/
  | token (r : Ring) (dir : Bool) (n : BitVec 4)
  /-- TWAIT (R133): Waits for and consumes n tokens. -/
  | twait (r : Ring) (dir : Bool) (n : BitVec 4)
  /-- LAUNCH (R236): Offers a launch packet in virtual memory to a queue. -/
  | launch (r : Ring) (d : SReg) (a : SReg) (b : SReg)
  /-- LAUNCH_CR (R236): Offers a launch packet held in CR to a queue. -/
  | launchCr (r : Ring) (d : SReg) (a : SReg) (b : SReg)
  /-- CANCEL_TASK (R259): Cancels one task of a launch. -/
  | cancelTask (r : Ring) (d : SReg) (a : SReg) (b : SReg)
  /-- CANCEL_LAUNCH (R259): Cancels every task of a launch. -/
  | cancelLaunch (r : Ring) (d : SReg) (a : SReg)
  /-- CANCEL_GRAPH (R259): Cancels the launches of a graph. -/
  | cancelGraph (r : Ring) (d : SReg) (a : SReg)
  /-- CANCEL_PHASE (R259): Cancels the launches of a phase. -/
  | cancelPhase (r : Ring) (d : SReg) (a : SReg)
  /-- CANCEL_JOB (R259): Cancels the launches of a job. -/
  | cancelJob (r : Ring) (d : SReg) (a : SReg)
  /-- PHASE (R258): Arrives at the phase counter and waits for the boundary. -/
  | phase (r : Ring) (d : SReg)
  /-- CKPT (R417): Takes a voluntary checkpoint and continues. -/
  | ckpt (r : Ring) (d : SReg)
  /-- ESTIM (R418): Sets the remaining estimate. -/
  | estim (r : Ring) (a : SReg)
  /-- CLSTEP (R451): Posts a table of collective step records. -/
  | clstep (r : Ring) (d : SReg) (a : SReg) (b : SReg)
  /-- CLWAIT (R452): Waits for a collective table to complete, bounded. -/
  | clwait (r : Ring) (pd : PReg) (a : SReg) (b : SReg)
  /-- MULW (R137): Deprecated 32-bit multiply, counted in DEPCOUNT. -/
  | mulw (r : Ring) (d : SReg) (a : SReg) (b : SReg)
  /-- DICTIONARY_CODE (R69): Executes a dictionary entry as if it stood at the code. -/
  | dictionaryCode (e : Strm) (i : BitVec 10)
  /-- VADD (R176): Elementwise add. -/
  | vadd (r : Ring) (t : Fmt) (e : Bool) (vd : VReg) (va : VReg) (vb : VReg)
  /-- VSUB (R176): Elementwise subtract. -/
  | vsub (r : Ring) (t : Fmt) (e : Bool) (vd : VReg) (va : VReg) (vb : VReg)
  /-- VMUL (R176): Elementwise multiply. -/
  | vmul (r : Ring) (t : Fmt) (e : Bool) (vd : VReg) (va : VReg) (vb : VReg)
  /-- VMIN (R176): Elementwise minimum. -/
  | vmin (r : Ring) (t : Fmt) (e : Bool) (vd : VReg) (va : VReg) (vb : VReg)
  /-- VMAX (R176): Elementwise maximum. -/
  | vmax (r : Ring) (t : Fmt) (e : Bool) (vd : VReg) (va : VReg) (vb : VReg)
  /-- VDIV (R176): Elementwise float division. -/
  | vdiv (r : Ring) (t : Fmt) (e : Bool) (vd : VReg) (va : VReg) (vb : VReg)
  /-- VFMA_F32_F64 (R177): Fused multiply-add in f32 or f64. -/
  | vfmaF32F64 (r : Ring) (vd : VReg5) (e : Bool) (va : VReg5) (vb : VReg5) (vc : VReg5) (t : Bool)
  /-- VFMA_BF16_F16 (R177): Fused multiply-add in bf16 or f16. -/
  | vfmaBf16F16 (r : Ring) (vd : VReg5) (e : Bool) (va : VReg5) (vb : VReg5) (vc : VReg5) (t : Bool)
  /-- VFMS_F32_F64 (R177): Fused multiply-subtract in f32 or f64. -/
  | vfmsF32F64 (r : Ring) (vd : VReg5) (e : Bool) (va : VReg5) (vb : VReg5) (vc : VReg5) (t : Bool)
  /-- VFMS_BF16_F16 (R177): Fused multiply-subtract in bf16 or f16. -/
  | vfmsBf16F16 (r : Ring) (vd : VReg5) (e : Bool) (va : VReg5) (vb : VReg5) (vc : VReg5) (t : Bool)
  /-- VFNMA_F32_F64 (R177): Negated fused multiply-add in f32 or f64. -/
  | vfnmaF32F64 (r : Ring) (vd : VReg5) (e : Bool) (va : VReg5) (vb : VReg5) (vc : VReg5) (t : Bool)
  /-- VFNMA_BF16_F16 (R177): Negated fused multiply-add in bf16 or f16. -/
  | vfnmaBf16F16 (r : Ring) (vd : VReg5) (e : Bool) (va : VReg5) (vb : VReg5) (vc : VReg5) (t : Bool)
  /-- VABS (R178): Clears the sign bit. -/
  | vabs (r : Ring) (t : Fmt) (e : Bool) (vd : VReg) (va : VReg)
  /-- VNEG (R178): Inverts the sign bit. -/
  | vneg (r : Ring) (t : Fmt) (e : Bool) (vd : VReg) (va : VReg)
  /-- VSQRT (R178): Correctly rounded square root. -/
  | vsqrt (r : Ring) (t : Fmt) (e : Bool) (vd : VReg) (va : VReg)
  /-- VRCP (R178): Correctly rounded reciprocal. -/
  | vrcp (r : Ring) (t : Fmt) (e : Bool) (vd : VReg) (va : VReg)
  /-- VRSQ (R178): Correctly rounded reciprocal square root. -/
  | vrsq (r : Ring) (t : Fmt) (e : Bool) (vd : VReg) (va : VReg)
  /-- VEXP2 (R178): Correctly rounded 2^x. -/
  | vexp2 (r : Ring) (t : Fmt) (e : Bool) (vd : VReg) (va : VReg)
  /-- VLOG2 (R178): Correctly rounded log2. -/
  | vlog2 (r : Ring) (t : Fmt) (e : Bool) (vd : VReg) (va : VReg)
  /-- VSCALE (R176): Multiplies by a power of two. -/
  | vscale (r : Ring) (t : Fmt) (e : Bool) (vd : VReg) (va : VReg) (vb : VReg)
  /-- VAND (R179): Bytewise AND. -/
  | vand (r : Ring) (e : Bool) (vd : VReg) (va : VReg) (vb : VReg)
  /-- VOR (R179): Bytewise OR. -/
  | vor (r : Ring) (e : Bool) (vd : VReg) (va : VReg) (vb : VReg)
  /-- VXOR (R179): Bytewise XOR. -/
  | vxor (r : Ring) (e : Bool) (vd : VReg) (va : VReg) (vb : VReg)
  /-- VSLL (R179): Elementwise shift left. -/
  | vsll (r : Ring) (t : Wd) (e : Bool) (vd : VReg) (va : VReg) (vb : VReg)
  /-- VSRL (R179): Elementwise logical shift right. -/
  | vsrl (r : Ring) (t : Wd) (e : Bool) (vd : VReg) (va : VReg) (vb : VReg)
  /-- VSRA (R179): Elementwise arithmetic shift right. -/
  | vsra (r : Ring) (t : Wd) (e : Bool) (vd : VReg) (va : VReg) (vb : VReg)
  /-- VMULH (R176): High half of the integer product. -/
  | vmulh (r : Ring) (t : Fmt) (e : Bool) (vd : VReg) (va : VReg) (vb : VReg)
  /-- VADDS (R176): Saturating integer add. -/
  | vadds (r : Ring) (t : Fmt) (e : Bool) (vd : VReg) (va : VReg) (vb : VReg)
  /-- VSUBS (R176): Saturating integer subtract. -/
  | vsubs (r : Ring) (t : Fmt) (e : Bool) (vd : VReg) (va : VReg) (vb : VReg)
  /-- VCMP (R182): Elementwise compare into a mask. -/
  | vcmp (r : Ring) (md : KReg) (cond : Cond) (va : VReg) (vb : VReg) (t : Fmt)
  /-- VSEL (R184): Bytewise select under the active mask. -/
  | vsel (r : Ring) (e : Bool) (vd : VReg) (va : VReg) (vb : VReg)
  /-- VCLASS (R183): Class test into a mask. -/
  | vclass (r : Ring) (md : KReg) (va : VReg) (set : BitVec 6) (t : Fmt)
  /-- VCVT (R186): Converts elements between formats. -/
  | vcvt (r : Ring) (vd : VReg) (vp : BitVec 5) (e : Bool) (fs : Fmt) (fd : Fmt)
  /-- VPACK (R188): Converts a register pair into one narrower register. -/
  | vpack (r : Ring) (vd : VReg) (vp : BitVec 5) (e : Bool) (fs : Fmt) (fd : Fmt)
  /-- VUNPK (R189): Widens one register into g registers. -/
  | vunpk (r : Ring) (vd : VReg) (vp : BitVec 5) (fs : Fmt) (fd : Fmt)
  /-- VMOV (R184): Copies a register under masking. -/
  | vmov (r : Ring) (e : Bool) (vd : VReg) (va : VReg)
  /-- VBCAST (R193): Broadcasts an exchange register. -/
  | vbcast (r : Ring) (t : Wd) (e : Bool) (vd : VReg) (sx : XReg)
  /-- VEXT (R193): Extracts an element into an exchange register. -/
  | vext (r : Ring) (t : Wd) (sd : XReg) (va : VReg) (sx : XReg)
  /-- VINS (R193): Inserts a scalar at an element. -/
  | vins (r : Ring) (t : Wd) (e : Bool) (vd : VReg) (va : VReg) (sx : XReg)
  /-- VPERM (R193): Permutes elements by an index register. -/
  | vperm (r : Ring) (t : Wd) (e : Bool) (vd : VReg) (va : VReg) (vb : VReg)
  /-- VROT_DN (R193): Rotates elements down. -/
  | vrotDn (r : Ring) (t : Wd) (e : Bool) (vd : VReg) (va : VReg) (sx : XReg)
  /-- VROT_UP (R193): Rotates elements up. -/
  | vrotUp (r : Ring) (t : Wd) (e : Bool) (vd : VReg) (va : VReg) (sx : XReg)
  /-- VSLIDE_DN (R193): Slides elements down with zero fill. -/
  | vslideDn (r : Ring) (t : Wd) (e : Bool) (vd : VReg) (va : VReg) (sx : XReg)
  /-- VSLIDE_UP (R193): Slides elements up with zero fill. -/
  | vslideUp (r : Ring) (t : Wd) (e : Bool) (vd : VReg) (va : VReg) (sx : XReg)
  /-- VRED_SUM (R194): Sum reduction into element 0. -/
  | vredSum (r : Ring) (t : Fmt) (e : Bool) (vd : VReg) (va : VReg)
  /-- VRED_MIN (R194): Minimum reduction. -/
  | vredMin (r : Ring) (t : Fmt) (e : Bool) (vd : VReg) (va : VReg)
  /-- VRED_MAX (R194): Maximum reduction. -/
  | vredMax (r : Ring) (t : Fmt) (e : Bool) (vd : VReg) (va : VReg)
  /-- VSCAN_SUM (R194): Prefix sum. -/
  | vscanSum (r : Ring) (t : Fmt) (e : Bool) (vd : VReg) (va : VReg)
  /-- VSCAN_MIN (R194): Prefix minimum. -/
  | vscanMin (r : Ring) (t : Fmt) (e : Bool) (vd : VReg) (va : VReg)
  /-- VSCAN_MAX (R194): Prefix maximum. -/
  | vscanMax (r : Ring) (t : Fmt) (e : Bool) (vd : VReg) (va : VReg)
  /-- VLD (R195): Loads 128 bytes from XB or OF. -/
  | vld (r : Ring) (e : Bool) (vd : VReg) (sa : XReg) (sb : XReg) (sp : VSp)
  /-- VST (R195): Stores 128 bytes to XB or OF. -/
  | vst (r : Ring) (vd : VReg) (sa : XReg) (sb : XReg) (sp : VSp)
  /-- VLDS (R195): Strided load. -/
  | vlds (r : Ring) (t : Wd) (e : Bool) (vd : VReg) (sa : XReg) (sb : XReg) (sp : VSp)
  /-- VSTS (R195): Strided store. -/
  | vsts (r : Ring) (t : Wd) (vd : VReg) (sa : XReg) (sb : XReg) (sp : VSp)
  /-- VGATH (R195): Indexed gather from XB. -/
  | vgath (r : Ring) (t : Wd) (e : Bool) (vd : VReg) (va : VReg) (sa : XReg)
  /-- VSCAT (R195): Indexed scatter into XB. -/
  | vscat (r : Ring) (t : Wd) (vd : VReg) (va : VReg) (sa : XReg)
  /-- VLUT (R197): Extracts a code field and looks it up in an XB table. -/
  | vlut (r : Ring) (t : Wd) (e : Bool) (vd : VReg) (va : VReg) (sa : XReg)
  /-- VBFX (R180): Elementwise bit-field extract. -/
  | vbfx (r : Ring) (t : Fmt) (e : Bool) (vd : VReg) (va : VReg) (vb : VReg)
  /-- VFSH (R181): Elementwise funnel shift. -/
  | vfsh (r : Ring) (t : Wd) (e : Bool) (vd : VReg) (va : VReg) (vb : VReg)
  /-- VPOPC (R179): Elementwise population count. -/
  | vpopc (r : Ring) (t : Wd) (e : Bool) (vd : VReg) (va : VReg)
  /-- VCLZ (R179): Elementwise leading-zero count. -/
  | vclz (r : Ring) (t : Wd) (e : Bool) (vd : VReg) (va : VReg)
  /-- VQNT (R191): Quantises 32 f32 elements and writes the scale to SM. -/
  | vqnt (r : Ring) (t : Fmt) (e : Bool) (vd : VReg) (va : VReg) (sx : XReg) (g : QGeo)
  /-- VDQNT (R192): Dequantises 32 elements into f32. -/
  | vdqnt (r : Ring) (t : Fmt) (e : Bool) (vd : VReg) (va : VReg) (sx : XReg) (g : QGeo)
  /-- VMSEL (R185): Chooses the active mask. -/
  | vmsel (r : Ring) (mk : KReg)
  /-- VNOP (R185): V-stream no-operation. -/
  | vnop (r : Ring)
  /-- V_JOIN (R481): V-stream rendezvous on k. -/
  | vJoin (r : Ring) (k : BitVec 6)
  /-- V_EXIT (R481): Ends the V stream. -/
  | vExit (r : Ring)
  /-- MMA (R215): Matrix multiply-accumulate of two tiles. -/
  | mma (r : Ring) (acc : TReg) (ta : TReg) (tb : TReg) (z : Bool) (w : Bool)
  /-- MMAI (R215): Integer-group matrix multiply with group records. -/
  | mmai (r : Ring) (acc : TReg) (ta : TReg) (tb : TReg) (z : Bool) (w : Bool) (g : IGeo) (sx : XReg)
  /-- MMAX (R215): Block-scaled matrix multiply with a tensor scale. -/
  | mmax (r : Ring) (acc : TReg) (ta : TReg) (tb : TReg) (z : Bool) (w : Bool) (g : XGeo) (sx : XReg)
  /-- ACLR (R217): Clears an accumulator. -/
  | aclr (r : Ring) (x : TReg)
  /-- AADD (R217): Adds two accumulators. -/
  | aadd (r : Ring) (x : TReg) (y : TReg) (z : TReg)
  /-- ALD (R217): Loads a tile into an accumulator. -/
  | ald (r : Ring) (x : TReg) (y : TReg)
  /-- AST (R217): Copies an accumulator, optionally transposed. -/
  | ast (r : Ring) (x : TReg) (y : TReg) (tr : Bool)
  /-- ACVT (R218): Converts an accumulator into a tile in OF. -/
  | acvt (r : Ring) (x : TReg) (y : TReg) (sat : Bool) (scl : Bool) (sx : XReg)
  /-- TLD (R219): Loads a tile from XB. -/
  | tld (r : Ring) (x : TReg) (sx : XReg)
  /-- TST (R219): Converts a tile into another tile. -/
  | tst (r : Ring) (x : TReg) (y : TReg) (sat : Bool)
  /-- TTR (R219): Transposes a tile. -/
  | ttr (r : Ring) (x : TReg) (y : TReg)
  /-- TREPK (R219): Relays a tile by another layout. -/
  | trepk (r : Ring) (x : TReg) (y : TReg)
  /-- TREPK_PK (R220): Builds a row-packed sub-byte tile from column packing. -/
  | trepkPk (r : Ring) (x : TReg) (y : TReg)
  /-- MNEST (R222): Activates the shadow nest table and starts a matrix nest. -/
  | mnest (r : Ring)
  /-- MWAIT (R224): Waits until no matrix nest runs. -/
  | mwait (r : Ring)
  /-- MSTAT (R221): Drains the M landing queue and snapshots MSTAT into MSNAP. -/
  | mstat (r : Ring)
  /-- MSTAT_CLR (R221): As MSTAT, then clears the MSTAT flags. -/
  | mstatClr (r : Ring)
  /-- MNOP (R224): M-stream no-operation. -/
  | mnop (r : Ring)
  /-- M_JOIN (R481): M-stream rendezvous on k. -/
  | mJoin (r : Ring) (k : BitVec 6)
  /-- M_EXIT (R481): Ends the M stream. -/
  | mExit (r : Ring)
  /-- XCOPY (R356): Enqueues a copy command. -/
  | xcopy (r : Ring) (pb : XReg) (pv : Bool)
  /-- XNEST_COPY (R375): Enqueues a copy nest with an XCOPY body. -/
  | xnestCopy (r : Ring) (pb : XReg) (pv : Bool)
  /-- XNEST_ACC (R375): Enqueues a copy nest with an XACC body. -/
  | xnestAcc (r : Ring) (pb : XReg) (pv : Bool)
  /-- XNEST_MCAST (R375): Enqueues a copy nest with an XMCAST body. -/
  | xnestMcast (r : Ring) (pb : XReg) (pv : Bool)
  /-- XNEST_STRM (R375): Enqueues a copy nest with an XSTRM body. -/
  | xnestStrm (r : Ring) (pb : XReg) (pv : Bool)
  /-- XMCAST (R360): Enqueues a multicast into cluster neighbours. -/
  | xmcast (r : Ring) (pb : XReg) (pv : Bool)
  /-- XACC (R359): Enqueues an accumulating copy. -/
  | xacc (r : Ring) (pb : XReg) (pv : Bool)
  /-- XSTRM (R361): Enqueues a weight expansion from LPDDR6 into T4. -/
  | xstrm (r : Ring) (pb : XReg) (pv : Bool)
  /-- XGATH (R363): Enqueues an indexed gather copy. -/
  | xgath (r : Ring) (pb : XReg) (ax : XReg) (pv : Bool)
  /-- XWAIT (R365): Waits until at most n X commands are outstanding. -/
  | xwait (r : Ring) (n : BitVec 5)
  /-- XFENCE (R364): Enqueues a fence among X commands. -/
  | xfence (r : Ring)
  /-- XNOP (R365): X-stream no-operation. -/
  | xnop (r : Ring)
  /-- X_JOIN (R481): X-stream rendezvous on k. -/
  | xJoin (r : Ring) (k : BitVec 6)
  /-- X_EXIT (R481): Ends the X stream. -/
  | xExit (r : Ring)
  /-- RESULT_LANDING (R45): A result reaches its landing slot and becomes visible. -/
  | resultLanding (core : CoreId) (e : Strm)
  /-- ACCUMULATOR_READ (R205): An MMA-family instruction reads its accumulator at slot s + 24. -/
  | accumulatorRead (core : CoreId)
  /-- RING_TIMEOUT (R30): A ring, TWAIT, reservation or JOIN wait passes WDOG.LIMIT and faults. -/
  | ringTimeout (core : CoreId) (e : Strm)
  /-- HANDLER_ENTRY (R398): The core writes the trap frame and starts the handler in the C stream. -/
  | handlerEntry (core : CoreId)
  /-- FROZEN_TASK_REPORT (R399): The management core reports a frozen task FAILED and releases it. -/
  | frozenTaskReport (core : CoreId)
  /-- DEFERRED_FAULT_DELIVERY (R351): A failed item's fault is taken at the stream's next non-annulled instruction. -/
  | deferredFaultDelivery (core : CoreId) (e : Strm)
  /-- TASK_END (R33): A task whose streams exited and whose work drained ends DONE. -/
  | taskEnd (core : CoreId)
  /-- LAUNCH_ACCEPTANCE (R237): A launch queue checks a packet and answers with status and identifier. -/
  | launchAcceptance (core : CoreId)
  /-- PLACEMENT (R241): Botra chooses a core and writes a bind record into its next slot. -/
  | placement (core : CoreId) (lid : BitVec 32) (tidx : BitVec 24) (budget : BitVec 32)
  /-- AGE_LEVEL_RISE (R241): Each 10 ms of readiness raises a task's placement level. -/
  | ageLevelRise (lid : BitVec 32) (tidx : BitVec 24)
  /-- PRELOAD (R246): Dispatch preloads code, dictionary and argument block for the next slot. -/
  | preload (core : CoreId)
  /-- WITHDRAWAL (R246): Botra withdraws a next-slot record and discards its preload. -/
  | withdrawal (core : CoreId)
  /-- BIND_COMMIT (R243): The core binds the next-slot task and starts its streams. -/
  | bindCommit (core : CoreId)
  /-- LATE_START (R249): START passes with a gate closed and the task fails. -/
  | lateStart (lid : BitVec 32) (tidx : BitVec 24)
  /-- GOVERNOR_WINDOW (R251): The envelope governor ends a 1 µs window and throttles or releases M and V. -/
  | governorWindow (core : CoreId) (mw : BitVec 32)
  /-- PHASE_BOUNDARY (R257): A phase counter reaches its target, waits for accesses and releases PHASE waiters. -/
  | phaseBoundary (ctr : BitVec 8)
  /-- PHASE_WATCHDOG (R258): A PHASE wait passes WDOG.LIMIT and faults with WATCHDOG. -/
  | phaseWatchdog (core : CoreId)
  /-- CANCEL_RELEASE (R259): Every affected task is handled and CANCEL's status lands. -/
  | cancelRelease (core : CoreId)
  /-- HOME_ATOMIC (R262): A home controller performs an AMO, CAS or barrier access and answers. -/
  | homeAtomic (core : CoreId)
  /-- BARW_BOUND_EXPIRY (R266): A BARW bound expires and pd lands 0. -/
  | barwBoundExpiry (core : CoreId)
  /-- HOME_CONTROLLER_ANSWER (R290): A controller answers a held virtual load or store. -/
  | homeControllerAnswer (core : CoreId) (e : Strm)
  /-- STORE_PERFORMED (R290): An accepted store is performed at its bank. -/
  | storePerformed (core : CoreId)
  /-- REGION_COUNT (R299): A home controller counts written bytes or an ARRV at a region entry. -/
  | regionCount (die : BitVec 2) (idx : BitVec 16)
  /-- REARM_REFIRE (R300): A REARM entry still at or above TARGET fires again the next cycle. -/
  | rearmRefire (die : BitVec 2) (idx : BitVec 16)
  /-- AWAIT_BOUND_EXPIRY (R307): An AWAIT bound expires and pd lands 0. -/
  | awaitBoundExpiry (core : CoreId)
  /-- GENERATION_BUMP (R289): Botra bumps an address space's generation everywhere. -/
  | generationBump (asid : BitVec 16)
  /-- REQUEST_REPLAY (R289): A request rejected for the previous generation is retranslated and replayed. -/
  | requestReplay (core : CoreId) (e : Strm)
  /-- SWEEP_COMPLETE (R289): No request of the old generation remains and the shootdown completes. -/
  | sweepComplete (asid : BitVec 16)
  /-- SEAL_COMPLETE (R309): Accepted writes are performed and the SEAL bit is set. -/
  | sealComplete (core : CoreId)
  /-- UNSEAL_COMPLETE (R311): Replicas are dropped and SEAL is cleared. -/
  | unsealComplete (core : CoreId)
  /-- REPLICA_PLACEMENT (R310): A level engine places a replica of sealed bytes. -/
  | replicaPlacement (die : BitVec 2) (idx : BitVec 16) (lvl : BitVec 3) (tdie : BitVec 2)
  /-- BANK_MARK_FAILING (R312): Botra marks a bank or lane failing from error counts. -/
  | bankMarkFailing (die : BitVec 2) (lvl : BitVec 3) (bank : SpareUnit)
  /-- LAYER_FAILURE_NO_SPARE (R313): A failure with no spare sets DEGR and starts shedding. -/
  | layerFailureNoSpare (die : BitVec 2) (lvl : BitVec 3) (bank : SpareUnit)
  /-- RECOVERY_POINT (R313): Job boundaries or the shed deadline start draining the layer's jobs. -/
  | recoveryPoint (die : BitVec 2) (lvl : BitVec 3)
  /-- SHED_COMPLETE (R313): The shed sweep completes and SHED is set. -/
  | shedComplete (die : BitVec 2) (lvl : BitVec 3)
  /-- PATROL_SCRUB (R316): The scrubber reads and corrects a word. -/
  | patrolScrub (die : BitVec 2) (lvl : BitVec 3) (word : EccReport)
  /-- PARAMETER_BLOCK_READ (R343): A virtual parameter block returns and the command is enqueued. -/
  | parameterBlockRead (core : CoreId)
  /-- COMMAND_START (R341): An enqueued engine command starts its items. -/
  | commandStart (core : CoreId)
  /-- ITEM_PERFORMED (R350): All bytes of an item are performed and counted. -/
  | itemPerformed (core : CoreId) (slot : BitVec 4)
  /-- COMMAND_COMPLETE (R350): A command completes and deposits its token. -/
  | commandComplete (core : CoreId) (slot : BitVec 4)
  /-- ITEM_FAILURE (R351): An item fails, is recorded and completes its command without token. -/
  | itemFailure (core : CoreId) (slot : BitVec 4)
  /-- ERROR_RECORD_DRAIN (R402): A waiting record is written once the ring has room. -/
  | errorRecordDrain (q : BitVec 6)
  /-- NEST_STEP_START (R371): A nest starts its next step once the previous one and its gate allow. -/
  | nestStepStart (core : CoreId)
  /-- NEST_STEP_WATCHDOG (R372): A gated step wait exceeds WDOG.LIMIT and fails. -/
  | nestStepWatchdog (core : CoreId)
  /-- NEST_COMPLETE (R222): The last instance of a nest lands and the nest completes. -/
  | nestComplete (core : CoreId)
  /-- PREEMPTION_CHOICE (R406): Botra chooses drain, checkpoint or kill for a victim. -/
  | preemptionChoice (core : CoreId) (lid : BitVec 32) (tidx : BitVec 24)
  /-- CHECKPOINT_SETTLE (R411): Running nests finish their step and other commands complete. -/
  | checkpointSettle (core : CoreId)
  /-- CHECKPOINT_WRITE (R413): The context is written section by section into the save slot. -/
  | checkpointWrite (core : CoreId)
  /-- SAVE_FAULT_SERVICE (R414): Botra services a save fault and the stage continues. -/
  | saveFaultService (core : CoreId) (served : Bool)
  /-- CHECKPOINT_RELEASE (R411): COMPLETE is set, resources are released and the task is SAVED. -/
  | checkpointRelease (core : CoreId)
  /-- HANG_WATCHDOG (R415): The WRITE stage passes PERIOD and the emergency save starts or aborts. -/
  | hangWatchdog (core : CoreId)
  /-- EMERGENCY_COPY (R415): Botra copies an emergency save into the task's slot. -/
  | emergencyCopy (lid : BitVec 32) (tidx : BitVec 24)
  /-- RESTORE (R416): A SAVED task's latest checkpoint is restored at commit. -/
  | restore (core : CoreId)
  /-- KILL_AND_RERUN (R410): A task is stopped and returned to QUEUED to rerun. -/
  | killAndRerun (core : CoreId)
  /-- BUDGET_OVERRUN (R408): A task exceeds its run budget. -/
  | budgetOverrun (core : CoreId)
  /-- CORE_SELF_CHECK_FAILURE (R419): A failed unit freezes the core with CORE_FROZEN. -/
  | coreSelfCheckFailure (core : CoreId)
  /-- REGROW (R419): Botra moves a frozen task onto a spare site. -/
  | regrow (core : CoreId)
  /-- PACKAGE_RESET (R18): The package takes its reset values. -/
  | packageReset
  /-- PACKAGE_FREEZE (R422): FRZ_N low stops every clock on one cycle. -/
  | packageFreeze
  /-- FREEZE (R422): A TOCL freeze command stops every clock. -/
  | freeze (h : Toc)
  /-- FREEZE_RESUME (R422): In debug mode a resume command restarts every clock. -/
  | freezeResume
  /-- PTP_EVENT_FRAME (R436): A PTP event frame goes to Botra, which slews DEVTIME. -/
  | ptpEventFrame (port : BitVec 4) (offset : BitVec 64) (rate : BitVec 32)
  /-- LINK_TRAINING_DONE (R437): Link training completes and the port shows up. -/
  | linkTrainingDone (port : BitVec 4)
  /-- LINK_LOSS (R437): A loss of link takes the port down and into training. -/
  | linkLoss (port : BitVec 4)
  /-- FRAME_RECEIVE (R441): A frame is classified and written as a record into an ingest ring. -/
  | frameReceive (port : BitVec 4) (bytes : List Byte) (fcsOk : Bool)
  /-- FABRIC_PACKET_RECEIVE (R444): A fabric packet is performed, counted or forwarded. -/
  | fabricPacketReceive (p : FabPkt)
  /-- FABRIC_ACK (R444): The receiver acknowledges a performed packet. -/
  | fabricAck (id : BitVec 32) (cause : BitVec 8)
  /-- LINK_TIMEOUT (R444): A packet has no acknowledgement within LINKTO. -/
  | linkTimeout (id : BitVec 32)
  /-- COLLECTIVE_STEP_START (R449): A collective step starts in table order. -/
  | collectiveStepStart (core : CoreId)
  /-- COLLECTIVE_STEP_COMPLETE (R449): A collective step completes and makes its TGT arrival. -/
  | collectiveStepComplete (core : CoreId)
  /-- CLWAIT_BOUND_EXPIRY (R452): A CLWAIT bound expires and pd lands 0. -/
  | clwaitBoundExpiry (core : CoreId)
  /-- TOCL_LAUNCH (R453): The host sends a launch packet over TOCL. -/
  | toclLaunch (h : Toc) (q : BitVec 6) (pkt : BitVec 1024)
  /-- TOCL_CANCEL (R453): The host cancels over TOCL. -/
  | toclCancel (h : Toc) (lvl : BitVec 3) (id : BitVec 32) (tidx : BitVec 24)
  /-- TOCL_WRITE (R453): The host writes virtual memory over TOCL. -/
  | toclWrite (h : Toc) (va : VAddr) (bytes : List Byte)
  /-- TOCL_READ (R453): The host reads virtual memory over TOCL. -/
  | toclRead (h : Toc) (va : VAddr) (len : BitVec 13)
  /-- REGION_CREATE (R454): Writes a die region entry. -/
  | regionCreate (h : Toc) (die : BitVec 2) (idx : BitVec 16) (w0 w1 w2 w3 w4 : Word)
  /-- REGION_DESTROY (R454): Clears a die region entry. -/
  | regionDestroy (h : Toc) (die : BitVec 2) (idx : BitVec 16)
  /-- REGION_READ (R454): Returns a die region entry. -/
  | regionRead (h : Toc) (die : BitVec 2) (idx : BitVec 16)
  /-- COUNTER_SET (R454): Sets a graph, phase or job counter. -/
  | counterSet (h : Toc) (kind : CtrKind) (n : BitVec 12) (target : BitVec 32) (clk : Bool)
  /-- SESSION_BIND (R483): Binds or unbinds a task session. -/
  | sessionBind (h : Toc) (n : BitVec 4) (asid : BitVec 16) (unbind : Bool)
  /-- REG_READ (R484): Returns a management register. -/
  | regRead (h : Toc) (num : BitVec 12)
  /-- REG_WRITE (R484): Writes a host-writable management register. -/
  | regWrite (h : Giver) (num : BitVec 12) (v : Word)
  /-- GROUP_SET (R446): Configures a collective group. -/
  | groupSet (h : Toc) (g : BitVec 6) (asid : BitVec 16) (devs : List (BitVec 12)) (rank : BitVec 4)
  /-- INGEST_SET (R440): Configures an ingest queue and its standing holder. -/
  | ingestSet (h : Toc) (q : BitVec 6) (w0 w1 w2 : Word)
  /-- PORT_SET (R437): Configures a link port. -/
  | portSet (h : Toc) (port : BitVec 4) (v : Word)
  /-- RULE_SET (R439): Writes a classifier rule. -/
  | ruleSet (h : Toc) (port : BitVec 4) (rule : BitVec 6) (v : Word)
  /-- ROUTE_SET (R444): Writes the fabric route table. -/
  | routeSet (h : Toc) (dev : BitVec 12) (port : RouteDest)
  /-- QUEUE_SET (R474): Configures a launch queue and its error ring. -/
  | queueSet (h : Toc) (q : BitVec 6) (level : BitVec 3) (asid : BitVec 16) (base : VAddr) (k : BitVec 6) (cons : VAddr)
  /-- SAVE_SET (R474): Sets an address space's save range. -/
  | saveSet (h : Toc) (asid : BitVec 16) (base : VAddr) (size : BitVec 64)
  /-- SUB_SET (R468): Writes or removes a subscription. -/
  | subSet (h : Toc) (n : BitVec 8) (w0 w1 w2 w3 w4 : Word)
  /-- TRIM_SET (R465): Botra sets an island trim. -/
  | trimSet (island : Given (BitVec 10)) (mv : BitVec 16)
  /-- CLK_SET (R466): Botra sets the requested frequency. -/
  | clkSet (req : Given (BitVec 8))
  /-- ATTEST (R477): Returns the signed attestation log. -/
  | attest (h : Toc) (nonce : BitVec 256)
  /-- FW_STAGE (R478): Writes a Botra record into the inactive flash slot. -/
  | fwStage (h : Toc) (r : FwRec)
  /-- FW_COMMIT (R478): Verifies, measures and quiesces for a live firmware update. -/
  | fwCommit (h : Toc)
  /-- HANDOVER_READY (R478): The new Botra reports ready and the minimum version rises. -/
  | handoverReady
  /-- HANDOVER_TIMEOUT (R478): No ready within 50 µs and the old Botra resumes. -/
  | handoverTimeout
  /-- SENSOR_SAMPLE (R469): A subscription samples its sensor and may change state. -/
  | sensorSample (n : BitVec 8) (v : Word)
  /-- HOLD_TIMER_EXPIRY (R472): An idle core gates its engines into retention after 2 µs. -/
  | holdTimerExpiry (core : CoreId)
  /-- WAKE_REQUEST (R472): A retained core is asked to wake. -/
  | wakeRequest (core : CoreId)
  /-- WAKE_ADMIT (R473): The in-rush arbiter admits a wake and the ramp starts. -/
  | wakeAdmit (die : BitVec 2)
  /-- WAKE_RAMP_DONE (R472): The ramp ends and retention parity is checked. -/
  | wakeRampDone (core : CoreId) (parityOk : Bool)
  /-- ENCODING_FAULT (R88): A word with an illegal or reserved major, or a reserved minor or field value, comes up for issue and faults with ILLEGAL_ENCODING or RESERVED_OPCODE. -/
  | encodingFault (core : CoreId) (e : Strm)
  /-- INSTRUCTION_FETCH_FAULT (R67): The parcel of an instruction that would issue fails to translate, lacks execute permission or lies outside a sealed region, and the stream faults. -/
  | instructionFetchFault (core : CoreId) (e : Strm)
  /-- PARKED_RECORD_WRITE (R301): Botra writes an entry of a die's 1,024-entry parked-record table for a START action to move later. -/
  | parkedRecordWrite (die : BitVec 2) (i : BitVec 10) (core : CoreId) (rec : BitVec 128)
  deriving DecidableEq, Repr

end Sys2Proof
end

