-- ==== Sys2Proof/WellFormed.lean ====
section
/-!
DEFINITION. WellFormed.lean: which operand values an instruction may hold (R72 to R86). An encoding whose fields do not
form a well-formed instruction faults with RESERVED_OPCODE (R86).
-/
namespace Sys2Proof

/-- Element width in bits (R138, R141, R143). -/
def Fmt.width : Fmt → Nat
  | .f64 => 64 | .f32 => 32 | .bf16 => 16 | .f16 => 16 | .e4m3 => 8 | .e5m2 => 8 | .e3m2 => 6 | .e2m3 => 6
  | .e2m1 => 4 | .e8m0 => 8 | .i4 => 4 | .i8 => 8 | .i16 => 16 | .i32 => 32 | .i64 => 64 | .n4 => 4 | .n8 => 8
  | .n16 => 16 | .n32 => 32 | .n64 => 64

/-- Class F (R77). -/
def Fmt.isF : Fmt → Bool
  | .f64 | .f32 | .bf16 | .f16 => true
  | _ => false

/-- Class FI (R77). -/
def Fmt.isFI : Fmt → Bool
  | .f64 | .f32 | .bf16 | .f16 | .i8 | .i16 | .i32 | .i64 => true
  | _ => false

/-- Class I (R77). -/
def Fmt.isI : Fmt → Bool
  | .i8 | .i16 | .i32 | .i64 | .n8 | .n16 | .n32 | .n64 => true
  | _ => false

/-- Class FIN (R77). -/
def Fmt.isFIN : Fmt → Bool
  | .f64 | .f32 | .bf16 | .f16 | .i8 | .i16 | .i32 | .i64 | .n8 | .n16 | .n32 | .n64 => true
  | _ => false

/-- CSR numbers a CSR instruction may name without an encoding fault: those of R54 that are not reserved, and the
management numbers, which fault with PRIVILEGED instead (R124). -/
def csrKnown (n : BitVec 10) : Bool :=
  let k := n.toNat
  decide (k ≤ 3) || decide (k = 0x10 ∨ k = 0x11 ∨ k = 0x12 ∨ k = 0x14 ∨ k = 0x15 ∨ k = 0x16) ||
  decide (0x20 ≤ k ∧ k ≤ 0x25) || decide (k = 0x30 ∨ k = 0x31) || decide (0x40 ≤ k ∧ k ≤ 0x42) ||
  decide (0x50 ≤ k ∧ k ≤ 0x52) || decide (0x54 ≤ k ∧ k ≤ 0x5F) || decide (0x300 ≤ k)

/-- Format pairs of VPACK (R188). -/
def packPair (fs fd : Fmt) : Bool :=
  (fs != .e8m0) && (fd != .e8m0) && decide (8 ≤ fs.width ∧ 2 * fd.width ≤ fs.width)

/-- Source width of VUNPK, 8 for a 6-bit format (R189). -/
def unpkWidth (fs : Fmt) : Nat := if fs.width = 6 then 8 else fs.width

/-- Format pairs of VUNPK (R189). -/
def unpkPair (fs fd : Fmt) : Bool :=
  (fs != .e8m0) && (fd != .e8m0) &&
  decide (8 ≤ fd.width ∧ (fd.width = 2 * unpkWidth fs ∨ fd.width = 4 * unpkWidth fs ∨ fd.width = 8 * unpkWidth fs))

/-- Pairs of target format and geometry of VQNT and VDQNT (R190). -/
def qPair (t : Fmt) (g : QGeo) : Bool :=
  match g, t with
  | .mx, .e4m3 | .mx, .e5m2 | .mx, .e3m2 | .mx, .e2m3 | .mx, .e2m1 | .mx, .i8 => true
  | .s16, .e4m3 | .s16, .e5m2 | .s16, .e3m2 | .s16, .e2m3 | .s16, .e2m1 => true
  | .s32, .e4m3 | .s32, .e5m2 | .s32, .e3m2 | .s32, .e2m3 | .s32, .e2m1 => true
  | .g32, .i8 | .g32, .i4 => true
  | _, _ => false

/-- With W set, tb[3:2] must be zero (R214). -/
def wTile (w : Bool) (tb : TReg) : Bool := !w || decide (tb.toNat < 4)

/-- The operand values the encoding admits (R86). Events hold no encoding and every argument value is well formed. -/
def Instr.wf : Instr → Bool
  | .add _ _ _ _ => true
  | .sub _ _ _ _ => true
  | .and _ _ _ _ => true
  | .or _ _ _ _ => true
  | .xor _ _ _ _ => true
  | .andn _ _ _ _ => true
  | .orn _ _ _ _ => true
  | .sll _ _ _ _ => true
  | .srl _ _ _ _ => true
  | .sra _ _ _ _ => true
  | .rol _ _ _ _ => true
  | .ror _ _ _ _ => true
  | .sel _ _ _ _ => true
  | .min _ _ _ _ => true
  | .max _ _ _ _ => true
  | .minn _ _ _ _ => true
  | .mul _ _ _ _ => true
  | .mulh _ _ _ _ => true
  | .mulhn _ _ _ _ => true
  | .div _ _ _ _ => true
  | .divn _ _ _ _ => true
  | .rem _ _ _ _ => true
  | .remn _ _ _ _ => true
  | .maxn _ _ _ _ => true
  | .clz _ _ _ => true
  | .ctz _ _ _ => true
  | .popc _ _ _ => true
  | .brev _ _ _ => true
  | .bswap _ _ _ => true
  | .sext _ _ _ _ => true
  | .zext _ _ _ _ => true
  | .addi _ _ _ _ => true
  | .andi _ _ _ _ => true
  | .ori _ _ _ _ => true
  | .xori _ _ _ _ => true
  | .muli _ _ _ _ => true
  | .slli _ _ _ _ => true
  | .srli _ _ _ _ => true
  | .srai _ _ _ _ => true
  | .rori _ _ _ _ => true
  | .movi _ _ _ => true
  | .movk _ _ _ => true
  | .addpc _ _ _ => true
  | .bfx _ _ _ _ => true
  | .bfxn _ _ _ _ => true
  | .bfi _ _ _ _ => true
  | .fshl _ _ _ _ => true
  | .fshr _ _ _ _ => true
  | .cmp _ _ _ _ _ => true
  | .cmpAnd _ _ _ _ _ => true
  | .cmpOr _ _ _ _ _ => true
  | .cmpi _ _ _ _ _ => true
  | .pand _ _ _ _ => true
  | .por _ _ _ _ => true
  | .pxor _ _ _ _ => true
  | .pnot _ _ _ => true
  | .pmov _ _ _ => true
  | .br _ _ _ _ => true
  | .jmp _ _ => true
  | .call _ _ => true
  | .jr _ _ => true
  | .jalr _ _ _ => true
  | .ret _ => true
  | .loop _ _ _ => true
  | .nop _ => true
  | .skip _ _ _ n => n != 0
  | .join _ _ => true
  | .exit _ => true
  | .ld _ _ _ _ _ _ => true
  | .st _ _ _ _ _ _ => true
  | .ldx _ _ _ _ _ _ => true
  | .stx _ _ _ _ _ _ => true
  | .pft _ _ _ _ _ => true
  | .ldVm _ _ _ _ _ => true
  | .stVm _ _ _ _ _ => true
  | .ldxVm _ _ _ _ _ => true
  | .stxVm _ _ _ _ _ => true
  | .pftVm _ _ _ _ => true
  | .amoAdd _ _ _ _ => true
  | .amoAnd _ _ _ _ => true
  | .amoOr _ _ _ _ => true
  | .amoXor _ _ _ _ => true
  | .amoMin _ _ _ _ => true
  | .amoMax _ _ _ _ => true
  | .amoMinn _ _ _ _ => true
  | .amoMaxn _ _ _ _ => true
  | .amoSwap _ _ _ _ => true
  | .cas _ _ _ _ => true
  | .arm _ _ _ _ => true
  | .arrv _ _ _ _ => true
  | .await _ _ _ _ => true
  | .bari _ _ _ _ => true
  | .bara _ _ _ _ _ => true
  | .barw _ _ _ _ => true
  | .seal _ _ => true
  | .unseal _ _ => true
  | .fence _ _ => true
  | .csrr _ _ csr => csrKnown csr
  | .csrw _ _ csr => csrKnown csr
  | .csrs _ _ csr => csrKnown csr
  | .csrc _ _ csr => csrKnown csr
  | .time _ _ => true
  | .view _ _ _ => true
  | .tdesc _ _ _ _ => true
  | .trap _ _ => true
  | .eret _ => true
  | .token _ _ n => n != 0
  | .twait _ _ n => n != 0
  | .launch _ _ _ _ => true
  | .launchCr _ _ _ _ => true
  | .cancelTask _ _ _ _ => true
  | .cancelLaunch _ _ _ => true
  | .cancelGraph _ _ _ => true
  | .cancelPhase _ _ _ => true
  | .cancelJob _ _ _ => true
  | .phase _ _ => true
  | .ckpt _ _ => true
  | .estim _ _ => true
  | .clstep _ _ _ _ => true
  | .clwait _ _ _ _ => true
  | .mulw _ _ _ _ => true
  | .dictionaryCode _ _ => true
  | .vadd _ t _ _ _ _ => t.isFI
  | .vsub _ t _ _ _ _ => t.isFI
  | .vmul _ t _ _ _ _ => t.isFI
  | .vmin _ t _ _ _ _ => t.isFI
  | .vmax _ t _ _ _ _ => t.isFI
  | .vdiv _ t _ _ _ _ => t.isF
  | .vfmaF32F64 _ _ _ _ _ _ _ => true
  | .vfmaBf16F16 _ _ _ _ _ _ _ => true
  | .vfmsF32F64 _ _ _ _ _ _ _ => true
  | .vfmsBf16F16 _ _ _ _ _ _ _ => true
  | .vfnmaF32F64 _ _ _ _ _ _ _ => true
  | .vfnmaBf16F16 _ _ _ _ _ _ _ => true
  | .vabs _ t _ _ _ => t.isF
  | .vneg _ t _ _ _ => t.isF
  | .vsqrt _ t _ _ _ => t.isF
  | .vrcp _ t _ _ _ => t.isF
  | .vrsq _ t _ _ _ => t.isF
  | .vexp2 _ t _ _ _ => t.isF
  | .vlog2 _ t _ _ _ => t.isF
  | .vscale _ t _ _ _ _ => t.isF
  | .vand _ _ _ _ _ => true
  | .vor _ _ _ _ _ => true
  | .vxor _ _ _ _ _ => true
  | .vsll _ _ _ _ _ _ => true
  | .vsrl _ _ _ _ _ _ => true
  | .vsra _ _ _ _ _ _ => true
  | .vmulh _ t _ _ _ _ => t.isI
  | .vadds _ t _ _ _ _ => t.isI
  | .vsubs _ t _ _ _ _ => t.isI
  | .vcmp _ _ _ _ _ t => t.isFIN
  | .vsel _ _ _ _ _ => true
  | .vclass _ _ _ _ t => t.isF
  | .vcvt _ _ _ _ fs fd => (fs != .e8m0) && (fd != .e8m0)
  | .vpack _ _ _ _ fs fd => packPair fs fd
  | .vunpk _ _ _ fs fd => unpkPair fs fd
  | .vmov _ _ _ _ => true
  | .vbcast _ _ _ _ _ => true
  | .vext _ _ _ _ _ => true
  | .vins _ _ _ _ _ _ => true
  | .vperm _ _ _ _ _ _ => true
  | .vrotDn _ _ _ _ _ _ => true
  | .vrotUp _ _ _ _ _ _ => true
  | .vslideDn _ _ _ _ _ _ => true
  | .vslideUp _ _ _ _ _ _ => true
  | .vredSum _ t _ _ _ => t.isFI
  | .vredMin _ t _ _ _ => t.isFI
  | .vredMax _ t _ _ _ => t.isFI
  | .vscanSum _ t _ _ _ => t.isFI
  | .vscanMin _ t _ _ _ => t.isFI
  | .vscanMax _ t _ _ _ => t.isFI
  | .vld _ _ _ _ _ _ => true
  | .vst _ _ _ _ _ => true
  | .vlds _ _ _ _ _ _ _ => true
  | .vsts _ _ _ _ _ _ => true
  | .vgath _ _ _ _ _ _ => true
  | .vscat _ _ _ _ _ => true
  | .vlut _ _ _ _ _ _ => true
  | .vbfx _ t _ _ _ _ => t.isI
  | .vfsh _ _ _ _ _ _ => true
  | .vpopc _ _ _ _ _ => true
  | .vclz _ _ _ _ _ => true
  | .vqnt _ t _ _ _ _ g => qPair t g
  | .vdqnt _ t _ _ _ _ g => qPair t g
  | .vmsel _ _ => true
  | .vnop _ => true
  | .vJoin _ _ => true
  | .vExit _ => true
  | .mma _ _ _ tb _ w => wTile w tb
  | .mmai _ _ _ tb _ w _ _ => wTile w tb
  | .mmax _ _ _ tb _ w _ _ => wTile w tb
  | .aclr _ _ => true
  | .aadd _ _ _ _ => true
  | .ald _ _ _ => true
  | .ast _ _ _ _ => true
  | .acvt _ _ _ _ scl sx => scl || sx == 0
  | .tld _ _ _ => true
  | .tst _ _ _ _ => true
  | .ttr _ _ _ => true
  | .trepk _ _ _ => true
  | .trepkPk _ _ _ => true
  | .mnest _ => true
  | .mwait _ => true
  | .mstat _ => true
  | .mstatClr _ => true
  | .mnop _ => true
  | .mJoin _ _ => true
  | .mExit _ => true
  | .xcopy _ _ _ => true
  | .xnestCopy _ _ _ => true
  | .xnestAcc _ _ _ => true
  | .xnestMcast _ _ _ => true
  | .xnestStrm _ _ _ => true
  | .xmcast _ _ _ => true
  | .xacc _ _ _ => true
  | .xstrm _ _ _ => true
  | .xgath _ _ _ _ => true
  | .xwait _ n => decide (n.toNat ≤ 16)
  | .xfence _ => true
  | .xnop _ => true
  | .xJoin _ _ => true
  | .xExit _ => true
  | .resultLanding _ _ => true
  | .accumulatorRead _ => true
  | .ringTimeout _ _ => true
  | .handlerEntry _ => true
  | .frozenTaskReport _ => true
  | .deferredFaultDelivery _ _ => true
  | .taskEnd _ => true
  | .launchAcceptance _ => true
  | .placement _ _ _ _ => true
  | .ageLevelRise _ _ => true
  | .preload _ => true
  | .withdrawal _ => true
  | .bindCommit _ => true
  | .lateStart _ _ => true
  | .governorWindow _ _ => true
  | .phaseBoundary _ => true
  | .phaseWatchdog _ => true
  | .cancelRelease _ => true
  | .homeAtomic _ => true
  | .barwBoundExpiry _ => true
  | .homeControllerAnswer _ _ => true
  | .storePerformed _ => true
  | .regionCount _ _ => true
  | .rearmRefire _ _ => true
  | .awaitBoundExpiry _ => true
  | .generationBump _ => true
  | .requestReplay _ _ => true
  | .sweepComplete _ => true
  | .sealComplete _ => true
  | .unsealComplete _ => true
  | .replicaPlacement _ _ _ _ => true
  | .bankMarkFailing _ _ _ => true
  | .layerFailureNoSpare _ _ _ => true
  | .recoveryPoint _ _ => true
  | .shedComplete _ _ => true
  | .patrolScrub _ _ _ => true
  | .parameterBlockRead _ => true
  | .commandStart _ => true
  | .itemPerformed _ _ => true
  | .commandComplete _ _ => true
  | .itemFailure _ _ => true
  | .errorRecordDrain _ => true
  | .nestStepStart _ => true
  | .nestStepWatchdog _ => true
  | .nestComplete _ => true
  | .preemptionChoice _ _ _ => true
  | .checkpointSettle _ => true
  | .checkpointWrite _ => true
  | .saveFaultService _ _ => true
  | .checkpointRelease _ => true
  | .hangWatchdog _ => true
  | .emergencyCopy _ _ => true
  | .restore _ => true
  | .killAndRerun _ => true
  | .budgetOverrun _ => true
  | .coreSelfCheckFailure _ => true
  | .regrow _ => true
  | .packageReset => true
  | .packageFreeze => true
  | .freeze _ => true
  | .freezeResume => true
  | .ptpEventFrame _ _ _ => true
  | .linkTrainingDone _ => true
  | .linkLoss _ => true
  | .frameReceive _ _ _ => true
  | .fabricPacketReceive _ => true
  | .fabricAck _ _ => true
  | .linkTimeout _ => true
  | .collectiveStepStart _ => true
  | .collectiveStepComplete _ => true
  | .clwaitBoundExpiry _ => true
  | .toclLaunch _ _ _ => true
  | .toclCancel _ _ _ _ => true
  | .toclWrite _ _ _ => true
  | .toclRead _ _ _ => true
  | .regionCreate _ _ _ _ _ _ _ _ => true
  | .regionDestroy _ _ _ => true
  | .regionRead _ _ _ => true
  | .counterSet _ _ _ _ _ => true
  | .sessionBind _ _ _ _ => true
  | .regRead _ _ => true
  | .regWrite _ _ _ => true
  | .groupSet _ _ _ _ _ => true
  | .ingestSet _ _ _ _ _ => true
  | .portSet _ _ _ => true
  | .ruleSet _ _ _ _ => true
  | .routeSet _ _ _ => true
  | .queueSet _ _ _ _ _ _ _ => true
  | .saveSet _ _ _ _ => true
  | .subSet _ _ _ _ _ _ _ => true
  | .trimSet _ _ => true
  | .clkSet _ => true
  | .attest _ _ => true
  | .fwStage _ _ => true
  | .fwCommit _ => true
  | .handoverReady => true
  | .handoverTimeout => true
  | .sensorSample _ _ => true
  | .holdTimerExpiry _ => true
  | .wakeRequest _ => true
  | .wakeAdmit _ => true
  | .wakeRampDone _ _ => true
  | .encodingFault _ _ => true
  | .instructionFetchFault _ _ => true
  | .parkedRecordWrite _ _ _ _ => true

end Sys2Proof
end

