-- ==== Sys2Proof/Config.lean ====
section
/-!
DEFINITION. Config.lean: what an implementation fixes. The free values (opaque, no body) stand for what the spec leaves
open; the named constants are the cfg values the model chooses (see notes/assumptions).
-/
namespace Sys2Proof

/-- Free value: whether the ML-DSA-87 signature of a record verifies under the Creron root key, or under the key that an owner key
record holds (R475, R476). -/
opaque Config.sigValid : Option FwRec → FwRec → Bool

/-- Free value: SHA3-512 over a record's header and body (R476). -/
opaque Config.recDigest : FwRec → BitVec 512

/-- Free value: how many packets beyond the first a device may have on their way to another one or in its staging (R446). -/
opaque Config.stagingPkts : Nat

/-- Free value: what a sensor shows in a µs, by kind × 65,536 + index (R469). -/
opaque Config.sensor : Nat → Nat → BitVec 64

/-- Free value: the signature ATTEST returns over a nonce and the log (R477). -/
opaque Config.attestSig : BitVec 256 → List (Nat × Nat × Nat × BitVec 512) → Nat

/-- Free value: the identity public key and its certificate in flash (R477). -/
opaque Config.identityKey : Nat → Nat

/-- Free value: digests of the boot ROM and of the configuration records measured at boot (R475). -/
opaque Config.bootDigest : Nat → BitVec 512

/-- Free value: where section 0 of a save slot shows the core region entries (R296, R413). -/
opaque Config.section0Regs : Nat

/-- Free value: the other bytes of section 0 of a save slot, whose layout the spec does not give (R413). -/
opaque Config.section0Byte : Nat → Nat → BitVec 8

/-- Free value: which cycle's bytes an overlapping copy reads (R353). -/
opaque Config.overlapLate : Nat → Bool

/-- Free value: the trim, in mV, that an island needs at a frequency in 100 MHz units (R467). -/
opaque Config.trimNeed : BitVec 8 → Nat → BitVec 16

/-- Cycles in 2^32 (the value that 0 stands for in WDOG.LIMIT, R59). -/
def Config.limitZero : Nat := 2 ^ 32

/-- What a byte of any buffer or memory that nothing has written reads as. -/
def Config.freshByte : BitVec 8 := 0

/-- FEATURES.PRESENT at reset (cfg of the spare-map record, R64): F64M, LEND and FRAME present (R10). -/
def Config.present : BitVec 3 := 7

/-- FEATURES.USABLE at reset (cfg of the spare-map and partition-policy records, R64): none masked. -/
def Config.usable : BitVec 3 := 7

/-- FEATURES.LGEN (R64). -/
def Config.lgen : BitVec 8 := 1

/-- DEPTHRESH.THRESH at reset (cfg of the partition-policy record, R91). -/
def Config.depThresh : BitVec 32 := 0

/-- LPDDR6 channels in service on each die at reset (cfg, R314). -/
def Config.lpch : BitVec 5 := 24

/-- EMBASE0 to EMBASE3 at reset (cfg, R415): the top 2 GiB blocks of LPDDR6 (R277). -/
def Config.emBase (die : Nat) : BitVec 64 := BitVec.ofNat 64 ((0x2FC + die) * 2 ^ 31)

/-- Whether the partition-policy record sets debug mode (R422). -/
def Config.debugMode : Bool := false

/-- Free value: the shed deadline of the configuration record, in ns (R313). -/
opaque Config.shedDeadline : Nat

end Sys2Proof
end

