-- ==== Sys2Proof/Decode.lean ====
section
/-!
DEFINITION. Decode.lean: the decoder of each stream's words (R65 to R86, R481), total, rejecting by name, and the
encoder, both written from the encoding tables of 02_instruction_encoding.md.
-/
namespace Sys2Proof

/-- Why a word is no instruction of its stream (R86, R88): an illegal major, a reserved major, or a reserved value in a
field or a nonzero bit where zero is required. -/
inductive DecodeErr | illegalMajor | reservedMajor | reservedField
  deriving DecidableEq, Repr, Inhabited

/-- The cause that an encoding fault raises (R86). -/
def DecodeErr.cause : DecodeErr → Cause
  | .illegalMajor => .illegalEncoding
  | .reservedMajor => .reservedOpcode
  | .reservedField => .reservedOpcode

/-- Bits [lo + n - 1 : lo] of a word. -/
def fld (w lo n : Nat) : Nat := w / 2 ^ lo % 2 ^ n

/-- The ring bits [9:6] of a full word (R71). -/
def ringOf (w : Nat) : Ring := ⟨fld w 6 1 == 1, fld w 7 1 == 1, fld w 8 1 == 1, fld w 9 1 == 1⟩

/-- The ring bits' contribution to a word (R71). -/
def Ring.enc (r : Ring) : Nat := r.wp.toNat * 2 ^ 6 + r.wn.toNat * 2 ^ 7 + r.sp.toNat * 2 ^ 8 + r.sn.toNat * 2 ^ 9

/-- Decoding of Cond codes (R74). -/
def condOf (k : Nat) : Cond :=
  match k with
  | 0 => .eq
  | 1 => .ne
  | 2 => .lt
  | 3 => .ge
  | 4 => .ltn
  | 5 => .gen
  | 6 => .any
  | _ => .none

/-- Encoding of Cond codes (R74). -/
def Cond.enc : Cond → Nat
  | .eq => 0
  | .ne => 1
  | .lt => 2
  | .ge => 3
  | .ltn => 4
  | .gen => 5
  | .any => 6
  | .none => 7

/-- Decoding of Sz codes (R73). -/
def szOf (k : Nat) : Sz :=
  match k with
  | 0 => .b
  | 1 => .h
  | 2 => .w
  | _ => .d

/-- Encoding of Sz codes (R73). -/
def Sz.enc : Sz → Nat
  | .b => 0
  | .h => 1
  | .w => 2
  | .d => 3

/-- Decoding of LSp codes (R73). -/
def lspOf (k : Nat) : Option LSp :=
  match k with
  | 0 => some .cr
  | 1 => some .xb
  | 2 => some .ofs
  | _ => none

/-- Encoding of LSp codes (R73). -/
def LSp.enc : LSp → Nat
  | .cr => 0
  | .xb => 1
  | .ofs => 2

/-- Decoding of BSp codes (R262). -/
def bspOf (k : Nat) : BSp :=
  match k with
  | 0 => .cr
  | 1 => .xb
  | 2 => .ofs
  | _ => .vm

/-- Encoding of BSp codes (R262). -/
def BSp.enc : BSp → Nat
  | .cr => 0
  | .xb => 1
  | .ofs => 2
  | .vm => 3

/-- Decoding of VSp codes (R76). -/
def vspOf (k : Nat) : Option VSp :=
  match k with
  | 0 => some .xb
  | 1 => some .ofs
  | _ => none

/-- Encoding of VSp codes (R76). -/
def VSp.enc : VSp → Nat
  | .xb => 0
  | .ofs => 1

/-- Decoding of Wd codes (R77). -/
def wdOf (k : Nat) : Option Wd :=
  match k with
  | 0 => some .w8
  | 1 => some .w16
  | 2 => some .w32
  | 3 => some .w64
  | _ => none

/-- Encoding of Wd codes (R77). -/
def Wd.enc : Wd → Nat
  | .w8 => 0
  | .w16 => 1
  | .w32 => 2
  | .w64 => 3

/-- Decoding of Scope codes (R75). -/
def scopeOf (k : Nat) : Option Scope :=
  match k with
  | 0 => some .stream
  | 1 => some .task
  | 2 => some .cluster
  | 3 => some .die
  | 4 => some .package
  | 5 => some .system
  | _ => none

/-- Encoding of Scope codes (R75). -/
def Scope.enc : Scope → Nat
  | .stream => 0
  | .task => 1
  | .cluster => 2
  | .die => 3
  | .package => 4
  | .system => 5

/-- Decoding of QGeo codes (R190). -/
def qgeoOf (k : Nat) : QGeo :=
  match k with
  | 0 => .mx
  | 1 => .s16
  | 2 => .s32
  | _ => .g32

/-- Encoding of QGeo codes (R190). -/
def QGeo.enc : QGeo → Nat
  | .mx => 0
  | .s16 => 1
  | .s32 => 2
  | .g32 => 3

/-- Decoding of IGeo codes (R214). -/
def igeoOf (k : Nat) : Option IGeo :=
  match k with
  | 0 => some .g32
  | 1 => some .g64
  | 2 => some .g128
  | _ => none

/-- Encoding of IGeo codes (R214). -/
def IGeo.enc : IGeo → Nat
  | .g32 => 0
  | .g64 => 1
  | .g128 => 2

/-- Decoding of XGeo codes (R214). -/
def xgeoOf (k : Nat) : Option XGeo :=
  match k with
  | 0 => some .mx
  | 1 => some .s16
  | 2 => some .s32
  | _ => none

/-- Encoding of XGeo codes (R214). -/
def XGeo.enc : XGeo → Nat
  | .mx => 0
  | .s16 => 1
  | .s32 => 2

/-- Decoding of Fmt codes (class FI of R77). -/
def fiOf (k : Nat) : Fmt :=
  match k with
  | 0 => .f64
  | 1 => .f32
  | 2 => .bf16
  | 3 => .f16
  | 4 => .i8
  | 5 => .i16
  | 6 => .i32
  | _ => .i64

/-- Encoding of Fmt codes (class FI of R77). -/
def Fmt.fiEnc : Fmt → Nat
  | .f64 => 0
  | .f32 => 1
  | .bf16 => 2
  | .f16 => 3
  | .i8 => 4
  | .i16 => 5
  | .i32 => 6
  | .i64 => 7
  | _ => 0

/-- Decoding of Fmt codes (class F of R77). -/
def ffOf (k : Nat) : Option Fmt :=
  match k with
  | 0 => some .f64
  | 1 => some .f32
  | 2 => some .bf16
  | 3 => some .f16
  | _ => none

/-- Encoding of Fmt codes (class F of R77). -/
def Fmt.ffEnc : Fmt → Nat
  | .f64 => 0
  | .f32 => 1
  | .bf16 => 2
  | .f16 => 3
  | _ => 0

/-- Decoding of Fmt codes (class I of R77). -/
def iiOf (k : Nat) : Fmt :=
  match k with
  | 0 => .i8
  | 1 => .i16
  | 2 => .i32
  | 3 => .i64
  | 4 => .n8
  | 5 => .n16
  | 6 => .n32
  | _ => .n64

/-- Encoding of Fmt codes (class I of R77). -/
def Fmt.iiEnc : Fmt → Nat
  | .i8 => 0
  | .i16 => 1
  | .i32 => 2
  | .i64 => 3
  | .n8 => 4
  | .n16 => 5
  | .n32 => 6
  | .n64 => 7
  | _ => 0

/-- Decoding of Fmt codes (class FIN of R77). -/
def finOf (k : Nat) : Option Fmt :=
  match k with
  | 0 => some .f64
  | 1 => some .f32
  | 2 => some .bf16
  | 3 => some .f16
  | 4 => some .i8
  | 5 => some .i16
  | 6 => some .i32
  | 7 => some .i64
  | 8 => some .n8
  | 9 => some .n16
  | 10 => some .n32
  | 11 => some .n64
  | _ => none

/-- Encoding of Fmt codes (class FIN of R77). -/
def Fmt.finEnc : Fmt → Nat
  | .f64 => 0
  | .f32 => 1
  | .bf16 => 2
  | .f16 => 3
  | .i8 => 4
  | .i16 => 5
  | .i32 => 6
  | .i64 => 7
  | .n8 => 8
  | .n16 => 9
  | .n32 => 10
  | .n64 => 11
  | _ => 0

/-- Decoding of Fmt codes (class Q of R77). -/
def qfOf (k : Nat) : Option Fmt :=
  match k with
  | 0 => some .e4m3
  | 1 => some .e5m2
  | 2 => some .e3m2
  | 3 => some .e2m3
  | 4 => some .e2m1
  | 5 => some .i8
  | 6 => some .i4
  | _ => none

/-- Encoding of Fmt codes (class Q of R77). -/
def Fmt.qfEnc : Fmt → Nat
  | .e4m3 => 0
  | .e5m2 => 1
  | .e3m2 => 2
  | .e2m3 => 3
  | .e2m1 => 4
  | .i8 => 5
  | .i4 => 6
  | _ => 0

/-- Decoding of Fmt codes (R78). -/
def fmtOf (k : Nat) : Option Fmt :=
  match k with
  | 0 => some .f64
  | 1 => some .f32
  | 2 => some .bf16
  | 3 => some .f16
  | 4 => some .e4m3
  | 5 => some .e5m2
  | 6 => some .e3m2
  | 7 => some .e2m3
  | 8 => some .e2m1
  | 9 => some .e8m0
  | 16 => some .i4
  | 17 => some .i8
  | 18 => some .i16
  | 19 => some .i32
  | 20 => some .i64
  | 24 => some .n4
  | 25 => some .n8
  | 26 => some .n16
  | 27 => some .n32
  | 28 => some .n64
  | _ => none

/-- Encoding of Fmt codes (R78). -/
def Fmt.code : Fmt → Nat
  | .f64 => 0
  | .f32 => 1
  | .bf16 => 2
  | .f16 => 3
  | .e4m3 => 4
  | .e5m2 => 5
  | .e3m2 => 6
  | .e2m3 => 7
  | .e2m1 => 8
  | .e8m0 => 9
  | .i4 => 16
  | .i8 => 17
  | .i16 => 18
  | .i32 => 19
  | .i64 => 20
  | .n4 => 24
  | .n8 => 25
  | .n16 => 26
  | .n32 => 27
  | .n64 => 28

/-- A field value outside its code table is a reserved value (R86). -/
def orRes {α : Type} (o : Option α) (k : α → Except DecodeErr Instr) : Except DecodeErr Instr :=
  match o with
  | some a => k a
  | none => .error .reservedField

/-- Bits that must be zero (R72, R86). -/
def zero (z : Nat) (k : Except DecodeErr Instr) : Except DecodeErr Instr :=
  if z = 0 then k else .error .reservedField

/-- C major 0x01: ADD, SUB, AND, OR, XOR, ANDN, ORN, SLL, SRL, SRA, ROL, ROR, SEL, MIN, MAX, MINN. -/
def decC01 (w : Nat) : Except DecodeErr Instr :=
  match fld w 28 4 with
  | 0 => .ok (.add (ringOf w) (BitVec.ofNat 6 (w / 2 ^ 10)) (BitVec.ofNat 6 (w / 2 ^ 16)) (BitVec.ofNat 6 (w / 2 ^ 22)))
  | 1 => .ok (.sub (ringOf w) (BitVec.ofNat 6 (w / 2 ^ 10)) (BitVec.ofNat 6 (w / 2 ^ 16)) (BitVec.ofNat 6 (w / 2 ^ 22)))
  | 2 => .ok (.and (ringOf w) (BitVec.ofNat 6 (w / 2 ^ 10)) (BitVec.ofNat 6 (w / 2 ^ 16)) (BitVec.ofNat 6 (w / 2 ^ 22)))
  | 3 => .ok (.or (ringOf w) (BitVec.ofNat 6 (w / 2 ^ 10)) (BitVec.ofNat 6 (w / 2 ^ 16)) (BitVec.ofNat 6 (w / 2 ^ 22)))
  | 4 => .ok (.xor (ringOf w) (BitVec.ofNat 6 (w / 2 ^ 10)) (BitVec.ofNat 6 (w / 2 ^ 16)) (BitVec.ofNat 6 (w / 2 ^ 22)))
  | 5 => .ok (.andn (ringOf w) (BitVec.ofNat 6 (w / 2 ^ 10)) (BitVec.ofNat 6 (w / 2 ^ 16)) (BitVec.ofNat 6 (w / 2 ^ 22)))
  | 6 => .ok (.orn (ringOf w) (BitVec.ofNat 6 (w / 2 ^ 10)) (BitVec.ofNat 6 (w / 2 ^ 16)) (BitVec.ofNat 6 (w / 2 ^ 22)))
  | 7 => .ok (.sll (ringOf w) (BitVec.ofNat 6 (w / 2 ^ 10)) (BitVec.ofNat 6 (w / 2 ^ 16)) (BitVec.ofNat 6 (w / 2 ^ 22)))
  | 8 => .ok (.srl (ringOf w) (BitVec.ofNat 6 (w / 2 ^ 10)) (BitVec.ofNat 6 (w / 2 ^ 16)) (BitVec.ofNat 6 (w / 2 ^ 22)))
  | 9 => .ok (.sra (ringOf w) (BitVec.ofNat 6 (w / 2 ^ 10)) (BitVec.ofNat 6 (w / 2 ^ 16)) (BitVec.ofNat 6 (w / 2 ^ 22)))
  | 10 => .ok (.rol (ringOf w) (BitVec.ofNat 6 (w / 2 ^ 10)) (BitVec.ofNat 6 (w / 2 ^ 16)) (BitVec.ofNat 6 (w / 2 ^ 22)))
  | 11 => .ok (.ror (ringOf w) (BitVec.ofNat 6 (w / 2 ^ 10)) (BitVec.ofNat 6 (w / 2 ^ 16)) (BitVec.ofNat 6 (w / 2 ^ 22)))
  | 12 => .ok (.sel (ringOf w) (BitVec.ofNat 6 (w / 2 ^ 10)) (BitVec.ofNat 6 (w / 2 ^ 16)) (BitVec.ofNat 6 (w / 2 ^ 22)))
  | 13 => .ok (.min (ringOf w) (BitVec.ofNat 6 (w / 2 ^ 10)) (BitVec.ofNat 6 (w / 2 ^ 16)) (BitVec.ofNat 6 (w / 2 ^ 22)))
  | 14 => .ok (.max (ringOf w) (BitVec.ofNat 6 (w / 2 ^ 10)) (BitVec.ofNat 6 (w / 2 ^ 16)) (BitVec.ofNat 6 (w / 2 ^ 22)))
  | 15 => .ok (.minn (ringOf w) (BitVec.ofNat 6 (w / 2 ^ 10)) (BitVec.ofNat 6 (w / 2 ^ 16)) (BitVec.ofNat 6 (w / 2 ^ 22)))
  | _ => .error .reservedField

/-- C major 0x02: MUL, MULH, MULHN, DIV, DIVN, REM, REMN, MAXN. -/
def decC02 (w : Nat) : Except DecodeErr Instr :=
  match fld w 28 4 with
  | 0 => .ok (.mul (ringOf w) (BitVec.ofNat 6 (w / 2 ^ 10)) (BitVec.ofNat 6 (w / 2 ^ 16)) (BitVec.ofNat 6 (w / 2 ^ 22)))
  | 1 => .ok (.mulh (ringOf w) (BitVec.ofNat 6 (w / 2 ^ 10)) (BitVec.ofNat 6 (w / 2 ^ 16)) (BitVec.ofNat 6 (w / 2 ^ 22)))
  | 2 => .ok (.mulhn (ringOf w) (BitVec.ofNat 6 (w / 2 ^ 10)) (BitVec.ofNat 6 (w / 2 ^ 16)) (BitVec.ofNat 6 (w / 2 ^ 22)))
  | 3 => .ok (.div (ringOf w) (BitVec.ofNat 6 (w / 2 ^ 10)) (BitVec.ofNat 6 (w / 2 ^ 16)) (BitVec.ofNat 6 (w / 2 ^ 22)))
  | 4 => .ok (.divn (ringOf w) (BitVec.ofNat 6 (w / 2 ^ 10)) (BitVec.ofNat 6 (w / 2 ^ 16)) (BitVec.ofNat 6 (w / 2 ^ 22)))
  | 5 => .ok (.rem (ringOf w) (BitVec.ofNat 6 (w / 2 ^ 10)) (BitVec.ofNat 6 (w / 2 ^ 16)) (BitVec.ofNat 6 (w / 2 ^ 22)))
  | 6 => .ok (.remn (ringOf w) (BitVec.ofNat 6 (w / 2 ^ 10)) (BitVec.ofNat 6 (w / 2 ^ 16)) (BitVec.ofNat 6 (w / 2 ^ 22)))
  | 7 => .ok (.maxn (ringOf w) (BitVec.ofNat 6 (w / 2 ^ 10)) (BitVec.ofNat 6 (w / 2 ^ 16)) (BitVec.ofNat 6 (w / 2 ^ 22)))
  | _ => .error .reservedField

/-- C major 0x03: CLZ, CTZ, POPC, BREV, BSWAP, SEXT, ZEXT. -/
def decC03 (w : Nat) : Except DecodeErr Instr :=
  match fld w 28 4 with
  | 0 => zero (fld w 22 6) <| .ok (.clz (ringOf w) (BitVec.ofNat 6 (w / 2 ^ 10)) (BitVec.ofNat 6 (w / 2 ^ 16)))
  | 1 => zero (fld w 22 6) <| .ok (.ctz (ringOf w) (BitVec.ofNat 6 (w / 2 ^ 10)) (BitVec.ofNat 6 (w / 2 ^ 16)))
  | 2 => zero (fld w 22 6) <| .ok (.popc (ringOf w) (BitVec.ofNat 6 (w / 2 ^ 10)) (BitVec.ofNat 6 (w / 2 ^ 16)))
  | 3 => zero (fld w 22 6) <| .ok (.brev (ringOf w) (BitVec.ofNat 6 (w / 2 ^ 10)) (BitVec.ofNat 6 (w / 2 ^ 16)))
  | 4 => zero (fld w 22 6) <| .ok (.bswap (ringOf w) (BitVec.ofNat 6 (w / 2 ^ 10)) (BitVec.ofNat 6 (w / 2 ^ 16)))
  | 5 => .ok (.sext (ringOf w) (BitVec.ofNat 6 (w / 2 ^ 10)) (BitVec.ofNat 6 (w / 2 ^ 16)) (BitVec.ofNat 6 (w / 2 ^ 22)))
  | 6 => .ok (.zext (ringOf w) (BitVec.ofNat 6 (w / 2 ^ 10)) (BitVec.ofNat 6 (w / 2 ^ 16)) (BitVec.ofNat 6 (w / 2 ^ 22)))
  | _ => .error .reservedField

/-- C major 0x04: ADDI. -/
def decC04 (w : Nat) : Except DecodeErr Instr :=
  .ok (.addi (ringOf w) (BitVec.ofNat 6 (w / 2 ^ 10)) (BitVec.ofNat 6 (w / 2 ^ 16)) (BitVec.ofNat 10 (w / 2 ^ 22)))

/-- C major 0x05: ANDI. -/
def decC05 (w : Nat) : Except DecodeErr Instr :=
  .ok (.andi (ringOf w) (BitVec.ofNat 6 (w / 2 ^ 10)) (BitVec.ofNat 6 (w / 2 ^ 16)) (BitVec.ofNat 10 (w / 2 ^ 22)))

/-- C major 0x06: ORI. -/
def decC06 (w : Nat) : Except DecodeErr Instr :=
  .ok (.ori (ringOf w) (BitVec.ofNat 6 (w / 2 ^ 10)) (BitVec.ofNat 6 (w / 2 ^ 16)) (BitVec.ofNat 10 (w / 2 ^ 22)))

/-- C major 0x07: XORI. -/
def decC07 (w : Nat) : Except DecodeErr Instr :=
  .ok (.xori (ringOf w) (BitVec.ofNat 6 (w / 2 ^ 10)) (BitVec.ofNat 6 (w / 2 ^ 16)) (BitVec.ofNat 10 (w / 2 ^ 22)))

/-- C major 0x08: SLLI, SRLI, SRAI, RORI. -/
def decC08 (w : Nat) : Except DecodeErr Instr :=
  match fld w 28 4 with
  | 0 => .ok (.slli (ringOf w) (BitVec.ofNat 6 (w / 2 ^ 10)) (BitVec.ofNat 6 (w / 2 ^ 16)) (BitVec.ofNat 6 (w / 2 ^ 22)))
  | 1 => .ok (.srli (ringOf w) (BitVec.ofNat 6 (w / 2 ^ 10)) (BitVec.ofNat 6 (w / 2 ^ 16)) (BitVec.ofNat 6 (w / 2 ^ 22)))
  | 2 => .ok (.srai (ringOf w) (BitVec.ofNat 6 (w / 2 ^ 10)) (BitVec.ofNat 6 (w / 2 ^ 16)) (BitVec.ofNat 6 (w / 2 ^ 22)))
  | 3 => .ok (.rori (ringOf w) (BitVec.ofNat 6 (w / 2 ^ 10)) (BitVec.ofNat 6 (w / 2 ^ 16)) (BitVec.ofNat 6 (w / 2 ^ 22)))
  | _ => .error .reservedField

/-- C major 0x09: MULI. -/
def decC09 (w : Nat) : Except DecodeErr Instr :=
  .ok (.muli (ringOf w) (BitVec.ofNat 6 (w / 2 ^ 10)) (BitVec.ofNat 6 (w / 2 ^ 16)) (BitVec.ofNat 10 (w / 2 ^ 22)))

/-- C major 0x0A: MOVI. -/
def decC0A (w : Nat) : Except DecodeErr Instr :=
  .ok (.movi (ringOf w) (BitVec.ofNat 6 (w / 2 ^ 10)) (BitVec.ofNat 16 (w / 2 ^ 16)))

/-- C major 0x0B: MOVK. -/
def decC0B (w : Nat) : Except DecodeErr Instr :=
  .ok (.movk (ringOf w) (BitVec.ofNat 6 (w / 2 ^ 10)) (BitVec.ofNat 16 (w / 2 ^ 16)))

/-- C major 0x0C: ADDPC. -/
def decC0C (w : Nat) : Except DecodeErr Instr :=
  .ok (.addpc (ringOf w) (BitVec.ofNat 6 (w / 2 ^ 10)) (BitVec.ofNat 16 (w / 2 ^ 16)))

/-- C major 0x0D: BFX. -/
def decC0D (w : Nat) : Except DecodeErr Instr :=
  match fld w 28 4 with
  | 0 => .ok (.bfx (ringOf w) (BitVec.ofNat 6 (w / 2 ^ 10)) (BitVec.ofNat 6 (w / 2 ^ 16)) (BitVec.ofNat 6 (w / 2 ^ 22)))
  | _ => .error .reservedField

/-- C major 0x0E: BFXN. -/
def decC0E (w : Nat) : Except DecodeErr Instr :=
  match fld w 28 4 with
  | 0 => .ok (.bfxn (ringOf w) (BitVec.ofNat 6 (w / 2 ^ 10)) (BitVec.ofNat 6 (w / 2 ^ 16)) (BitVec.ofNat 6 (w / 2 ^ 22)))
  | _ => .error .reservedField

/-- C major 0x0F: BFI. -/
def decC0F (w : Nat) : Except DecodeErr Instr :=
  match fld w 28 4 with
  | 0 => .ok (.bfi (ringOf w) (BitVec.ofNat 6 (w / 2 ^ 10)) (BitVec.ofNat 6 (w / 2 ^ 16)) (BitVec.ofNat 6 (w / 2 ^ 22)))
  | _ => .error .reservedField

/-- C major 0x10: FSHL, FSHR. -/
def decC10 (w : Nat) : Except DecodeErr Instr :=
  match fld w 28 4 with
  | 0 => .ok (.fshl (ringOf w) (BitVec.ofNat 6 (w / 2 ^ 10)) (BitVec.ofNat 6 (w / 2 ^ 16)) (BitVec.ofNat 6 (w / 2 ^ 22)))
  | 1 => .ok (.fshr (ringOf w) (BitVec.ofNat 6 (w / 2 ^ 10)) (BitVec.ofNat 6 (w / 2 ^ 16)) (BitVec.ofNat 6 (w / 2 ^ 22)))
  | _ => .error .reservedField

/-- C major 0x11: CMP, CMP_AND, CMP_OR. -/
def decC11 (w : Nat) : Except DecodeErr Instr :=
  match fld w 28 4 with
  | 0 => .ok (.cmp (ringOf w) (BitVec.ofNat 3 (w / 2 ^ 10)) (condOf (fld w 13 3)) (BitVec.ofNat 6 (w / 2 ^ 16)) (BitVec.ofNat 6 (w / 2 ^ 22)))
  | 1 => .ok (.cmpAnd (ringOf w) (BitVec.ofNat 3 (w / 2 ^ 10)) (condOf (fld w 13 3)) (BitVec.ofNat 6 (w / 2 ^ 16)) (BitVec.ofNat 6 (w / 2 ^ 22)))
  | 2 => .ok (.cmpOr (ringOf w) (BitVec.ofNat 3 (w / 2 ^ 10)) (condOf (fld w 13 3)) (BitVec.ofNat 6 (w / 2 ^ 16)) (BitVec.ofNat 6 (w / 2 ^ 22)))
  | _ => .error .reservedField

/-- C major 0x12: CMPI. -/
def decC12 (w : Nat) : Except DecodeErr Instr :=
  .ok (.cmpi (ringOf w) (BitVec.ofNat 3 (w / 2 ^ 10)) (condOf (fld w 13 3)) (BitVec.ofNat 6 (w / 2 ^ 16)) (BitVec.ofNat 10 (w / 2 ^ 22)))

/-- C major 0x13: PAND, POR, PXOR, PNOT, PMOV. -/
def decC13 (w : Nat) : Except DecodeErr Instr :=
  match fld w 28 4 with
  | 0 => zero (fld w 13 3) <| zero (fld w 22 6) <| .ok (.pand (ringOf w) (BitVec.ofNat 3 (w / 2 ^ 10)) (BitVec.ofNat 3 (w / 2 ^ 16)) (BitVec.ofNat 3 (w / 2 ^ 19)))
  | 1 => zero (fld w 13 3) <| zero (fld w 22 6) <| .ok (.por (ringOf w) (BitVec.ofNat 3 (w / 2 ^ 10)) (BitVec.ofNat 3 (w / 2 ^ 16)) (BitVec.ofNat 3 (w / 2 ^ 19)))
  | 2 => zero (fld w 13 3) <| zero (fld w 22 6) <| .ok (.pxor (ringOf w) (BitVec.ofNat 3 (w / 2 ^ 10)) (BitVec.ofNat 3 (w / 2 ^ 16)) (BitVec.ofNat 3 (w / 2 ^ 19)))
  | 3 => zero (fld w 13 3) <| zero (fld w 19 9) <| .ok (.pnot (ringOf w) (BitVec.ofNat 3 (w / 2 ^ 10)) (BitVec.ofNat 3 (w / 2 ^ 16)))
  | 4 => zero (fld w 13 3) <| zero (fld w 19 9) <| .ok (.pmov (ringOf w) (BitVec.ofNat 3 (w / 2 ^ 10)) (BitVec.ofNat 3 (w / 2 ^ 16)))
  | _ => .error .reservedField

/-- C major 0x14: BR. -/
def decC14 (w : Nat) : Except DecodeErr Instr :=
  .ok (.br (ringOf w) (BitVec.ofNat 3 (w / 2 ^ 10)) (fld w 13 1 == 1) (BitVec.ofNat 18 (w / 2 ^ 14)))

/-- C major 0x15: JMP. -/
def decC15 (w : Nat) : Except DecodeErr Instr :=
  .ok (.jmp (ringOf w) (BitVec.ofNat 22 (w / 2 ^ 10)))

/-- C major 0x16: CALL. -/
def decC16 (w : Nat) : Except DecodeErr Instr :=
  .ok (.call (ringOf w) (BitVec.ofNat 22 (w / 2 ^ 10)))

/-- C major 0x17: JR, JALR, RET. -/
def decC17 (w : Nat) : Except DecodeErr Instr :=
  match fld w 28 4 with
  | 0 => zero (fld w 10 6) <| zero (fld w 22 6) <| .ok (.jr (ringOf w) (BitVec.ofNat 6 (w / 2 ^ 16)))
  | 1 => zero (fld w 22 6) <| .ok (.jalr (ringOf w) (BitVec.ofNat 6 (w / 2 ^ 10)) (BitVec.ofNat 6 (w / 2 ^ 16)))
  | 2 => zero (fld w 10 18) <| .ok (.ret (ringOf w))
  | _ => .error .reservedField

/-- C major 0x18: LOOP. -/
def decC18 (w : Nat) : Except DecodeErr Instr :=
  .ok (.loop (ringOf w) (BitVec.ofNat 6 (w / 2 ^ 10)) (BitVec.ofNat 16 (w / 2 ^ 16)))

/-- C major 0x19: NOP, SKIP, JOIN, EXIT. -/
def decC19 (w : Nat) : Except DecodeErr Instr :=
  match fld w 28 4 with
  | 0 => zero (fld w 10 18) <| .ok (.nop (ringOf w))
  | 1 => zero (fld w 14 2) <| zero (fld w 16 6) <| .ok (.skip (ringOf w) (BitVec.ofNat 3 (w / 2 ^ 10)) (fld w 13 1 == 1) (BitVec.ofNat 6 (w / 2 ^ 22)))
  | 2 => zero (fld w 10 12) <| .ok (.join (ringOf w) (BitVec.ofNat 6 (w / 2 ^ 22)))
  | 3 => zero (fld w 10 18) <| .ok (.exit (ringOf w))
  | _ => .error .reservedField

/-- C major 0x1A: LD, LD_VM. -/
def decC1A (w : Nat) : Except DecodeErr Instr :=
  match fld w 24 2 with
  | 3 => .ok (.ldVm (ringOf w) (BitVec.ofNat 6 (w / 2 ^ 10)) (BitVec.ofNat 6 (w / 2 ^ 16)) (szOf (fld w 22 2)) (BitVec.ofNat 6 (w / 2 ^ 26)))
  | _ => orRes (lspOf (fld w 24 2)) fun sp => .ok (.ld (ringOf w) (BitVec.ofNat 6 (w / 2 ^ 10)) (BitVec.ofNat 6 (w / 2 ^ 16)) (szOf (fld w 22 2)) sp (BitVec.ofNat 6 (w / 2 ^ 26)))

/-- C major 0x1B: ST, ST_VM. -/
def decC1B (w : Nat) : Except DecodeErr Instr :=
  match fld w 24 2 with
  | 3 => .ok (.stVm (ringOf w) (BitVec.ofNat 6 (w / 2 ^ 10)) (BitVec.ofNat 6 (w / 2 ^ 16)) (szOf (fld w 22 2)) (BitVec.ofNat 6 (w / 2 ^ 26)))
  | _ => orRes (lspOf (fld w 24 2)) fun sp => .ok (.st (ringOf w) (BitVec.ofNat 6 (w / 2 ^ 10)) (BitVec.ofNat 6 (w / 2 ^ 16)) (szOf (fld w 22 2)) sp (BitVec.ofNat 6 (w / 2 ^ 26)))

/-- C major 0x1C: LDX, LDX_VM. -/
def decC1C (w : Nat) : Except DecodeErr Instr :=
  match fld w 30 2 with
  | 3 => .ok (.ldxVm (ringOf w) (BitVec.ofNat 6 (w / 2 ^ 10)) (BitVec.ofNat 6 (w / 2 ^ 16)) (BitVec.ofNat 6 (w / 2 ^ 22)) (szOf (fld w 28 2)))
  | _ => orRes (lspOf (fld w 30 2)) fun sp => .ok (.ldx (ringOf w) (BitVec.ofNat 6 (w / 2 ^ 10)) (BitVec.ofNat 6 (w / 2 ^ 16)) (BitVec.ofNat 6 (w / 2 ^ 22)) (szOf (fld w 28 2)) sp)

/-- C major 0x1D: STX, STX_VM. -/
def decC1D (w : Nat) : Except DecodeErr Instr :=
  match fld w 30 2 with
  | 3 => .ok (.stxVm (ringOf w) (BitVec.ofNat 6 (w / 2 ^ 10)) (BitVec.ofNat 6 (w / 2 ^ 16)) (BitVec.ofNat 6 (w / 2 ^ 22)) (szOf (fld w 28 2)))
  | _ => orRes (lspOf (fld w 30 2)) fun sp => .ok (.stx (ringOf w) (BitVec.ofNat 6 (w / 2 ^ 10)) (BitVec.ofNat 6 (w / 2 ^ 16)) (BitVec.ofNat 6 (w / 2 ^ 22)) (szOf (fld w 28 2)) sp)

/-- C major 0x1E: PFT, PFT_VM. -/
def decC1E (w : Nat) : Except DecodeErr Instr :=
  match fld w 24 2 with
  | 3 => zero (fld w 10 6) <| .ok (.pftVm (ringOf w) (BitVec.ofNat 6 (w / 2 ^ 16)) (szOf (fld w 22 2)) (BitVec.ofNat 6 (w / 2 ^ 26)))
  | _ => zero (fld w 10 6) <| orRes (lspOf (fld w 24 2)) fun sp => .ok (.pft (ringOf w) (BitVec.ofNat 6 (w / 2 ^ 16)) (szOf (fld w 22 2)) sp (BitVec.ofNat 6 (w / 2 ^ 26)))

/-- C major 0x1F: AMO_ADD, AMO_AND, AMO_OR, AMO_XOR, AMO_MIN, AMO_MAX, AMO_MINN, AMO_MAXN, AMO_SWAP. -/
def decC1F (w : Nat) : Except DecodeErr Instr :=
  match fld w 28 4 with
  | 0 => .ok (.amoAdd (ringOf w) (BitVec.ofNat 6 (w / 2 ^ 10)) (BitVec.ofNat 6 (w / 2 ^ 16)) (BitVec.ofNat 6 (w / 2 ^ 22)))
  | 1 => .ok (.amoAnd (ringOf w) (BitVec.ofNat 6 (w / 2 ^ 10)) (BitVec.ofNat 6 (w / 2 ^ 16)) (BitVec.ofNat 6 (w / 2 ^ 22)))
  | 2 => .ok (.amoOr (ringOf w) (BitVec.ofNat 6 (w / 2 ^ 10)) (BitVec.ofNat 6 (w / 2 ^ 16)) (BitVec.ofNat 6 (w / 2 ^ 22)))
  | 3 => .ok (.amoXor (ringOf w) (BitVec.ofNat 6 (w / 2 ^ 10)) (BitVec.ofNat 6 (w / 2 ^ 16)) (BitVec.ofNat 6 (w / 2 ^ 22)))
  | 4 => .ok (.amoMin (ringOf w) (BitVec.ofNat 6 (w / 2 ^ 10)) (BitVec.ofNat 6 (w / 2 ^ 16)) (BitVec.ofNat 6 (w / 2 ^ 22)))
  | 5 => .ok (.amoMax (ringOf w) (BitVec.ofNat 6 (w / 2 ^ 10)) (BitVec.ofNat 6 (w / 2 ^ 16)) (BitVec.ofNat 6 (w / 2 ^ 22)))
  | 6 => .ok (.amoMinn (ringOf w) (BitVec.ofNat 6 (w / 2 ^ 10)) (BitVec.ofNat 6 (w / 2 ^ 16)) (BitVec.ofNat 6 (w / 2 ^ 22)))
  | 7 => .ok (.amoMaxn (ringOf w) (BitVec.ofNat 6 (w / 2 ^ 10)) (BitVec.ofNat 6 (w / 2 ^ 16)) (BitVec.ofNat 6 (w / 2 ^ 22)))
  | 8 => .ok (.amoSwap (ringOf w) (BitVec.ofNat 6 (w / 2 ^ 10)) (BitVec.ofNat 6 (w / 2 ^ 16)) (BitVec.ofNat 6 (w / 2 ^ 22)))
  | _ => .error .reservedField

/-- C major 0x20: CAS. -/
def decC20 (w : Nat) : Except DecodeErr Instr :=
  match fld w 28 4 with
  | 0 => .ok (.cas (ringOf w) (BitVec.ofNat 6 (w / 2 ^ 10)) (BitVec.ofNat 6 (w / 2 ^ 16)) (BitVec.ofNat 6 (w / 2 ^ 22)))
  | _ => .error .reservedField

/-- C major 0x21: ARM, ARRV, AWAIT. -/
def decC21 (w : Nat) : Except DecodeErr Instr :=
  match fld w 28 4 with
  | 0 => .ok (.arm (ringOf w) (BitVec.ofNat 6 (w / 2 ^ 10)) (BitVec.ofNat 6 (w / 2 ^ 16)) (BitVec.ofNat 6 (w / 2 ^ 22)))
  | 1 => .ok (.arrv (ringOf w) (BitVec.ofNat 6 (w / 2 ^ 10)) (BitVec.ofNat 6 (w / 2 ^ 16)) (BitVec.ofNat 6 (w / 2 ^ 22)))
  | 2 => zero (fld w 13 3) <| .ok (.await (ringOf w) (BitVec.ofNat 3 (w / 2 ^ 10)) (BitVec.ofNat 6 (w / 2 ^ 16)) (BitVec.ofNat 6 (w / 2 ^ 22)))
  | _ => .error .reservedField

/-- C major 0x22: BARI, BARA, BARW. -/
def decC22 (w : Nat) : Except DecodeErr Instr :=
  match fld w 28 4 with
  | 0 => zero (fld w 12 4) <| .ok (.bari (ringOf w) (bspOf (fld w 10 2)) (BitVec.ofNat 6 (w / 2 ^ 16)) (BitVec.ofNat 6 (w / 2 ^ 22)))
  | 1 => zero (fld w 12 4) <| zero (fld w 27 1) <| .ok (.bara (ringOf w) (bspOf (fld w 10 2)) (BitVec.ofNat 6 (w / 2 ^ 16)) (BitVec.ofNat 4 (w / 2 ^ 22)) (fld w 26 1 == 1))
  | 2 => zero (fld w 13 3) <| .ok (.barw (ringOf w) (BitVec.ofNat 3 (w / 2 ^ 10)) (BitVec.ofNat 6 (w / 2 ^ 16)) (BitVec.ofNat 6 (w / 2 ^ 22)))
  | _ => .error .reservedField

/-- C major 0x23: SEAL, UNSEAL. -/
def decC23 (w : Nat) : Except DecodeErr Instr :=
  match fld w 28 4 with
  | 0 => zero (fld w 10 6) <| zero (fld w 22 6) <| .ok (.seal (ringOf w) (BitVec.ofNat 6 (w / 2 ^ 16)))
  | 1 => zero (fld w 10 6) <| zero (fld w 22 6) <| .ok (.unseal (ringOf w) (BitVec.ofNat 6 (w / 2 ^ 16)))
  | _ => .error .reservedField

/-- C major 0x24: FENCE. -/
def decC24 (w : Nat) : Except DecodeErr Instr :=
  zero (fld w 10 18) <| orRes (scopeOf (fld w 28 4)) fun s => .ok (.fence (ringOf w) s)

/-- C major 0x25: CSRR, CSRW, CSRS, CSRC, TIME. -/
def decC25 (w : Nat) : Except DecodeErr Instr :=
  match fld w 16 4 with
  | 0 => zero (fld w 20 2) <| .ok (.csrr (ringOf w) (BitVec.ofNat 6 (w / 2 ^ 10)) (BitVec.ofNat 10 (w / 2 ^ 22)))
  | 1 => zero (fld w 20 2) <| .ok (.csrw (ringOf w) (BitVec.ofNat 6 (w / 2 ^ 10)) (BitVec.ofNat 10 (w / 2 ^ 22)))
  | 2 => zero (fld w 20 2) <| .ok (.csrs (ringOf w) (BitVec.ofNat 6 (w / 2 ^ 10)) (BitVec.ofNat 10 (w / 2 ^ 22)))
  | 3 => zero (fld w 20 2) <| .ok (.csrc (ringOf w) (BitVec.ofNat 6 (w / 2 ^ 10)) (BitVec.ofNat 10 (w / 2 ^ 22)))
  | 4 => zero (fld w 20 12) <| .ok (.time (ringOf w) (BitVec.ofNat 6 (w / 2 ^ 10)))
  | _ => .error .reservedField

/-- C major 0x26: VIEW. -/
def decC26 (w : Nat) : Except DecodeErr Instr :=
  match fld w 28 4 with
  | 0 => zero (fld w 22 6) <| .ok (.view (ringOf w) (BitVec.ofNat 6 (w / 2 ^ 10)) (BitVec.ofNat 6 (w / 2 ^ 16)))
  | _ => .error .reservedField

/-- C major 0x27: TDESC. -/
def decC27 (w : Nat) : Except DecodeErr Instr :=
  match fld w 28 4 with
  | 0 => zero (fld w 15 1) <| .ok (.tdesc (ringOf w) (BitVec.ofNat 5 (w / 2 ^ 10)) (BitVec.ofNat 6 (w / 2 ^ 16)) (BitVec.ofNat 6 (w / 2 ^ 22)))
  | _ => .error .reservedField

/-- C major 0x28: TRAP, ERET. -/
def decC28 (w : Nat) : Except DecodeErr Instr :=
  match fld w 28 4 with
  | 0 => zero (fld w 10 12) <| .ok (.trap (ringOf w) (BitVec.ofNat 6 (w / 2 ^ 22)))
  | 1 => zero (fld w 10 18) <| .ok (.eret (ringOf w))
  | _ => .error .reservedField

/-- C major 0x29: TOKEN, TWAIT. -/
def decC29 (w : Nat) : Except DecodeErr Instr :=
  match fld w 28 4 with
  | 0 => zero (fld w 11 5) <| zero (fld w 16 6) <| zero (fld w 26 2) <| .ok (.token (ringOf w) (fld w 10 1 == 1) (BitVec.ofNat 4 (w / 2 ^ 22)))
  | 1 => zero (fld w 11 5) <| zero (fld w 16 6) <| zero (fld w 26 2) <| .ok (.twait (ringOf w) (fld w 10 1 == 1) (BitVec.ofNat 4 (w / 2 ^ 22)))
  | _ => .error .reservedField

/-- C major 0x2A: LAUNCH, LAUNCH_CR. -/
def decC2A (w : Nat) : Except DecodeErr Instr :=
  match fld w 28 4 with
  | 0 => .ok (.launch (ringOf w) (BitVec.ofNat 6 (w / 2 ^ 10)) (BitVec.ofNat 6 (w / 2 ^ 16)) (BitVec.ofNat 6 (w / 2 ^ 22)))
  | 1 => .ok (.launchCr (ringOf w) (BitVec.ofNat 6 (w / 2 ^ 10)) (BitVec.ofNat 6 (w / 2 ^ 16)) (BitVec.ofNat 6 (w / 2 ^ 22)))
  | _ => .error .reservedField

/-- C major 0x2B: CANCEL_TASK, CANCEL_LAUNCH, CANCEL_GRAPH, CANCEL_PHASE, CANCEL_JOB. -/
def decC2B (w : Nat) : Except DecodeErr Instr :=
  match fld w 28 4 with
  | 0 => .ok (.cancelTask (ringOf w) (BitVec.ofNat 6 (w / 2 ^ 10)) (BitVec.ofNat 6 (w / 2 ^ 16)) (BitVec.ofNat 6 (w / 2 ^ 22)))
  | 1 => zero (fld w 22 6) <| .ok (.cancelLaunch (ringOf w) (BitVec.ofNat 6 (w / 2 ^ 10)) (BitVec.ofNat 6 (w / 2 ^ 16)))
  | 2 => zero (fld w 22 6) <| .ok (.cancelGraph (ringOf w) (BitVec.ofNat 6 (w / 2 ^ 10)) (BitVec.ofNat 6 (w / 2 ^ 16)))
  | 3 => zero (fld w 22 6) <| .ok (.cancelPhase (ringOf w) (BitVec.ofNat 6 (w / 2 ^ 10)) (BitVec.ofNat 6 (w / 2 ^ 16)))
  | 4 => zero (fld w 22 6) <| .ok (.cancelJob (ringOf w) (BitVec.ofNat 6 (w / 2 ^ 10)) (BitVec.ofNat 6 (w / 2 ^ 16)))
  | _ => .error .reservedField

/-- C major 0x2C: PHASE. -/
def decC2C (w : Nat) : Except DecodeErr Instr :=
  match fld w 28 4 with
  | 0 => zero (fld w 16 12) <| .ok (.phase (ringOf w) (BitVec.ofNat 6 (w / 2 ^ 10)))
  | _ => .error .reservedField

/-- C major 0x2D: CKPT, ESTIM. -/
def decC2D (w : Nat) : Except DecodeErr Instr :=
  match fld w 28 4 with
  | 0 => zero (fld w 16 12) <| .ok (.ckpt (ringOf w) (BitVec.ofNat 6 (w / 2 ^ 10)))
  | 1 => zero (fld w 10 6) <| zero (fld w 22 6) <| .ok (.estim (ringOf w) (BitVec.ofNat 6 (w / 2 ^ 16)))
  | _ => .error .reservedField

/-- C major 0x2E: CLSTEP, CLWAIT. -/
def decC2E (w : Nat) : Except DecodeErr Instr :=
  match fld w 28 4 with
  | 0 => .ok (.clstep (ringOf w) (BitVec.ofNat 6 (w / 2 ^ 10)) (BitVec.ofNat 6 (w / 2 ^ 16)) (BitVec.ofNat 6 (w / 2 ^ 22)))
  | 1 => zero (fld w 13 3) <| .ok (.clwait (ringOf w) (BitVec.ofNat 3 (w / 2 ^ 10)) (BitVec.ofNat 6 (w / 2 ^ 16)) (BitVec.ofNat 6 (w / 2 ^ 22)))
  | _ => .error .reservedField

/-- C major 0x2F: MULW. -/
def decC2F (w : Nat) : Except DecodeErr Instr :=
  match fld w 28 4 with
  | 0 => .ok (.mulw (ringOf w) (BitVec.ofNat 6 (w / 2 ^ 10)) (BitVec.ofNat 6 (w / 2 ^ 16)) (BitVec.ofNat 6 (w / 2 ^ 22)))
  | _ => .error .reservedField

/-- The C stream's map of majors (R75); major 0x3E is taken apart before this map is reached (R65, R69). -/
def decodeC (w : Nat) : Except DecodeErr Instr :=
  match fld w 0 6 with
  | 1 => decC01 w
  | 2 => decC02 w
  | 3 => decC03 w
  | 4 => decC04 w
  | 5 => decC05 w
  | 6 => decC06 w
  | 7 => decC07 w
  | 8 => decC08 w
  | 9 => decC09 w
  | 10 => decC0A w
  | 11 => decC0B w
  | 12 => decC0C w
  | 13 => decC0D w
  | 14 => decC0E w
  | 15 => decC0F w
  | 16 => decC10 w
  | 17 => decC11 w
  | 18 => decC12 w
  | 19 => decC13 w
  | 20 => decC14 w
  | 21 => decC15 w
  | 22 => decC16 w
  | 23 => decC17 w
  | 24 => decC18 w
  | 25 => decC19 w
  | 26 => decC1A w
  | 27 => decC1B w
  | 28 => decC1C w
  | 29 => decC1D w
  | 30 => decC1E w
  | 31 => decC1F w
  | 32 => decC20 w
  | 33 => decC21 w
  | 34 => decC22 w
  | 35 => decC23 w
  | 36 => decC24 w
  | 37 => decC25 w
  | 38 => decC26 w
  | 39 => decC27 w
  | 40 => decC28 w
  | 41 => decC29 w
  | 42 => decC2A w
  | 43 => decC2B w
  | 44 => decC2C w
  | 45 => decC2D w
  | 46 => decC2E w
  | 47 => decC2F w
  | 0 => .error .illegalMajor
  | 63 => .error .illegalMajor
  | 62 => .error .illegalMajor
  | _ => .error .reservedMajor

/-- V major 0x01: VADD. -/
def decV01 (w : Nat) : Except DecodeErr Instr :=
  .ok (.vadd (ringOf w) (fiOf (fld w 28 3)) (fld w 31 1 == 1) (BitVec.ofNat 6 (w / 2 ^ 10)) (BitVec.ofNat 6 (w / 2 ^ 16)) (BitVec.ofNat 6 (w / 2 ^ 22)))

/-- V major 0x02: VSUB. -/
def decV02 (w : Nat) : Except DecodeErr Instr :=
  .ok (.vsub (ringOf w) (fiOf (fld w 28 3)) (fld w 31 1 == 1) (BitVec.ofNat 6 (w / 2 ^ 10)) (BitVec.ofNat 6 (w / 2 ^ 16)) (BitVec.ofNat 6 (w / 2 ^ 22)))

/-- V major 0x03: VMUL. -/
def decV03 (w : Nat) : Except DecodeErr Instr :=
  .ok (.vmul (ringOf w) (fiOf (fld w 28 3)) (fld w 31 1 == 1) (BitVec.ofNat 6 (w / 2 ^ 10)) (BitVec.ofNat 6 (w / 2 ^ 16)) (BitVec.ofNat 6 (w / 2 ^ 22)))

/-- V major 0x04: VMIN. -/
def decV04 (w : Nat) : Except DecodeErr Instr :=
  .ok (.vmin (ringOf w) (fiOf (fld w 28 3)) (fld w 31 1 == 1) (BitVec.ofNat 6 (w / 2 ^ 10)) (BitVec.ofNat 6 (w / 2 ^ 16)) (BitVec.ofNat 6 (w / 2 ^ 22)))

/-- V major 0x05: VMAX. -/
def decV05 (w : Nat) : Except DecodeErr Instr :=
  .ok (.vmax (ringOf w) (fiOf (fld w 28 3)) (fld w 31 1 == 1) (BitVec.ofNat 6 (w / 2 ^ 10)) (BitVec.ofNat 6 (w / 2 ^ 16)) (BitVec.ofNat 6 (w / 2 ^ 22)))

/-- V major 0x06: VDIV. -/
def decV06 (w : Nat) : Except DecodeErr Instr :=
  orRes (ffOf (fld w 28 3)) fun t => .ok (.vdiv (ringOf w) t (fld w 31 1 == 1) (BitVec.ofNat 6 (w / 2 ^ 10)) (BitVec.ofNat 6 (w / 2 ^ 16)) (BitVec.ofNat 6 (w / 2 ^ 22)))

/-- V major 0x07: VFMA_F32_F64. -/
def decV07 (w : Nat) : Except DecodeErr Instr :=
  .ok (.vfmaF32F64 (ringOf w) (BitVec.ofNat 5 (w / 2 ^ 10)) (fld w 15 1 == 1) (BitVec.ofNat 5 (w / 2 ^ 16)) (BitVec.ofNat 5 (w / 2 ^ 21)) (BitVec.ofNat 5 (w / 2 ^ 26)) (fld w 31 1 == 1))

/-- V major 0x08: VFMA_BF16_F16. -/
def decV08 (w : Nat) : Except DecodeErr Instr :=
  .ok (.vfmaBf16F16 (ringOf w) (BitVec.ofNat 5 (w / 2 ^ 10)) (fld w 15 1 == 1) (BitVec.ofNat 5 (w / 2 ^ 16)) (BitVec.ofNat 5 (w / 2 ^ 21)) (BitVec.ofNat 5 (w / 2 ^ 26)) (fld w 31 1 == 1))

/-- V major 0x09: VFMS_F32_F64. -/
def decV09 (w : Nat) : Except DecodeErr Instr :=
  .ok (.vfmsF32F64 (ringOf w) (BitVec.ofNat 5 (w / 2 ^ 10)) (fld w 15 1 == 1) (BitVec.ofNat 5 (w / 2 ^ 16)) (BitVec.ofNat 5 (w / 2 ^ 21)) (BitVec.ofNat 5 (w / 2 ^ 26)) (fld w 31 1 == 1))

/-- V major 0x0A: VFMS_BF16_F16. -/
def decV0A (w : Nat) : Except DecodeErr Instr :=
  .ok (.vfmsBf16F16 (ringOf w) (BitVec.ofNat 5 (w / 2 ^ 10)) (fld w 15 1 == 1) (BitVec.ofNat 5 (w / 2 ^ 16)) (BitVec.ofNat 5 (w / 2 ^ 21)) (BitVec.ofNat 5 (w / 2 ^ 26)) (fld w 31 1 == 1))

/-- V major 0x0B: VFNMA_F32_F64. -/
def decV0B (w : Nat) : Except DecodeErr Instr :=
  .ok (.vfnmaF32F64 (ringOf w) (BitVec.ofNat 5 (w / 2 ^ 10)) (fld w 15 1 == 1) (BitVec.ofNat 5 (w / 2 ^ 16)) (BitVec.ofNat 5 (w / 2 ^ 21)) (BitVec.ofNat 5 (w / 2 ^ 26)) (fld w 31 1 == 1))

/-- V major 0x0C: VFNMA_BF16_F16. -/
def decV0C (w : Nat) : Except DecodeErr Instr :=
  .ok (.vfnmaBf16F16 (ringOf w) (BitVec.ofNat 5 (w / 2 ^ 10)) (fld w 15 1 == 1) (BitVec.ofNat 5 (w / 2 ^ 16)) (BitVec.ofNat 5 (w / 2 ^ 21)) (BitVec.ofNat 5 (w / 2 ^ 26)) (fld w 31 1 == 1))

/-- V major 0x0D: VABS, VNEG, VSQRT, VRCP, VRSQ, VEXP2, VLOG2. -/
def decV0D (w : Nat) : Except DecodeErr Instr :=
  match fld w 22 6 with
  | 0 => orRes (ffOf (fld w 28 3)) fun t => .ok (.vabs (ringOf w) t (fld w 31 1 == 1) (BitVec.ofNat 6 (w / 2 ^ 10)) (BitVec.ofNat 6 (w / 2 ^ 16)))
  | 1 => orRes (ffOf (fld w 28 3)) fun t => .ok (.vneg (ringOf w) t (fld w 31 1 == 1) (BitVec.ofNat 6 (w / 2 ^ 10)) (BitVec.ofNat 6 (w / 2 ^ 16)))
  | 2 => orRes (ffOf (fld w 28 3)) fun t => .ok (.vsqrt (ringOf w) t (fld w 31 1 == 1) (BitVec.ofNat 6 (w / 2 ^ 10)) (BitVec.ofNat 6 (w / 2 ^ 16)))
  | 3 => orRes (ffOf (fld w 28 3)) fun t => .ok (.vrcp (ringOf w) t (fld w 31 1 == 1) (BitVec.ofNat 6 (w / 2 ^ 10)) (BitVec.ofNat 6 (w / 2 ^ 16)))
  | 4 => orRes (ffOf (fld w 28 3)) fun t => .ok (.vrsq (ringOf w) t (fld w 31 1 == 1) (BitVec.ofNat 6 (w / 2 ^ 10)) (BitVec.ofNat 6 (w / 2 ^ 16)))
  | 5 => orRes (ffOf (fld w 28 3)) fun t => .ok (.vexp2 (ringOf w) t (fld w 31 1 == 1) (BitVec.ofNat 6 (w / 2 ^ 10)) (BitVec.ofNat 6 (w / 2 ^ 16)))
  | 6 => orRes (ffOf (fld w 28 3)) fun t => .ok (.vlog2 (ringOf w) t (fld w 31 1 == 1) (BitVec.ofNat 6 (w / 2 ^ 10)) (BitVec.ofNat 6 (w / 2 ^ 16)))
  | _ => .error .reservedField

/-- V major 0x0E: VSCALE. -/
def decV0E (w : Nat) : Except DecodeErr Instr :=
  orRes (ffOf (fld w 28 3)) fun t => .ok (.vscale (ringOf w) t (fld w 31 1 == 1) (BitVec.ofNat 6 (w / 2 ^ 10)) (BitVec.ofNat 6 (w / 2 ^ 16)) (BitVec.ofNat 6 (w / 2 ^ 22)))

/-- V major 0x0F: VAND. -/
def decV0F (w : Nat) : Except DecodeErr Instr :=
  zero (fld w 28 3) <| .ok (.vand (ringOf w) (fld w 31 1 == 1) (BitVec.ofNat 6 (w / 2 ^ 10)) (BitVec.ofNat 6 (w / 2 ^ 16)) (BitVec.ofNat 6 (w / 2 ^ 22)))

/-- V major 0x10: VOR. -/
def decV10 (w : Nat) : Except DecodeErr Instr :=
  zero (fld w 28 3) <| .ok (.vor (ringOf w) (fld w 31 1 == 1) (BitVec.ofNat 6 (w / 2 ^ 10)) (BitVec.ofNat 6 (w / 2 ^ 16)) (BitVec.ofNat 6 (w / 2 ^ 22)))

/-- V major 0x11: VXOR. -/
def decV11 (w : Nat) : Except DecodeErr Instr :=
  zero (fld w 28 3) <| .ok (.vxor (ringOf w) (fld w 31 1 == 1) (BitVec.ofNat 6 (w / 2 ^ 10)) (BitVec.ofNat 6 (w / 2 ^ 16)) (BitVec.ofNat 6 (w / 2 ^ 22)))

/-- V major 0x12: VSLL. -/
def decV12 (w : Nat) : Except DecodeErr Instr :=
  orRes (wdOf (fld w 28 3)) fun t => .ok (.vsll (ringOf w) t (fld w 31 1 == 1) (BitVec.ofNat 6 (w / 2 ^ 10)) (BitVec.ofNat 6 (w / 2 ^ 16)) (BitVec.ofNat 6 (w / 2 ^ 22)))

/-- V major 0x13: VSRL. -/
def decV13 (w : Nat) : Except DecodeErr Instr :=
  orRes (wdOf (fld w 28 3)) fun t => .ok (.vsrl (ringOf w) t (fld w 31 1 == 1) (BitVec.ofNat 6 (w / 2 ^ 10)) (BitVec.ofNat 6 (w / 2 ^ 16)) (BitVec.ofNat 6 (w / 2 ^ 22)))

/-- V major 0x14: VSRA. -/
def decV14 (w : Nat) : Except DecodeErr Instr :=
  orRes (wdOf (fld w 28 3)) fun t => .ok (.vsra (ringOf w) t (fld w 31 1 == 1) (BitVec.ofNat 6 (w / 2 ^ 10)) (BitVec.ofNat 6 (w / 2 ^ 16)) (BitVec.ofNat 6 (w / 2 ^ 22)))

/-- V major 0x15: VMULH. -/
def decV15 (w : Nat) : Except DecodeErr Instr :=
  .ok (.vmulh (ringOf w) (iiOf (fld w 28 3)) (fld w 31 1 == 1) (BitVec.ofNat 6 (w / 2 ^ 10)) (BitVec.ofNat 6 (w / 2 ^ 16)) (BitVec.ofNat 6 (w / 2 ^ 22)))

/-- V major 0x16: VADDS. -/
def decV16 (w : Nat) : Except DecodeErr Instr :=
  .ok (.vadds (ringOf w) (iiOf (fld w 28 3)) (fld w 31 1 == 1) (BitVec.ofNat 6 (w / 2 ^ 10)) (BitVec.ofNat 6 (w / 2 ^ 16)) (BitVec.ofNat 6 (w / 2 ^ 22)))

/-- V major 0x17: VSUBS. -/
def decV17 (w : Nat) : Except DecodeErr Instr :=
  .ok (.vsubs (ringOf w) (iiOf (fld w 28 3)) (fld w 31 1 == 1) (BitVec.ofNat 6 (w / 2 ^ 10)) (BitVec.ofNat 6 (w / 2 ^ 16)) (BitVec.ofNat 6 (w / 2 ^ 22)))

/-- V major 0x18: VCMP. -/
def decV18 (w : Nat) : Except DecodeErr Instr :=
  orRes (finOf (fld w 28 4)) fun t => .ok (.vcmp (ringOf w) (BitVec.ofNat 3 (w / 2 ^ 10)) (condOf (fld w 13 3)) (BitVec.ofNat 6 (w / 2 ^ 16)) (BitVec.ofNat 6 (w / 2 ^ 22)) t)

/-- V major 0x19: VSEL. -/
def decV19 (w : Nat) : Except DecodeErr Instr :=
  zero (fld w 28 3) <| .ok (.vsel (ringOf w) (fld w 31 1 == 1) (BitVec.ofNat 6 (w / 2 ^ 10)) (BitVec.ofNat 6 (w / 2 ^ 16)) (BitVec.ofNat 6 (w / 2 ^ 22)))

/-- V major 0x1A: VCLASS. -/
def decV1A (w : Nat) : Except DecodeErr Instr :=
  zero (fld w 13 3) <| orRes (ffOf (fld w 28 4)) fun t => .ok (.vclass (ringOf w) (BitVec.ofNat 3 (w / 2 ^ 10)) (BitVec.ofNat 6 (w / 2 ^ 16)) (BitVec.ofNat 6 (w / 2 ^ 22)) t)

/-- V major 0x1B: VCVT. -/
def decV1B (w : Nat) : Except DecodeErr Instr :=
  orRes (fmtOf (fld w 22 5)) fun fs => orRes (fmtOf (fld w 27 5)) fun fd => .ok (.vcvt (ringOf w) (BitVec.ofNat 6 (w / 2 ^ 10)) (BitVec.ofNat 5 (w / 2 ^ 16)) (fld w 21 1 == 1) fs fd)

/-- V major 0x1C: VPACK. -/
def decV1C (w : Nat) : Except DecodeErr Instr :=
  orRes (fmtOf (fld w 22 5)) fun fs => orRes (fmtOf (fld w 27 5)) fun fd => .ok (.vpack (ringOf w) (BitVec.ofNat 6 (w / 2 ^ 10)) (BitVec.ofNat 5 (w / 2 ^ 16)) (fld w 21 1 == 1) fs fd)

/-- V major 0x1D: VUNPK. -/
def decV1D (w : Nat) : Except DecodeErr Instr :=
  zero (fld w 21 1) <| orRes (fmtOf (fld w 22 5)) fun fs => orRes (fmtOf (fld w 27 5)) fun fd => .ok (.vunpk (ringOf w) (BitVec.ofNat 6 (w / 2 ^ 10)) (BitVec.ofNat 5 (w / 2 ^ 16)) fs fd)

/-- V major 0x1E: VMOV. -/
def decV1E (w : Nat) : Except DecodeErr Instr :=
  zero (fld w 22 6) <| zero (fld w 28 3) <| .ok (.vmov (ringOf w) (fld w 31 1 == 1) (BitVec.ofNat 6 (w / 2 ^ 10)) (BitVec.ofNat 6 (w / 2 ^ 16)))

/-- V major 0x1F: VBCAST. -/
def decV1F (w : Nat) : Except DecodeErr Instr :=
  zero (fld w 16 6) <| zero (fld w 26 2) <| orRes (wdOf (fld w 28 3)) fun t => .ok (.vbcast (ringOf w) t (fld w 31 1 == 1) (BitVec.ofNat 6 (w / 2 ^ 10)) (BitVec.ofNat 4 (w / 2 ^ 22)))

/-- V major 0x20: VEXT. -/
def decV20 (w : Nat) : Except DecodeErr Instr :=
  zero (fld w 14 2) <| zero (fld w 26 2) <| zero (fld w 31 1) <| orRes (wdOf (fld w 28 3)) fun t => .ok (.vext (ringOf w) t (BitVec.ofNat 4 (w / 2 ^ 10)) (BitVec.ofNat 6 (w / 2 ^ 16)) (BitVec.ofNat 4 (w / 2 ^ 22)))

/-- V major 0x21: VINS. -/
def decV21 (w : Nat) : Except DecodeErr Instr :=
  zero (fld w 26 2) <| orRes (wdOf (fld w 28 3)) fun t => .ok (.vins (ringOf w) t (fld w 31 1 == 1) (BitVec.ofNat 6 (w / 2 ^ 10)) (BitVec.ofNat 6 (w / 2 ^ 16)) (BitVec.ofNat 4 (w / 2 ^ 22)))

/-- V major 0x22: VPERM. -/
def decV22 (w : Nat) : Except DecodeErr Instr :=
  orRes (wdOf (fld w 28 3)) fun t => .ok (.vperm (ringOf w) t (fld w 31 1 == 1) (BitVec.ofNat 6 (w / 2 ^ 10)) (BitVec.ofNat 6 (w / 2 ^ 16)) (BitVec.ofNat 6 (w / 2 ^ 22)))

/-- V major 0x23: VROT_DN, VROT_UP. -/
def decV23 (w : Nat) : Except DecodeErr Instr :=
  match fld w 26 2 with
  | 0 => orRes (wdOf (fld w 28 3)) fun t => .ok (.vrotDn (ringOf w) t (fld w 31 1 == 1) (BitVec.ofNat 6 (w / 2 ^ 10)) (BitVec.ofNat 6 (w / 2 ^ 16)) (BitVec.ofNat 4 (w / 2 ^ 22)))
  | 1 => orRes (wdOf (fld w 28 3)) fun t => .ok (.vrotUp (ringOf w) t (fld w 31 1 == 1) (BitVec.ofNat 6 (w / 2 ^ 10)) (BitVec.ofNat 6 (w / 2 ^ 16)) (BitVec.ofNat 4 (w / 2 ^ 22)))
  | _ => .error .reservedField

/-- V major 0x24: VSLIDE_DN, VSLIDE_UP. -/
def decV24 (w : Nat) : Except DecodeErr Instr :=
  match fld w 26 2 with
  | 0 => orRes (wdOf (fld w 28 3)) fun t => .ok (.vslideDn (ringOf w) t (fld w 31 1 == 1) (BitVec.ofNat 6 (w / 2 ^ 10)) (BitVec.ofNat 6 (w / 2 ^ 16)) (BitVec.ofNat 4 (w / 2 ^ 22)))
  | 1 => orRes (wdOf (fld w 28 3)) fun t => .ok (.vslideUp (ringOf w) t (fld w 31 1 == 1) (BitVec.ofNat 6 (w / 2 ^ 10)) (BitVec.ofNat 6 (w / 2 ^ 16)) (BitVec.ofNat 4 (w / 2 ^ 22)))
  | _ => .error .reservedField

/-- V major 0x25: VRED_SUM, VRED_MIN, VRED_MAX. -/
def decV25 (w : Nat) : Except DecodeErr Instr :=
  match fld w 22 6 with
  | 0 => .ok (.vredSum (ringOf w) (fiOf (fld w 28 3)) (fld w 31 1 == 1) (BitVec.ofNat 6 (w / 2 ^ 10)) (BitVec.ofNat 6 (w / 2 ^ 16)))
  | 1 => .ok (.vredMin (ringOf w) (fiOf (fld w 28 3)) (fld w 31 1 == 1) (BitVec.ofNat 6 (w / 2 ^ 10)) (BitVec.ofNat 6 (w / 2 ^ 16)))
  | 2 => .ok (.vredMax (ringOf w) (fiOf (fld w 28 3)) (fld w 31 1 == 1) (BitVec.ofNat 6 (w / 2 ^ 10)) (BitVec.ofNat 6 (w / 2 ^ 16)))
  | _ => .error .reservedField

/-- V major 0x26: VSCAN_SUM, VSCAN_MIN, VSCAN_MAX. -/
def decV26 (w : Nat) : Except DecodeErr Instr :=
  match fld w 22 6 with
  | 0 => .ok (.vscanSum (ringOf w) (fiOf (fld w 28 3)) (fld w 31 1 == 1) (BitVec.ofNat 6 (w / 2 ^ 10)) (BitVec.ofNat 6 (w / 2 ^ 16)))
  | 1 => .ok (.vscanMin (ringOf w) (fiOf (fld w 28 3)) (fld w 31 1 == 1) (BitVec.ofNat 6 (w / 2 ^ 10)) (BitVec.ofNat 6 (w / 2 ^ 16)))
  | 2 => .ok (.vscanMax (ringOf w) (fiOf (fld w 28 3)) (fld w 31 1 == 1) (BitVec.ofNat 6 (w / 2 ^ 10)) (BitVec.ofNat 6 (w / 2 ^ 16)))
  | _ => .error .reservedField

/-- V major 0x27: VLD. -/
def decV27 (w : Nat) : Except DecodeErr Instr :=
  zero (fld w 26 5) <| orRes (vspOf (fld w 24 2)) fun sp => .ok (.vld (ringOf w) (fld w 31 1 == 1) (BitVec.ofNat 6 (w / 2 ^ 10)) (BitVec.ofNat 4 (w / 2 ^ 16)) (BitVec.ofNat 4 (w / 2 ^ 20)) sp)

/-- V major 0x28: VST. -/
def decV28 (w : Nat) : Except DecodeErr Instr :=
  zero (fld w 26 6) <| orRes (vspOf (fld w 24 2)) fun sp => .ok (.vst (ringOf w) (BitVec.ofNat 6 (w / 2 ^ 10)) (BitVec.ofNat 4 (w / 2 ^ 16)) (BitVec.ofNat 4 (w / 2 ^ 20)) sp)

/-- V major 0x29: VLDS. -/
def decV29 (w : Nat) : Except DecodeErr Instr :=
  zero (fld w 26 2) <| orRes (wdOf (fld w 28 3)) fun t => orRes (vspOf (fld w 24 2)) fun sp => .ok (.vlds (ringOf w) t (fld w 31 1 == 1) (BitVec.ofNat 6 (w / 2 ^ 10)) (BitVec.ofNat 4 (w / 2 ^ 16)) (BitVec.ofNat 4 (w / 2 ^ 20)) sp)

/-- V major 0x2A: VSTS. -/
def decV2A (w : Nat) : Except DecodeErr Instr :=
  zero (fld w 26 2) <| zero (fld w 31 1) <| orRes (wdOf (fld w 28 3)) fun t => orRes (vspOf (fld w 24 2)) fun sp => .ok (.vsts (ringOf w) t (BitVec.ofNat 6 (w / 2 ^ 10)) (BitVec.ofNat 4 (w / 2 ^ 16)) (BitVec.ofNat 4 (w / 2 ^ 20)) sp)

/-- V major 0x2B: VGATH. -/
def decV2B (w : Nat) : Except DecodeErr Instr :=
  zero (fld w 26 2) <| orRes (wdOf (fld w 28 3)) fun t => .ok (.vgath (ringOf w) t (fld w 31 1 == 1) (BitVec.ofNat 6 (w / 2 ^ 10)) (BitVec.ofNat 6 (w / 2 ^ 16)) (BitVec.ofNat 4 (w / 2 ^ 22)))

/-- V major 0x2C: VSCAT. -/
def decV2C (w : Nat) : Except DecodeErr Instr :=
  zero (fld w 26 2) <| zero (fld w 31 1) <| orRes (wdOf (fld w 28 3)) fun t => .ok (.vscat (ringOf w) t (BitVec.ofNat 6 (w / 2 ^ 10)) (BitVec.ofNat 6 (w / 2 ^ 16)) (BitVec.ofNat 4 (w / 2 ^ 22)))

/-- V major 0x2D: VLUT. -/
def decV2D (w : Nat) : Except DecodeErr Instr :=
  zero (fld w 26 2) <| orRes (wdOf (fld w 28 3)) fun t => .ok (.vlut (ringOf w) t (fld w 31 1 == 1) (BitVec.ofNat 6 (w / 2 ^ 10)) (BitVec.ofNat 6 (w / 2 ^ 16)) (BitVec.ofNat 4 (w / 2 ^ 22)))

/-- V major 0x2E: VBFX. -/
def decV2E (w : Nat) : Except DecodeErr Instr :=
  .ok (.vbfx (ringOf w) (iiOf (fld w 28 3)) (fld w 31 1 == 1) (BitVec.ofNat 6 (w / 2 ^ 10)) (BitVec.ofNat 6 (w / 2 ^ 16)) (BitVec.ofNat 6 (w / 2 ^ 22)))

/-- V major 0x2F: VFSH. -/
def decV2F (w : Nat) : Except DecodeErr Instr :=
  orRes (wdOf (fld w 28 3)) fun t => .ok (.vfsh (ringOf w) t (fld w 31 1 == 1) (BitVec.ofNat 6 (w / 2 ^ 10)) (BitVec.ofNat 6 (w / 2 ^ 16)) (BitVec.ofNat 6 (w / 2 ^ 22)))

/-- V major 0x30: VPOPC, VCLZ. -/
def decV30 (w : Nat) : Except DecodeErr Instr :=
  match fld w 22 6 with
  | 0 => orRes (wdOf (fld w 28 3)) fun t => .ok (.vpopc (ringOf w) t (fld w 31 1 == 1) (BitVec.ofNat 6 (w / 2 ^ 10)) (BitVec.ofNat 6 (w / 2 ^ 16)))
  | 1 => orRes (wdOf (fld w 28 3)) fun t => .ok (.vclz (ringOf w) t (fld w 31 1 == 1) (BitVec.ofNat 6 (w / 2 ^ 10)) (BitVec.ofNat 6 (w / 2 ^ 16)))
  | _ => .error .reservedField

/-- V major 0x31: VQNT. -/
def decV31 (w : Nat) : Except DecodeErr Instr :=
  orRes (qfOf (fld w 28 3)) fun t => .ok (.vqnt (ringOf w) t (fld w 31 1 == 1) (BitVec.ofNat 6 (w / 2 ^ 10)) (BitVec.ofNat 6 (w / 2 ^ 16)) (BitVec.ofNat 4 (w / 2 ^ 22)) (qgeoOf (fld w 26 2)))

/-- V major 0x32: VDQNT. -/
def decV32 (w : Nat) : Except DecodeErr Instr :=
  orRes (qfOf (fld w 28 3)) fun t => .ok (.vdqnt (ringOf w) t (fld w 31 1 == 1) (BitVec.ofNat 6 (w / 2 ^ 10)) (BitVec.ofNat 6 (w / 2 ^ 16)) (BitVec.ofNat 4 (w / 2 ^ 22)) (qgeoOf (fld w 26 2)))

/-- V major 0x33: VMSEL. -/
def decV33 (w : Nat) : Except DecodeErr Instr :=
  zero (fld w 13 19) <| .ok (.vmsel (ringOf w) (BitVec.ofNat 3 (w / 2 ^ 10)))

/-- V major 0x34: VNOP. -/
def decV34 (w : Nat) : Except DecodeErr Instr :=
  zero (fld w 10 22) <| .ok (.vnop (ringOf w))

/-- V major 0x35: V_JOIN, V_EXIT. -/
def decV35 (w : Nat) : Except DecodeErr Instr :=
  match fld w 28 4 with
  | 2 => zero (fld w 10 12) <| .ok (.vJoin (ringOf w) (BitVec.ofNat 6 (w / 2 ^ 22)))
  | 3 => zero (fld w 10 18) <| .ok (.vExit (ringOf w))
  | _ => .error .reservedField

/-- The V stream's map of majors (R79); major 0x3E is taken apart before this map is reached (R65, R69). -/
def decodeV (w : Nat) : Except DecodeErr Instr :=
  match fld w 0 6 with
  | 1 => decV01 w
  | 2 => decV02 w
  | 3 => decV03 w
  | 4 => decV04 w
  | 5 => decV05 w
  | 6 => decV06 w
  | 7 => decV07 w
  | 8 => decV08 w
  | 9 => decV09 w
  | 10 => decV0A w
  | 11 => decV0B w
  | 12 => decV0C w
  | 13 => decV0D w
  | 14 => decV0E w
  | 15 => decV0F w
  | 16 => decV10 w
  | 17 => decV11 w
  | 18 => decV12 w
  | 19 => decV13 w
  | 20 => decV14 w
  | 21 => decV15 w
  | 22 => decV16 w
  | 23 => decV17 w
  | 24 => decV18 w
  | 25 => decV19 w
  | 26 => decV1A w
  | 27 => decV1B w
  | 28 => decV1C w
  | 29 => decV1D w
  | 30 => decV1E w
  | 31 => decV1F w
  | 32 => decV20 w
  | 33 => decV21 w
  | 34 => decV22 w
  | 35 => decV23 w
  | 36 => decV24 w
  | 37 => decV25 w
  | 38 => decV26 w
  | 39 => decV27 w
  | 40 => decV28 w
  | 41 => decV29 w
  | 42 => decV2A w
  | 43 => decV2B w
  | 44 => decV2C w
  | 45 => decV2D w
  | 46 => decV2E w
  | 47 => decV2F w
  | 48 => decV30 w
  | 49 => decV31 w
  | 50 => decV32 w
  | 51 => decV33 w
  | 52 => decV34 w
  | 53 => decV35 w
  | 0 => .error .illegalMajor
  | 63 => .error .illegalMajor
  | 62 => .error .illegalMajor
  | _ => .error .reservedMajor

/-- M major 0x01: MMA. -/
def decM01 (w : Nat) : Except DecodeErr Instr :=
  zero (fld w 24 8) <| .ok (.mma (ringOf w) (BitVec.ofNat 4 (w / 2 ^ 10)) (BitVec.ofNat 4 (w / 2 ^ 14)) (BitVec.ofNat 4 (w / 2 ^ 18)) (fld w 22 1 == 1) (fld w 23 1 == 1))

/-- M major 0x02: MMAI. -/
def decM02 (w : Nat) : Except DecodeErr Instr :=
  zero (fld w 24 2) <| orRes (igeoOf (fld w 26 2)) fun g => .ok (.mmai (ringOf w) (BitVec.ofNat 4 (w / 2 ^ 10)) (BitVec.ofNat 4 (w / 2 ^ 14)) (BitVec.ofNat 4 (w / 2 ^ 18)) (fld w 22 1 == 1) (fld w 23 1 == 1) g (BitVec.ofNat 4 (w / 2 ^ 28)))

/-- M major 0x03: MMAX. -/
def decM03 (w : Nat) : Except DecodeErr Instr :=
  zero (fld w 24 2) <| orRes (xgeoOf (fld w 26 2)) fun g => .ok (.mmax (ringOf w) (BitVec.ofNat 4 (w / 2 ^ 10)) (BitVec.ofNat 4 (w / 2 ^ 14)) (BitVec.ofNat 4 (w / 2 ^ 18)) (fld w 22 1 == 1) (fld w 23 1 == 1) g (BitVec.ofNat 4 (w / 2 ^ 28)))

/-- M major 0x04: ACLR. -/
def decM04 (w : Nat) : Except DecodeErr Instr :=
  zero (fld w 14 18) <| .ok (.aclr (ringOf w) (BitVec.ofNat 4 (w / 2 ^ 10)))

/-- M major 0x05: AADD. -/
def decM05 (w : Nat) : Except DecodeErr Instr :=
  zero (fld w 22 10) <| .ok (.aadd (ringOf w) (BitVec.ofNat 4 (w / 2 ^ 10)) (BitVec.ofNat 4 (w / 2 ^ 14)) (BitVec.ofNat 4 (w / 2 ^ 18)))

/-- M major 0x06: ALD. -/
def decM06 (w : Nat) : Except DecodeErr Instr :=
  zero (fld w 18 14) <| .ok (.ald (ringOf w) (BitVec.ofNat 4 (w / 2 ^ 10)) (BitVec.ofNat 4 (w / 2 ^ 14)))

/-- M major 0x07: AST. -/
def decM07 (w : Nat) : Except DecodeErr Instr :=
  zero (fld w 18 4) <| zero (fld w 23 9) <| .ok (.ast (ringOf w) (BitVec.ofNat 4 (w / 2 ^ 10)) (BitVec.ofNat 4 (w / 2 ^ 14)) (fld w 22 1 == 1))

/-- M major 0x08: ACVT. -/
def decM08 (w : Nat) : Except DecodeErr Instr :=
  zero (fld w 18 4) <| zero (fld w 24 2) <| zero (fld w 30 2) <| .ok (.acvt (ringOf w) (BitVec.ofNat 4 (w / 2 ^ 10)) (BitVec.ofNat 4 (w / 2 ^ 14)) (fld w 22 1 == 1) (fld w 23 1 == 1) (BitVec.ofNat 4 (w / 2 ^ 26)))

/-- M major 0x09: TLD. -/
def decM09 (w : Nat) : Except DecodeErr Instr :=
  zero (fld w 14 12) <| zero (fld w 30 2) <| .ok (.tld (ringOf w) (BitVec.ofNat 4 (w / 2 ^ 10)) (BitVec.ofNat 4 (w / 2 ^ 26)))

/-- M major 0x0A: TST. -/
def decM0A (w : Nat) : Except DecodeErr Instr :=
  zero (fld w 18 4) <| zero (fld w 23 9) <| .ok (.tst (ringOf w) (BitVec.ofNat 4 (w / 2 ^ 10)) (BitVec.ofNat 4 (w / 2 ^ 14)) (fld w 22 1 == 1))

/-- M major 0x0B: TTR. -/
def decM0B (w : Nat) : Except DecodeErr Instr :=
  zero (fld w 18 14) <| .ok (.ttr (ringOf w) (BitVec.ofNat 4 (w / 2 ^ 10)) (BitVec.ofNat 4 (w / 2 ^ 14)))

/-- M major 0x0C: TREPK, TREPK_PK. -/
def decM0C (w : Nat) : Except DecodeErr Instr :=
  match fld w 22 1 with
  | 0 => zero (fld w 18 4) <| zero (fld w 23 9) <| .ok (.trepk (ringOf w) (BitVec.ofNat 4 (w / 2 ^ 10)) (BitVec.ofNat 4 (w / 2 ^ 14)))
  | 1 => zero (fld w 18 4) <| zero (fld w 23 9) <| .ok (.trepkPk (ringOf w) (BitVec.ofNat 4 (w / 2 ^ 10)) (BitVec.ofNat 4 (w / 2 ^ 14)))
  | _ => .error .reservedField

/-- M major 0x0D: MNEST. -/
def decM0D (w : Nat) : Except DecodeErr Instr :=
  zero (fld w 10 22) <| .ok (.mnest (ringOf w))

/-- M major 0x0E: MWAIT. -/
def decM0E (w : Nat) : Except DecodeErr Instr :=
  zero (fld w 10 22) <| .ok (.mwait (ringOf w))

/-- M major 0x0F: MSTAT, MSTAT_CLR. -/
def decM0F (w : Nat) : Except DecodeErr Instr :=
  match fld w 22 1 with
  | 0 => zero (fld w 10 12) <| zero (fld w 23 9) <| .ok (.mstat (ringOf w))
  | 1 => zero (fld w 10 12) <| zero (fld w 23 9) <| .ok (.mstatClr (ringOf w))
  | _ => .error .reservedField

/-- M major 0x10: MNOP. -/
def decM10 (w : Nat) : Except DecodeErr Instr :=
  zero (fld w 10 22) <| .ok (.mnop (ringOf w))

/-- M major 0x11: M_JOIN, M_EXIT. -/
def decM11 (w : Nat) : Except DecodeErr Instr :=
  match fld w 28 4 with
  | 2 => zero (fld w 10 12) <| .ok (.mJoin (ringOf w) (BitVec.ofNat 6 (w / 2 ^ 22)))
  | 3 => zero (fld w 10 18) <| .ok (.mExit (ringOf w))
  | _ => .error .reservedField

/-- The M stream's map of majors (R83); major 0x3E is taken apart before this map is reached (R65, R69). -/
def decodeM (w : Nat) : Except DecodeErr Instr :=
  match fld w 0 6 with
  | 1 => decM01 w
  | 2 => decM02 w
  | 3 => decM03 w
  | 4 => decM04 w
  | 5 => decM05 w
  | 6 => decM06 w
  | 7 => decM07 w
  | 8 => decM08 w
  | 9 => decM09 w
  | 10 => decM0A w
  | 11 => decM0B w
  | 12 => decM0C w
  | 13 => decM0D w
  | 14 => decM0E w
  | 15 => decM0F w
  | 16 => decM10 w
  | 17 => decM11 w
  | 0 => .error .illegalMajor
  | 63 => .error .illegalMajor
  | 62 => .error .illegalMajor
  | _ => .error .reservedMajor

/-- X major 0x01: XCOPY. -/
def decX01 (w : Nat) : Except DecodeErr Instr :=
  zero (fld w 14 17) <| .ok (.xcopy (ringOf w) (BitVec.ofNat 4 (w / 2 ^ 10)) (fld w 31 1 == 1))

/-- X major 0x02: XNEST_COPY, XNEST_ACC, XNEST_MCAST, XNEST_STRM. -/
def decX02 (w : Nat) : Except DecodeErr Instr :=
  match fld w 18 2 with
  | 0 => zero (fld w 14 4) <| zero (fld w 20 11) <| .ok (.xnestCopy (ringOf w) (BitVec.ofNat 4 (w / 2 ^ 10)) (fld w 31 1 == 1))
  | 1 => zero (fld w 14 4) <| zero (fld w 20 11) <| .ok (.xnestAcc (ringOf w) (BitVec.ofNat 4 (w / 2 ^ 10)) (fld w 31 1 == 1))
  | 2 => zero (fld w 14 4) <| zero (fld w 20 11) <| .ok (.xnestMcast (ringOf w) (BitVec.ofNat 4 (w / 2 ^ 10)) (fld w 31 1 == 1))
  | 3 => zero (fld w 14 4) <| zero (fld w 20 11) <| .ok (.xnestStrm (ringOf w) (BitVec.ofNat 4 (w / 2 ^ 10)) (fld w 31 1 == 1))
  | _ => .error .reservedField

/-- X major 0x03: XMCAST. -/
def decX03 (w : Nat) : Except DecodeErr Instr :=
  zero (fld w 14 17) <| .ok (.xmcast (ringOf w) (BitVec.ofNat 4 (w / 2 ^ 10)) (fld w 31 1 == 1))

/-- X major 0x04: XACC. -/
def decX04 (w : Nat) : Except DecodeErr Instr :=
  zero (fld w 14 17) <| .ok (.xacc (ringOf w) (BitVec.ofNat 4 (w / 2 ^ 10)) (fld w 31 1 == 1))

/-- X major 0x05: XSTRM. -/
def decX05 (w : Nat) : Except DecodeErr Instr :=
  zero (fld w 14 17) <| .ok (.xstrm (ringOf w) (BitVec.ofNat 4 (w / 2 ^ 10)) (fld w 31 1 == 1))

/-- X major 0x06: XGATH. -/
def decX06 (w : Nat) : Except DecodeErr Instr :=
  zero (fld w 18 13) <| .ok (.xgath (ringOf w) (BitVec.ofNat 4 (w / 2 ^ 10)) (BitVec.ofNat 4 (w / 2 ^ 14)) (fld w 31 1 == 1))

/-- X major 0x07: XWAIT. -/
def decX07 (w : Nat) : Except DecodeErr Instr :=
  zero (fld w 10 8) <| zero (fld w 23 9) <| .ok (.xwait (ringOf w) (BitVec.ofNat 5 (w / 2 ^ 18)))

/-- X major 0x08: XFENCE. -/
def decX08 (w : Nat) : Except DecodeErr Instr :=
  zero (fld w 10 22) <| .ok (.xfence (ringOf w))

/-- X major 0x09: XNOP. -/
def decX09 (w : Nat) : Except DecodeErr Instr :=
  zero (fld w 10 22) <| .ok (.xnop (ringOf w))

/-- X major 0x0A: X_JOIN, X_EXIT. -/
def decX0A (w : Nat) : Except DecodeErr Instr :=
  match fld w 28 4 with
  | 2 => zero (fld w 10 12) <| .ok (.xJoin (ringOf w) (BitVec.ofNat 6 (w / 2 ^ 22)))
  | 3 => zero (fld w 10 18) <| .ok (.xExit (ringOf w))
  | _ => .error .reservedField

/-- The X stream's map of majors (R85); major 0x3E is taken apart before this map is reached (R65, R69). -/
def decodeX (w : Nat) : Except DecodeErr Instr :=
  match fld w 0 6 with
  | 1 => decX01 w
  | 2 => decX02 w
  | 3 => decX03 w
  | 4 => decX04 w
  | 5 => decX05 w
  | 6 => decX06 w
  | 7 => decX07 w
  | 8 => decX08 w
  | 9 => decX09 w
  | 10 => decX0A w
  | 0 => .error .illegalMajor
  | 63 => .error .illegalMajor
  | 62 => .error .illegalMajor
  | _ => .error .reservedMajor

/-- Only well-formed instructions are decoded: a value that a format or an entry forbids is reserved (R86). -/
def wfOnly (x : Except DecodeErr Instr) : Except DecodeErr Instr :=
  match x with
  | .ok i => if i.wf then .ok i else .error .reservedField
  | .error e => .error e

/-- A full word of a stream, as it stands in the stream or in the dictionary (R69, R88). A word whose major is 0x3E is
no full word: in a dictionary entry it is illegal (R69). -/
def decodeWord (e : Strm) (w : Nat) : Except DecodeErr Instr :=
  wfOnly (match e with
    | .c => decodeC w
    | .v => decodeV w
    | .m => decodeM w
    | .x => decodeX w)

/-- The instruction that begins with the parcel in bits [15:0] of w: a dictionary code when its major is 0x3E, else the
full word w (R65). -/
def decode (e : Strm) (w : Nat) : Except DecodeErr Instr :=
  if fld w 0 6 = 62 then .ok (.dictionaryCode e (BitVec.ofNat 10 (w / 2 ^ 6))) else decodeWord e w

/-- The value of a byte list read little-endian (R12). -/
def leNat (bs : List Byte) : Nat :=
  match bs with
  | [] => 0
  | b :: t => b.toNat + 256 * leNat t

/-- n bytes of a value, little-endian (R12). -/
def leBytes (n v : Nat) : List Byte :=
  match n with
  | 0 => []
  | n + 1 => BitVec.ofNat 8 v :: leBytes n (v / 256)

/-- Decode the bytes at a stream's PC: two bytes for a dictionary code, four for a full word (R65). An illegal or
reserved major is judged on the first parcel alone (R87). -/
def decodeBytes (e : Strm) (bs : List Byte) : Except DecodeErr (Instr × List Byte) :=
  let p := leNat (bs.take 2)
  if fld p 0 6 = 62 then
    match decode e p with
    | .ok i => .ok (i, bs.drop 2)
    | .error x => .error x
  else
    match decode e (leNat (bs.take 4)) with
    | .ok i => .ok (i, bs.drop 4)
    | .error x => .error x

/-- Fields (low bit, value) laid into a word. -/
def lay (fs : List (Nat × Nat)) : Nat :=
  match fs with
  | [] => 0
  | (lo, v) :: t => v * 2 ^ lo + lay t

/-- A full word from its major, ring bits and operand fields (R71). -/
def full (maj : Nat) (r : Ring) (fs : List (Nat × Nat)) : Option (Nat × Nat) := some (32, maj + r.enc + lay fs)

/-- The encoder: how many bits the instruction's encoding has and its word (R73 to R84, R481); events have none. -/
def encode : Instr → Option (Nat × Nat)
  | .add r d a b => full 1 r [(10, d.toNat), (16, a.toNat), (22, b.toNat)]
  | .sub r d a b => full 1 r [(28, 1), (10, d.toNat), (16, a.toNat), (22, b.toNat)]
  | .and r d a b => full 1 r [(28, 2), (10, d.toNat), (16, a.toNat), (22, b.toNat)]
  | .or r d a b => full 1 r [(28, 3), (10, d.toNat), (16, a.toNat), (22, b.toNat)]
  | .xor r d a b => full 1 r [(28, 4), (10, d.toNat), (16, a.toNat), (22, b.toNat)]
  | .andn r d a b => full 1 r [(28, 5), (10, d.toNat), (16, a.toNat), (22, b.toNat)]
  | .orn r d a b => full 1 r [(28, 6), (10, d.toNat), (16, a.toNat), (22, b.toNat)]
  | .sll r d a b => full 1 r [(28, 7), (10, d.toNat), (16, a.toNat), (22, b.toNat)]
  | .srl r d a b => full 1 r [(28, 8), (10, d.toNat), (16, a.toNat), (22, b.toNat)]
  | .sra r d a b => full 1 r [(28, 9), (10, d.toNat), (16, a.toNat), (22, b.toNat)]
  | .rol r d a b => full 1 r [(28, 10), (10, d.toNat), (16, a.toNat), (22, b.toNat)]
  | .ror r d a b => full 1 r [(28, 11), (10, d.toNat), (16, a.toNat), (22, b.toNat)]
  | .sel r d a b => full 1 r [(28, 12), (10, d.toNat), (16, a.toNat), (22, b.toNat)]
  | .min r d a b => full 1 r [(28, 13), (10, d.toNat), (16, a.toNat), (22, b.toNat)]
  | .max r d a b => full 1 r [(28, 14), (10, d.toNat), (16, a.toNat), (22, b.toNat)]
  | .minn r d a b => full 1 r [(28, 15), (10, d.toNat), (16, a.toNat), (22, b.toNat)]
  | .mul r d a b => full 2 r [(10, d.toNat), (16, a.toNat), (22, b.toNat)]
  | .mulh r d a b => full 2 r [(28, 1), (10, d.toNat), (16, a.toNat), (22, b.toNat)]
  | .mulhn r d a b => full 2 r [(28, 2), (10, d.toNat), (16, a.toNat), (22, b.toNat)]
  | .div r d a b => full 2 r [(28, 3), (10, d.toNat), (16, a.toNat), (22, b.toNat)]
  | .divn r d a b => full 2 r [(28, 4), (10, d.toNat), (16, a.toNat), (22, b.toNat)]
  | .rem r d a b => full 2 r [(28, 5), (10, d.toNat), (16, a.toNat), (22, b.toNat)]
  | .remn r d a b => full 2 r [(28, 6), (10, d.toNat), (16, a.toNat), (22, b.toNat)]
  | .maxn r d a b => full 2 r [(28, 7), (10, d.toNat), (16, a.toNat), (22, b.toNat)]
  | .clz r d a => full 3 r [(10, d.toNat), (16, a.toNat)]
  | .ctz r d a => full 3 r [(28, 1), (10, d.toNat), (16, a.toNat)]
  | .popc r d a => full 3 r [(28, 2), (10, d.toNat), (16, a.toNat)]
  | .brev r d a => full 3 r [(28, 3), (10, d.toNat), (16, a.toNat)]
  | .bswap r d a => full 3 r [(28, 4), (10, d.toNat), (16, a.toNat)]
  | .sext r d a w1 => full 3 r [(28, 5), (10, d.toNat), (16, a.toNat), (22, w1.toNat)]
  | .zext r d a w1 => full 3 r [(28, 6), (10, d.toNat), (16, a.toNat), (22, w1.toNat)]
  | .addi r d a imm => full 4 r [(10, d.toNat), (16, a.toNat), (22, imm.toNat)]
  | .andi r d a imm => full 5 r [(10, d.toNat), (16, a.toNat), (22, imm.toNat)]
  | .ori r d a imm => full 6 r [(10, d.toNat), (16, a.toNat), (22, imm.toNat)]
  | .xori r d a imm => full 7 r [(10, d.toNat), (16, a.toNat), (22, imm.toNat)]
  | .muli r d a imm => full 9 r [(10, d.toNat), (16, a.toNat), (22, imm.toNat)]
  | .slli r d a sh => full 8 r [(10, d.toNat), (16, a.toNat), (22, sh.toNat)]
  | .srli r d a sh => full 8 r [(28, 1), (10, d.toNat), (16, a.toNat), (22, sh.toNat)]
  | .srai r d a sh => full 8 r [(28, 2), (10, d.toNat), (16, a.toNat), (22, sh.toNat)]
  | .rori r d a sh => full 8 r [(28, 3), (10, d.toNat), (16, a.toNat), (22, sh.toNat)]
  | .movi r d imm => full 10 r [(10, d.toNat), (16, imm.toNat)]
  | .movk r d imm => full 11 r [(10, d.toNat), (16, imm.toNat)]
  | .addpc r d imm => full 12 r [(10, d.toNat), (16, imm.toNat)]
  | .bfx r d a b => full 13 r [(10, d.toNat), (16, a.toNat), (22, b.toNat)]
  | .bfxn r d a b => full 14 r [(10, d.toNat), (16, a.toNat), (22, b.toNat)]
  | .bfi r d a b => full 15 r [(10, d.toNat), (16, a.toNat), (22, b.toNat)]
  | .fshl r d a b => full 16 r [(10, d.toNat), (16, a.toNat), (22, b.toNat)]
  | .fshr r d a b => full 16 r [(28, 1), (10, d.toNat), (16, a.toNat), (22, b.toNat)]
  | .cmp r pd cond a b => full 17 r [(10, pd.toNat), (13, cond.enc), (16, a.toNat), (22, b.toNat)]
  | .cmpAnd r pd cond a b => full 17 r [(28, 1), (10, pd.toNat), (13, cond.enc), (16, a.toNat), (22, b.toNat)]
  | .cmpOr r pd cond a b => full 17 r [(28, 2), (10, pd.toNat), (13, cond.enc), (16, a.toNat), (22, b.toNat)]
  | .cmpi r pd cond a imm => full 18 r [(10, pd.toNat), (13, cond.enc), (16, a.toNat), (22, imm.toNat)]
  | .pand r pd pa pb => full 19 r [(10, pd.toNat), (16, pa.toNat), (19, pb.toNat)]
  | .por r pd pa pb => full 19 r [(28, 1), (10, pd.toNat), (16, pa.toNat), (19, pb.toNat)]
  | .pxor r pd pa pb => full 19 r [(28, 2), (10, pd.toNat), (16, pa.toNat), (19, pb.toNat)]
  | .pnot r pd pa => full 19 r [(28, 3), (10, pd.toNat), (16, pa.toNat)]
  | .pmov r pd pa => full 19 r [(28, 4), (10, pd.toNat), (16, pa.toNat)]
  | .br r p neg off => full 20 r [(10, p.toNat), (13, neg.toNat), (14, off.toNat)]
  | .jmp r off => full 21 r [(10, off.toNat)]
  | .call r off => full 22 r [(10, off.toNat)]
  | .jr r a => full 23 r [(16, a.toNat)]
  | .jalr r d a => full 23 r [(28, 1), (10, d.toNat), (16, a.toNat)]
  | .ret r => full 23 r [(28, 2)]
  | .loop r d imm => full 24 r [(10, d.toNat), (16, imm.toNat)]
  | .nop r => full 25 r []
  | .skip r p neg n => full 25 r [(28, 1), (10, p.toNat), (13, neg.toNat), (22, n.toNat)]
  | .join r k => full 25 r [(28, 2), (22, k.toNat)]
  | .exit r => full 25 r [(28, 3)]
  | .ld r d a sz sp off => full 26 r [(10, d.toNat), (16, a.toNat), (22, sz.enc), (24, sp.enc), (26, off.toNat)]
  | .st r d a sz sp off => full 27 r [(10, d.toNat), (16, a.toNat), (22, sz.enc), (24, sp.enc), (26, off.toNat)]
  | .ldx r d a b sz sp => full 28 r [(10, d.toNat), (16, a.toNat), (22, b.toNat), (28, sz.enc), (30, sp.enc)]
  | .stx r d a b sz sp => full 29 r [(10, d.toNat), (16, a.toNat), (22, b.toNat), (28, sz.enc), (30, sp.enc)]
  | .pft r a sz sp off => full 30 r [(16, a.toNat), (22, sz.enc), (24, sp.enc), (26, off.toNat)]
  | .ldVm r d a sz off => full 26 r [(24, 3), (10, d.toNat), (16, a.toNat), (22, sz.enc), (26, off.toNat)]
  | .stVm r d a sz off => full 27 r [(24, 3), (10, d.toNat), (16, a.toNat), (22, sz.enc), (26, off.toNat)]
  | .ldxVm r d a b sz => full 28 r [(30, 3), (10, d.toNat), (16, a.toNat), (22, b.toNat), (28, sz.enc)]
  | .stxVm r d a b sz => full 29 r [(30, 3), (10, d.toNat), (16, a.toNat), (22, b.toNat), (28, sz.enc)]
  | .pftVm r a sz off => full 30 r [(24, 3), (16, a.toNat), (22, sz.enc), (26, off.toNat)]
  | .amoAdd r d a b => full 31 r [(10, d.toNat), (16, a.toNat), (22, b.toNat)]
  | .amoAnd r d a b => full 31 r [(28, 1), (10, d.toNat), (16, a.toNat), (22, b.toNat)]
  | .amoOr r d a b => full 31 r [(28, 2), (10, d.toNat), (16, a.toNat), (22, b.toNat)]
  | .amoXor r d a b => full 31 r [(28, 3), (10, d.toNat), (16, a.toNat), (22, b.toNat)]
  | .amoMin r d a b => full 31 r [(28, 4), (10, d.toNat), (16, a.toNat), (22, b.toNat)]
  | .amoMax r d a b => full 31 r [(28, 5), (10, d.toNat), (16, a.toNat), (22, b.toNat)]
  | .amoMinn r d a b => full 31 r [(28, 6), (10, d.toNat), (16, a.toNat), (22, b.toNat)]
  | .amoMaxn r d a b => full 31 r [(28, 7), (10, d.toNat), (16, a.toNat), (22, b.toNat)]
  | .amoSwap r d a b => full 31 r [(28, 8), (10, d.toNat), (16, a.toNat), (22, b.toNat)]
  | .cas r d a b => full 32 r [(10, d.toNat), (16, a.toNat), (22, b.toNat)]
  | .arm r d a b => full 33 r [(10, d.toNat), (16, a.toNat), (22, b.toNat)]
  | .arrv r d a b => full 33 r [(28, 1), (10, d.toNat), (16, a.toNat), (22, b.toNat)]
  | .await r pd a b => full 33 r [(28, 2), (10, pd.toNat), (16, a.toNat), (22, b.toNat)]
  | .bari r sp a b => full 34 r [(10, sp.enc), (16, a.toNat), (22, b.toNat)]
  | .bara r sp a c1 drop => full 34 r [(28, 1), (10, sp.enc), (16, a.toNat), (22, c1.toNat), (26, drop.toNat)]
  | .barw r pd a b => full 34 r [(28, 2), (10, pd.toNat), (16, a.toNat), (22, b.toNat)]
  | .seal r a => full 35 r [(16, a.toNat)]
  | .unseal r a => full 35 r [(28, 1), (16, a.toNat)]
  | .fence r s => full 36 r [(28, s.enc)]
  | .csrr r g csr => full 37 r [(10, g.toNat), (22, csr.toNat)]
  | .csrw r g csr => full 37 r [(16, 1), (10, g.toNat), (22, csr.toNat)]
  | .csrs r g csr => full 37 r [(16, 2), (10, g.toNat), (22, csr.toNat)]
  | .csrc r g csr => full 37 r [(16, 3), (10, g.toNat), (22, csr.toNat)]
  | .time r g => full 37 r [(16, 4), (10, g.toNat)]
  | .view r vd a => full 38 r [(10, vd.toNat), (16, a.toNat)]
  | .tdesc r d a b => full 39 r [(10, d.toNat), (16, a.toNat), (22, b.toNat)]
  | .trap r code => full 40 r [(22, code.toNat)]
  | .eret r => full 40 r [(28, 1)]
  | .token r dir n => full 41 r [(10, dir.toNat), (22, n.toNat)]
  | .twait r dir n => full 41 r [(28, 1), (10, dir.toNat), (22, n.toNat)]
  | .launch r d a b => full 42 r [(10, d.toNat), (16, a.toNat), (22, b.toNat)]
  | .launchCr r d a b => full 42 r [(28, 1), (10, d.toNat), (16, a.toNat), (22, b.toNat)]
  | .cancelTask r d a b => full 43 r [(10, d.toNat), (16, a.toNat), (22, b.toNat)]
  | .cancelLaunch r d a => full 43 r [(28, 1), (10, d.toNat), (16, a.toNat)]
  | .cancelGraph r d a => full 43 r [(28, 2), (10, d.toNat), (16, a.toNat)]
  | .cancelPhase r d a => full 43 r [(28, 3), (10, d.toNat), (16, a.toNat)]
  | .cancelJob r d a => full 43 r [(28, 4), (10, d.toNat), (16, a.toNat)]
  | .phase r d => full 44 r [(10, d.toNat)]
  | .ckpt r d => full 45 r [(10, d.toNat)]
  | .estim r a => full 45 r [(28, 1), (16, a.toNat)]
  | .clstep r d a b => full 46 r [(10, d.toNat), (16, a.toNat), (22, b.toNat)]
  | .clwait r pd a b => full 46 r [(28, 1), (10, pd.toNat), (16, a.toNat), (22, b.toNat)]
  | .mulw r d a b => full 47 r [(10, d.toNat), (16, a.toNat), (22, b.toNat)]
  | .dictionaryCode _ i => some (16, 62 + i.toNat * 2 ^ 6)
  | .vadd r t e vd va vb => full 1 r [(28, t.fiEnc), (31, e.toNat), (10, vd.toNat), (16, va.toNat), (22, vb.toNat)]
  | .vsub r t e vd va vb => full 2 r [(28, t.fiEnc), (31, e.toNat), (10, vd.toNat), (16, va.toNat), (22, vb.toNat)]
  | .vmul r t e vd va vb => full 3 r [(28, t.fiEnc), (31, e.toNat), (10, vd.toNat), (16, va.toNat), (22, vb.toNat)]
  | .vmin r t e vd va vb => full 4 r [(28, t.fiEnc), (31, e.toNat), (10, vd.toNat), (16, va.toNat), (22, vb.toNat)]
  | .vmax r t e vd va vb => full 5 r [(28, t.fiEnc), (31, e.toNat), (10, vd.toNat), (16, va.toNat), (22, vb.toNat)]
  | .vdiv r t e vd va vb => full 6 r [(28, t.ffEnc), (31, e.toNat), (10, vd.toNat), (16, va.toNat), (22, vb.toNat)]
  | .vfmaF32F64 r vd e va vb vc t => full 7 r [(10, vd.toNat), (15, e.toNat), (16, va.toNat), (21, vb.toNat), (26, vc.toNat), (31, t.toNat)]
  | .vfmaBf16F16 r vd e va vb vc t => full 8 r [(10, vd.toNat), (15, e.toNat), (16, va.toNat), (21, vb.toNat), (26, vc.toNat), (31, t.toNat)]
  | .vfmsF32F64 r vd e va vb vc t => full 9 r [(10, vd.toNat), (15, e.toNat), (16, va.toNat), (21, vb.toNat), (26, vc.toNat), (31, t.toNat)]
  | .vfmsBf16F16 r vd e va vb vc t => full 10 r [(10, vd.toNat), (15, e.toNat), (16, va.toNat), (21, vb.toNat), (26, vc.toNat), (31, t.toNat)]
  | .vfnmaF32F64 r vd e va vb vc t => full 11 r [(10, vd.toNat), (15, e.toNat), (16, va.toNat), (21, vb.toNat), (26, vc.toNat), (31, t.toNat)]
  | .vfnmaBf16F16 r vd e va vb vc t => full 12 r [(10, vd.toNat), (15, e.toNat), (16, va.toNat), (21, vb.toNat), (26, vc.toNat), (31, t.toNat)]
  | .vabs r t e vd va => full 13 r [(28, t.ffEnc), (31, e.toNat), (10, vd.toNat), (16, va.toNat)]
  | .vneg r t e vd va => full 13 r [(22, 1), (28, t.ffEnc), (31, e.toNat), (10, vd.toNat), (16, va.toNat)]
  | .vsqrt r t e vd va => full 13 r [(22, 2), (28, t.ffEnc), (31, e.toNat), (10, vd.toNat), (16, va.toNat)]
  | .vrcp r t e vd va => full 13 r [(22, 3), (28, t.ffEnc), (31, e.toNat), (10, vd.toNat), (16, va.toNat)]
  | .vrsq r t e vd va => full 13 r [(22, 4), (28, t.ffEnc), (31, e.toNat), (10, vd.toNat), (16, va.toNat)]
  | .vexp2 r t e vd va => full 13 r [(22, 5), (28, t.ffEnc), (31, e.toNat), (10, vd.toNat), (16, va.toNat)]
  | .vlog2 r t e vd va => full 13 r [(22, 6), (28, t.ffEnc), (31, e.toNat), (10, vd.toNat), (16, va.toNat)]
  | .vscale r t e vd va vb => full 14 r [(28, t.ffEnc), (31, e.toNat), (10, vd.toNat), (16, va.toNat), (22, vb.toNat)]
  | .vand r e vd va vb => full 15 r [(31, e.toNat), (10, vd.toNat), (16, va.toNat), (22, vb.toNat)]
  | .vor r e vd va vb => full 16 r [(31, e.toNat), (10, vd.toNat), (16, va.toNat), (22, vb.toNat)]
  | .vxor r e vd va vb => full 17 r [(31, e.toNat), (10, vd.toNat), (16, va.toNat), (22, vb.toNat)]
  | .vsll r t e vd va vb => full 18 r [(28, t.enc), (31, e.toNat), (10, vd.toNat), (16, va.toNat), (22, vb.toNat)]
  | .vsrl r t e vd va vb => full 19 r [(28, t.enc), (31, e.toNat), (10, vd.toNat), (16, va.toNat), (22, vb.toNat)]
  | .vsra r t e vd va vb => full 20 r [(28, t.enc), (31, e.toNat), (10, vd.toNat), (16, va.toNat), (22, vb.toNat)]
  | .vmulh r t e vd va vb => full 21 r [(28, t.iiEnc), (31, e.toNat), (10, vd.toNat), (16, va.toNat), (22, vb.toNat)]
  | .vadds r t e vd va vb => full 22 r [(28, t.iiEnc), (31, e.toNat), (10, vd.toNat), (16, va.toNat), (22, vb.toNat)]
  | .vsubs r t e vd va vb => full 23 r [(28, t.iiEnc), (31, e.toNat), (10, vd.toNat), (16, va.toNat), (22, vb.toNat)]
  | .vcmp r md cond va vb t => full 24 r [(10, md.toNat), (13, cond.enc), (16, va.toNat), (22, vb.toNat), (28, t.finEnc)]
  | .vsel r e vd va vb => full 25 r [(31, e.toNat), (10, vd.toNat), (16, va.toNat), (22, vb.toNat)]
  | .vclass r md va set t => full 26 r [(10, md.toNat), (16, va.toNat), (22, set.toNat), (28, t.ffEnc)]
  | .vcvt r vd vp e fs fd => full 27 r [(10, vd.toNat), (16, vp.toNat), (21, e.toNat), (22, fs.code), (27, fd.code)]
  | .vpack r vd vp e fs fd => full 28 r [(10, vd.toNat), (16, vp.toNat), (21, e.toNat), (22, fs.code), (27, fd.code)]
  | .vunpk r vd vp fs fd => full 29 r [(10, vd.toNat), (16, vp.toNat), (22, fs.code), (27, fd.code)]
  | .vmov r e vd va => full 30 r [(31, e.toNat), (10, vd.toNat), (16, va.toNat)]
  | .vbcast r t e vd sx => full 31 r [(28, t.enc), (31, e.toNat), (10, vd.toNat), (22, sx.toNat)]
  | .vext r t sd va sx => full 32 r [(28, t.enc), (10, sd.toNat), (16, va.toNat), (22, sx.toNat)]
  | .vins r t e vd va sx => full 33 r [(28, t.enc), (31, e.toNat), (10, vd.toNat), (16, va.toNat), (22, sx.toNat)]
  | .vperm r t e vd va vb => full 34 r [(28, t.enc), (31, e.toNat), (10, vd.toNat), (16, va.toNat), (22, vb.toNat)]
  | .vrotDn r t e vd va sx => full 35 r [(28, t.enc), (31, e.toNat), (10, vd.toNat), (16, va.toNat), (22, sx.toNat)]
  | .vrotUp r t e vd va sx => full 35 r [(26, 1), (28, t.enc), (31, e.toNat), (10, vd.toNat), (16, va.toNat), (22, sx.toNat)]
  | .vslideDn r t e vd va sx => full 36 r [(28, t.enc), (31, e.toNat), (10, vd.toNat), (16, va.toNat), (22, sx.toNat)]
  | .vslideUp r t e vd va sx => full 36 r [(26, 1), (28, t.enc), (31, e.toNat), (10, vd.toNat), (16, va.toNat), (22, sx.toNat)]
  | .vredSum r t e vd va => full 37 r [(28, t.fiEnc), (31, e.toNat), (10, vd.toNat), (16, va.toNat)]
  | .vredMin r t e vd va => full 37 r [(22, 1), (28, t.fiEnc), (31, e.toNat), (10, vd.toNat), (16, va.toNat)]
  | .vredMax r t e vd va => full 37 r [(22, 2), (28, t.fiEnc), (31, e.toNat), (10, vd.toNat), (16, va.toNat)]
  | .vscanSum r t e vd va => full 38 r [(28, t.fiEnc), (31, e.toNat), (10, vd.toNat), (16, va.toNat)]
  | .vscanMin r t e vd va => full 38 r [(22, 1), (28, t.fiEnc), (31, e.toNat), (10, vd.toNat), (16, va.toNat)]
  | .vscanMax r t e vd va => full 38 r [(22, 2), (28, t.fiEnc), (31, e.toNat), (10, vd.toNat), (16, va.toNat)]
  | .vld r e vd sa sb sp => full 39 r [(31, e.toNat), (10, vd.toNat), (16, sa.toNat), (20, sb.toNat), (24, sp.enc)]
  | .vst r vd sa sb sp => full 40 r [(10, vd.toNat), (16, sa.toNat), (20, sb.toNat), (24, sp.enc)]
  | .vlds r t e vd sa sb sp => full 41 r [(28, t.enc), (31, e.toNat), (10, vd.toNat), (16, sa.toNat), (20, sb.toNat), (24, sp.enc)]
  | .vsts r t vd sa sb sp => full 42 r [(28, t.enc), (10, vd.toNat), (16, sa.toNat), (20, sb.toNat), (24, sp.enc)]
  | .vgath r t e vd va sa => full 43 r [(28, t.enc), (31, e.toNat), (10, vd.toNat), (16, va.toNat), (22, sa.toNat)]
  | .vscat r t vd va sa => full 44 r [(28, t.enc), (10, vd.toNat), (16, va.toNat), (22, sa.toNat)]
  | .vlut r t e vd va sa => full 45 r [(28, t.enc), (31, e.toNat), (10, vd.toNat), (16, va.toNat), (22, sa.toNat)]
  | .vbfx r t e vd va vb => full 46 r [(28, t.iiEnc), (31, e.toNat), (10, vd.toNat), (16, va.toNat), (22, vb.toNat)]
  | .vfsh r t e vd va vb => full 47 r [(28, t.enc), (31, e.toNat), (10, vd.toNat), (16, va.toNat), (22, vb.toNat)]
  | .vpopc r t e vd va => full 48 r [(28, t.enc), (31, e.toNat), (10, vd.toNat), (16, va.toNat)]
  | .vclz r t e vd va => full 48 r [(22, 1), (28, t.enc), (31, e.toNat), (10, vd.toNat), (16, va.toNat)]
  | .vqnt r t e vd va sx g => full 49 r [(28, t.qfEnc), (31, e.toNat), (10, vd.toNat), (16, va.toNat), (22, sx.toNat), (26, g.enc)]
  | .vdqnt r t e vd va sx g => full 50 r [(28, t.qfEnc), (31, e.toNat), (10, vd.toNat), (16, va.toNat), (22, sx.toNat), (26, g.enc)]
  | .vmsel r mk => full 51 r [(10, mk.toNat)]
  | .vnop r => full 52 r []
  | .vJoin r k => full 53 r [(28, 2), (22, k.toNat)]
  | .vExit r => full 53 r [(28, 3)]
  | .mma r acc ta tb z w => full 1 r [(10, acc.toNat), (14, ta.toNat), (18, tb.toNat), (22, z.toNat), (23, w.toNat)]
  | .mmai r acc ta tb z w g sx => full 2 r [(10, acc.toNat), (14, ta.toNat), (18, tb.toNat), (22, z.toNat), (23, w.toNat), (26, g.enc), (28, sx.toNat)]
  | .mmax r acc ta tb z w g sx => full 3 r [(10, acc.toNat), (14, ta.toNat), (18, tb.toNat), (22, z.toNat), (23, w.toNat), (26, g.enc), (28, sx.toNat)]
  | .aclr r x => full 4 r [(10, x.toNat)]
  | .aadd r x y z => full 5 r [(10, x.toNat), (14, y.toNat), (18, z.toNat)]
  | .ald r x y => full 6 r [(10, x.toNat), (14, y.toNat)]
  | .ast r x y tr => full 7 r [(10, x.toNat), (14, y.toNat), (22, tr.toNat)]
  | .acvt r x y sat scl sx => full 8 r [(10, x.toNat), (14, y.toNat), (22, sat.toNat), (23, scl.toNat), (26, sx.toNat)]
  | .tld r x sx => full 9 r [(10, x.toNat), (26, sx.toNat)]
  | .tst r x y sat => full 10 r [(10, x.toNat), (14, y.toNat), (22, sat.toNat)]
  | .ttr r x y => full 11 r [(10, x.toNat), (14, y.toNat)]
  | .trepk r x y => full 12 r [(10, x.toNat), (14, y.toNat)]
  | .trepkPk r x y => full 12 r [(22, 1), (10, x.toNat), (14, y.toNat)]
  | .mnest r => full 13 r []
  | .mwait r => full 14 r []
  | .mstat r => full 15 r []
  | .mstatClr r => full 15 r [(22, 1)]
  | .mnop r => full 16 r []
  | .mJoin r k => full 17 r [(28, 2), (22, k.toNat)]
  | .mExit r => full 17 r [(28, 3)]
  | .xcopy r pb pv => full 1 r [(10, pb.toNat), (31, pv.toNat)]
  | .xnestCopy r pb pv => full 2 r [(10, pb.toNat), (31, pv.toNat)]
  | .xnestAcc r pb pv => full 2 r [(18, 1), (10, pb.toNat), (31, pv.toNat)]
  | .xnestMcast r pb pv => full 2 r [(18, 2), (10, pb.toNat), (31, pv.toNat)]
  | .xnestStrm r pb pv => full 2 r [(18, 3), (10, pb.toNat), (31, pv.toNat)]
  | .xmcast r pb pv => full 3 r [(10, pb.toNat), (31, pv.toNat)]
  | .xacc r pb pv => full 4 r [(10, pb.toNat), (31, pv.toNat)]
  | .xstrm r pb pv => full 5 r [(10, pb.toNat), (31, pv.toNat)]
  | .xgath r pb ax pv => full 6 r [(10, pb.toNat), (14, ax.toNat), (31, pv.toNat)]
  | .xwait r n => full 7 r [(18, n.toNat)]
  | .xfence r => full 8 r []
  | .xnop r => full 9 r []
  | .xJoin r k => full 10 r [(28, 2), (22, k.toNat)]
  | .xExit r => full 10 r [(28, 3)]
  | .resultLanding _ _ => none
  | .accumulatorRead _ => none
  | .ringTimeout _ _ => none
  | .handlerEntry _ => none
  | .frozenTaskReport _ => none
  | .deferredFaultDelivery _ _ => none
  | .taskEnd _ => none
  | .launchAcceptance _ => none
  | .placement _ _ _ _ => none
  | .ageLevelRise _ _ => none
  | .preload _ => none
  | .withdrawal _ => none
  | .bindCommit _ => none
  | .lateStart _ _ => none
  | .governorWindow _ _ => none
  | .phaseBoundary _ => none
  | .phaseWatchdog _ => none
  | .cancelRelease _ => none
  | .homeAtomic _ => none
  | .barwBoundExpiry _ => none
  | .homeControllerAnswer _ _ => none
  | .storePerformed _ => none
  | .regionCount _ _ => none
  | .rearmRefire _ _ => none
  | .awaitBoundExpiry _ => none
  | .generationBump _ => none
  | .requestReplay _ _ => none
  | .sweepComplete _ => none
  | .sealComplete _ => none
  | .unsealComplete _ => none
  | .replicaPlacement _ _ _ _ => none
  | .bankMarkFailing _ _ _ => none
  | .layerFailureNoSpare _ _ _ => none
  | .recoveryPoint _ _ => none
  | .shedComplete _ _ => none
  | .patrolScrub _ _ _ => none
  | .parameterBlockRead _ => none
  | .commandStart _ => none
  | .itemPerformed _ _ => none
  | .commandComplete _ _ => none
  | .itemFailure _ _ => none
  | .errorRecordDrain _ => none
  | .nestStepStart _ => none
  | .nestStepWatchdog _ => none
  | .nestComplete _ => none
  | .preemptionChoice _ _ _ => none
  | .checkpointSettle _ => none
  | .checkpointWrite _ => none
  | .saveFaultService _ _ => none
  | .checkpointRelease _ => none
  | .hangWatchdog _ => none
  | .emergencyCopy _ _ => none
  | .restore _ => none
  | .killAndRerun _ => none
  | .budgetOverrun _ => none
  | .coreSelfCheckFailure _ => none
  | .regrow _ => none
  | .packageReset => none
  | .packageFreeze => none
  | .freeze _ => none
  | .freezeResume => none
  | .ptpEventFrame _ _ _ => none
  | .linkTrainingDone _ => none
  | .linkLoss _ => none
  | .frameReceive _ _ _ => none
  | .fabricPacketReceive _ => none
  | .fabricAck _ _ => none
  | .linkTimeout _ => none
  | .collectiveStepStart _ => none
  | .collectiveStepComplete _ => none
  | .clwaitBoundExpiry _ => none
  | .toclLaunch _ _ _ => none
  | .toclCancel _ _ _ _ => none
  | .toclWrite _ _ _ => none
  | .toclRead _ _ _ => none
  | .regionCreate _ _ _ _ _ _ _ _ => none
  | .regionDestroy _ _ _ => none
  | .regionRead _ _ _ => none
  | .counterSet _ _ _ _ _ => none
  | .sessionBind _ _ _ _ => none
  | .regRead _ _ => none
  | .regWrite _ _ _ => none
  | .groupSet _ _ _ _ _ => none
  | .ingestSet _ _ _ _ _ => none
  | .portSet _ _ _ => none
  | .ruleSet _ _ _ _ => none
  | .routeSet _ _ _ => none
  | .queueSet _ _ _ _ _ _ _ => none
  | .saveSet _ _ _ _ => none
  | .subSet _ _ _ _ _ _ _ => none
  | .trimSet _ _ => none
  | .clkSet _ => none
  | .attest _ _ => none
  | .fwStage _ _ => none
  | .fwCommit _ => none
  | .handoverReady => none
  | .handoverTimeout => none
  | .sensorSample _ _ => none
  | .holdTimerExpiry _ => none
  | .wakeRequest _ => none
  | .wakeAdmit _ => none
  | .wakeRampDone _ _ => none
  | .encodingFault _ _ => none
  | .instructionFetchFault _ _ => none
  | .parkedRecordWrite _ _ _ _ => none

/-- The stream an instruction belongs to (R23); events belong to none. -/
def Instr.strm : Instr → Option Strm
  | .add _ _ _ _ => some .c
  | .sub _ _ _ _ => some .c
  | .and _ _ _ _ => some .c
  | .or _ _ _ _ => some .c
  | .xor _ _ _ _ => some .c
  | .andn _ _ _ _ => some .c
  | .orn _ _ _ _ => some .c
  | .sll _ _ _ _ => some .c
  | .srl _ _ _ _ => some .c
  | .sra _ _ _ _ => some .c
  | .rol _ _ _ _ => some .c
  | .ror _ _ _ _ => some .c
  | .sel _ _ _ _ => some .c
  | .min _ _ _ _ => some .c
  | .max _ _ _ _ => some .c
  | .minn _ _ _ _ => some .c
  | .mul _ _ _ _ => some .c
  | .mulh _ _ _ _ => some .c
  | .mulhn _ _ _ _ => some .c
  | .div _ _ _ _ => some .c
  | .divn _ _ _ _ => some .c
  | .rem _ _ _ _ => some .c
  | .remn _ _ _ _ => some .c
  | .maxn _ _ _ _ => some .c
  | .clz _ _ _ => some .c
  | .ctz _ _ _ => some .c
  | .popc _ _ _ => some .c
  | .brev _ _ _ => some .c
  | .bswap _ _ _ => some .c
  | .sext _ _ _ _ => some .c
  | .zext _ _ _ _ => some .c
  | .addi _ _ _ _ => some .c
  | .andi _ _ _ _ => some .c
  | .ori _ _ _ _ => some .c
  | .xori _ _ _ _ => some .c
  | .muli _ _ _ _ => some .c
  | .slli _ _ _ _ => some .c
  | .srli _ _ _ _ => some .c
  | .srai _ _ _ _ => some .c
  | .rori _ _ _ _ => some .c
  | .movi _ _ _ => some .c
  | .movk _ _ _ => some .c
  | .addpc _ _ _ => some .c
  | .bfx _ _ _ _ => some .c
  | .bfxn _ _ _ _ => some .c
  | .bfi _ _ _ _ => some .c
  | .fshl _ _ _ _ => some .c
  | .fshr _ _ _ _ => some .c
  | .cmp _ _ _ _ _ => some .c
  | .cmpAnd _ _ _ _ _ => some .c
  | .cmpOr _ _ _ _ _ => some .c
  | .cmpi _ _ _ _ _ => some .c
  | .pand _ _ _ _ => some .c
  | .por _ _ _ _ => some .c
  | .pxor _ _ _ _ => some .c
  | .pnot _ _ _ => some .c
  | .pmov _ _ _ => some .c
  | .br _ _ _ _ => some .c
  | .jmp _ _ => some .c
  | .call _ _ => some .c
  | .jr _ _ => some .c
  | .jalr _ _ _ => some .c
  | .ret _ => some .c
  | .loop _ _ _ => some .c
  | .nop _ => some .c
  | .skip _ _ _ _ => some .c
  | .join _ _ => some .c
  | .exit _ => some .c
  | .ld _ _ _ _ _ _ => some .c
  | .st _ _ _ _ _ _ => some .c
  | .ldx _ _ _ _ _ _ => some .c
  | .stx _ _ _ _ _ _ => some .c
  | .pft _ _ _ _ _ => some .c
  | .ldVm _ _ _ _ _ => some .c
  | .stVm _ _ _ _ _ => some .c
  | .ldxVm _ _ _ _ _ => some .c
  | .stxVm _ _ _ _ _ => some .c
  | .pftVm _ _ _ _ => some .c
  | .amoAdd _ _ _ _ => some .c
  | .amoAnd _ _ _ _ => some .c
  | .amoOr _ _ _ _ => some .c
  | .amoXor _ _ _ _ => some .c
  | .amoMin _ _ _ _ => some .c
  | .amoMax _ _ _ _ => some .c
  | .amoMinn _ _ _ _ => some .c
  | .amoMaxn _ _ _ _ => some .c
  | .amoSwap _ _ _ _ => some .c
  | .cas _ _ _ _ => some .c
  | .arm _ _ _ _ => some .c
  | .arrv _ _ _ _ => some .c
  | .await _ _ _ _ => some .c
  | .bari _ _ _ _ => some .c
  | .bara _ _ _ _ _ => some .c
  | .barw _ _ _ _ => some .c
  | .seal _ _ => some .c
  | .unseal _ _ => some .c
  | .fence _ _ => some .c
  | .csrr _ _ _ => some .c
  | .csrw _ _ _ => some .c
  | .csrs _ _ _ => some .c
  | .csrc _ _ _ => some .c
  | .time _ _ => some .c
  | .view _ _ _ => some .c
  | .tdesc _ _ _ _ => some .c
  | .trap _ _ => some .c
  | .eret _ => some .c
  | .token _ _ _ => some .c
  | .twait _ _ _ => some .c
  | .launch _ _ _ _ => some .c
  | .launchCr _ _ _ _ => some .c
  | .cancelTask _ _ _ _ => some .c
  | .cancelLaunch _ _ _ => some .c
  | .cancelGraph _ _ _ => some .c
  | .cancelPhase _ _ _ => some .c
  | .cancelJob _ _ _ => some .c
  | .phase _ _ => some .c
  | .ckpt _ _ => some .c
  | .estim _ _ => some .c
  | .clstep _ _ _ _ => some .c
  | .clwait _ _ _ _ => some .c
  | .mulw _ _ _ _ => some .c
  | .dictionaryCode e _ => some e
  | .vadd _ _ _ _ _ _ => some .v
  | .vsub _ _ _ _ _ _ => some .v
  | .vmul _ _ _ _ _ _ => some .v
  | .vmin _ _ _ _ _ _ => some .v
  | .vmax _ _ _ _ _ _ => some .v
  | .vdiv _ _ _ _ _ _ => some .v
  | .vfmaF32F64 _ _ _ _ _ _ _ => some .v
  | .vfmaBf16F16 _ _ _ _ _ _ _ => some .v
  | .vfmsF32F64 _ _ _ _ _ _ _ => some .v
  | .vfmsBf16F16 _ _ _ _ _ _ _ => some .v
  | .vfnmaF32F64 _ _ _ _ _ _ _ => some .v
  | .vfnmaBf16F16 _ _ _ _ _ _ _ => some .v
  | .vabs _ _ _ _ _ => some .v
  | .vneg _ _ _ _ _ => some .v
  | .vsqrt _ _ _ _ _ => some .v
  | .vrcp _ _ _ _ _ => some .v
  | .vrsq _ _ _ _ _ => some .v
  | .vexp2 _ _ _ _ _ => some .v
  | .vlog2 _ _ _ _ _ => some .v
  | .vscale _ _ _ _ _ _ => some .v
  | .vand _ _ _ _ _ => some .v
  | .vor _ _ _ _ _ => some .v
  | .vxor _ _ _ _ _ => some .v
  | .vsll _ _ _ _ _ _ => some .v
  | .vsrl _ _ _ _ _ _ => some .v
  | .vsra _ _ _ _ _ _ => some .v
  | .vmulh _ _ _ _ _ _ => some .v
  | .vadds _ _ _ _ _ _ => some .v
  | .vsubs _ _ _ _ _ _ => some .v
  | .vcmp _ _ _ _ _ _ => some .v
  | .vsel _ _ _ _ _ => some .v
  | .vclass _ _ _ _ _ => some .v
  | .vcvt _ _ _ _ _ _ => some .v
  | .vpack _ _ _ _ _ _ => some .v
  | .vunpk _ _ _ _ _ => some .v
  | .vmov _ _ _ _ => some .v
  | .vbcast _ _ _ _ _ => some .v
  | .vext _ _ _ _ _ => some .v
  | .vins _ _ _ _ _ _ => some .v
  | .vperm _ _ _ _ _ _ => some .v
  | .vrotDn _ _ _ _ _ _ => some .v
  | .vrotUp _ _ _ _ _ _ => some .v
  | .vslideDn _ _ _ _ _ _ => some .v
  | .vslideUp _ _ _ _ _ _ => some .v
  | .vredSum _ _ _ _ _ => some .v
  | .vredMin _ _ _ _ _ => some .v
  | .vredMax _ _ _ _ _ => some .v
  | .vscanSum _ _ _ _ _ => some .v
  | .vscanMin _ _ _ _ _ => some .v
  | .vscanMax _ _ _ _ _ => some .v
  | .vld _ _ _ _ _ _ => some .v
  | .vst _ _ _ _ _ => some .v
  | .vlds _ _ _ _ _ _ _ => some .v
  | .vsts _ _ _ _ _ _ => some .v
  | .vgath _ _ _ _ _ _ => some .v
  | .vscat _ _ _ _ _ => some .v
  | .vlut _ _ _ _ _ _ => some .v
  | .vbfx _ _ _ _ _ _ => some .v
  | .vfsh _ _ _ _ _ _ => some .v
  | .vpopc _ _ _ _ _ => some .v
  | .vclz _ _ _ _ _ => some .v
  | .vqnt _ _ _ _ _ _ _ => some .v
  | .vdqnt _ _ _ _ _ _ _ => some .v
  | .vmsel _ _ => some .v
  | .vnop _ => some .v
  | .vJoin _ _ => some .v
  | .vExit _ => some .v
  | .mma _ _ _ _ _ _ => some .m
  | .mmai _ _ _ _ _ _ _ _ => some .m
  | .mmax _ _ _ _ _ _ _ _ => some .m
  | .aclr _ _ => some .m
  | .aadd _ _ _ _ => some .m
  | .ald _ _ _ => some .m
  | .ast _ _ _ _ => some .m
  | .acvt _ _ _ _ _ _ => some .m
  | .tld _ _ _ => some .m
  | .tst _ _ _ _ => some .m
  | .ttr _ _ _ => some .m
  | .trepk _ _ _ => some .m
  | .trepkPk _ _ _ => some .m
  | .mnest _ => some .m
  | .mwait _ => some .m
  | .mstat _ => some .m
  | .mstatClr _ => some .m
  | .mnop _ => some .m
  | .mJoin _ _ => some .m
  | .mExit _ => some .m
  | .xcopy _ _ _ => some .x
  | .xnestCopy _ _ _ => some .x
  | .xnestAcc _ _ _ => some .x
  | .xnestMcast _ _ _ => some .x
  | .xnestStrm _ _ _ => some .x
  | .xmcast _ _ _ => some .x
  | .xacc _ _ _ => some .x
  | .xstrm _ _ _ => some .x
  | .xgath _ _ _ _ => some .x
  | .xwait _ _ => some .x
  | .xfence _ => some .x
  | .xnop _ => some .x
  | .xJoin _ _ => some .x
  | .xExit _ => some .x
  | .resultLanding _ _ => none
  | .accumulatorRead _ => none
  | .ringTimeout _ _ => none
  | .handlerEntry _ => none
  | .frozenTaskReport _ => none
  | .deferredFaultDelivery _ _ => none
  | .taskEnd _ => none
  | .launchAcceptance _ => none
  | .placement _ _ _ _ => none
  | .ageLevelRise _ _ => none
  | .preload _ => none
  | .withdrawal _ => none
  | .bindCommit _ => none
  | .lateStart _ _ => none
  | .governorWindow _ _ => none
  | .phaseBoundary _ => none
  | .phaseWatchdog _ => none
  | .cancelRelease _ => none
  | .homeAtomic _ => none
  | .barwBoundExpiry _ => none
  | .homeControllerAnswer _ _ => none
  | .storePerformed _ => none
  | .regionCount _ _ => none
  | .rearmRefire _ _ => none
  | .awaitBoundExpiry _ => none
  | .generationBump _ => none
  | .requestReplay _ _ => none
  | .sweepComplete _ => none
  | .sealComplete _ => none
  | .unsealComplete _ => none
  | .replicaPlacement _ _ _ _ => none
  | .bankMarkFailing _ _ _ => none
  | .layerFailureNoSpare _ _ _ => none
  | .recoveryPoint _ _ => none
  | .shedComplete _ _ => none
  | .patrolScrub _ _ _ => none
  | .parameterBlockRead _ => none
  | .commandStart _ => none
  | .itemPerformed _ _ => none
  | .commandComplete _ _ => none
  | .itemFailure _ _ => none
  | .errorRecordDrain _ => none
  | .nestStepStart _ => none
  | .nestStepWatchdog _ => none
  | .nestComplete _ => none
  | .preemptionChoice _ _ _ => none
  | .checkpointSettle _ => none
  | .checkpointWrite _ => none
  | .saveFaultService _ _ => none
  | .checkpointRelease _ => none
  | .hangWatchdog _ => none
  | .emergencyCopy _ _ => none
  | .restore _ => none
  | .killAndRerun _ => none
  | .budgetOverrun _ => none
  | .coreSelfCheckFailure _ => none
  | .regrow _ => none
  | .packageReset => none
  | .packageFreeze => none
  | .freeze _ => none
  | .freezeResume => none
  | .ptpEventFrame _ _ _ => none
  | .linkTrainingDone _ => none
  | .linkLoss _ => none
  | .frameReceive _ _ _ => none
  | .fabricPacketReceive _ => none
  | .fabricAck _ _ => none
  | .linkTimeout _ => none
  | .collectiveStepStart _ => none
  | .collectiveStepComplete _ => none
  | .clwaitBoundExpiry _ => none
  | .toclLaunch _ _ _ => none
  | .toclCancel _ _ _ _ => none
  | .toclWrite _ _ _ => none
  | .toclRead _ _ _ => none
  | .regionCreate _ _ _ _ _ _ _ _ => none
  | .regionDestroy _ _ _ => none
  | .regionRead _ _ _ => none
  | .counterSet _ _ _ _ _ => none
  | .sessionBind _ _ _ _ => none
  | .regRead _ _ => none
  | .regWrite _ _ _ => none
  | .groupSet _ _ _ _ _ => none
  | .ingestSet _ _ _ _ _ => none
  | .portSet _ _ _ => none
  | .ruleSet _ _ _ _ => none
  | .routeSet _ _ _ => none
  | .queueSet _ _ _ _ _ _ _ => none
  | .saveSet _ _ _ _ => none
  | .subSet _ _ _ _ _ _ _ => none
  | .trimSet _ _ => none
  | .clkSet _ => none
  | .attest _ _ => none
  | .fwStage _ _ => none
  | .fwCommit _ => none
  | .handoverReady => none
  | .handoverTimeout => none
  | .sensorSample _ _ => none
  | .holdTimerExpiry _ => none
  | .wakeRequest _ => none
  | .wakeAdmit _ => none
  | .wakeRampDone _ _ => none
  | .encodingFault _ _ => none
  | .instructionFetchFault _ _ => none
  | .parkedRecordWrite _ _ _ _ => none

/-- The first stream, in the order C, V, M, X, in whose map the word is an instruction: the words of the four maps
overlap and a table row names no stream (see notes/assumptions). -/
def tableStrm (w : Nat) : Option Strm :=
  match decode .c w with
  | .ok _ => some .c
  | .error _ =>
    match decode .v w with
    | .ok _ => some .v
    | .error _ =>
      match decode .m w with
      | .ok _ => some .m
      | .error _ =>
        match decode .x w with
        | .ok _ => some .x
        | .error _ => none

/-- The instruction the decoder reads from the word of an opcode-table row, laid out as the device stores it. -/
def decodeTableWord (nbits w : Nat) : Option Instr :=
  match tableStrm (w % 2 ^ nbits) with
  | none => none
  | some e =>
    match decodeBytes e (leBytes 4 (w % 2 ^ nbits)) with
    | .ok (i, _) => some i
    | .error _ => none

end Sys2Proof
end

