-- ==== Sys2Proof/Machine/State.lean ====
section
/-!
DEFINITION. Machine/State.lean: everything the spec gives the machine, as plain data, and the machine after reset.
INVENTORY.md lists each piece with its rule and reset value. Fields marked MODEL are the model's own bookkeeping.
-/
namespace Sys2Proof.Machine

/-- No step of this machine ends in a fault: every fault the spec names is taken as the spec describes it, in a next
state (R392 to R399). The type has no constructor. -/
inductive Fault
  deriving DecidableEq, Repr

/-- Why an instruction has no meaning. -/
inductive Refusal
  /-- Raised by an arm of exec whose instruction is not modelled yet; safe (a run stops). -/
  | notModelled (mnemonic : String)
  deriving DecidableEq, Repr

/-- A tile, accumulator or weight view (R37, R129, R213): rows and columns as counts, maj true for column-major. -/
structure TView where
  base : Nat
  pitch : Nat
  rows : Nat
  cols : Nat
  fmt : Fmt
  maj : Bool
  deriving DecidableEq, Repr, Inhabited

/-- A region entry (R296); base in bytes. -/
structure Region where
  spc : Space
  base : Nat
  asid : BitVec 16
  gen : BitVec 8
  k : Nat
  sealed : Bool
  rearm : Bool
  act : BitVec 2
  flt : Bool
  ovf : Bool
  fired : Bool
  valid : Bool
  fires : BitVec 16
  count : Nat
  target : Nat
  arg : BitVec 60
  deriving DecidableEq, Repr, Inhabited

/-- An XB page tag that is VALID (R286). -/
structure XTag where
  fmt : Fmt
  geo : Nat
  smBase : Nat
  deriving DecidableEq, Repr, Inhabited

/-- How a CSR write acts (R125). -/
inductive CsrOp | w | s | c
  deriving DecidableEq, Repr, Inhabited

/-- The products of the MMA family (R201): no scales, group records, or block scales; the geometry code of R147. -/
inductive MmaKind | plain | group | block
  deriving DecidableEq, Repr, Inhabited

/-- A partial accumulator that the matrix engine keeps (R50): operands resolved at issue, what has been read so far. -/
structure MmaJob where
  kind : MmaKind
  geo : Nat
  a : TView
  b : TView
  bIsWb : Bool
  acc : TView
  zero : Bool
  st : BitVec 32
  /-- scale codes or group records of A rows and B columns, by k-group, read in slot s (R215) -/
  sa : List (List Nat)
  sb : List (List Nat)
  /-- element codes of A rows and B columns read so far, one chunk a slot (R206) -/
  ra : List (List Nat)
  rb : List (List Nat)
  chunks : Nat
  age : Nat
  readAt : Nat
  accv : Option (List (List Nat))
  deriving DecidableEq, Repr, Inhabited

/-- The tile moves (R219, R220). -/
inductive TileOp | tld | tst (sat : Bool) | ttr | trepk | trepkPk
  deriving DecidableEq, Repr, Inhabited

/-- A tile move in flight: its source bytes are read 128 a slot (R206). -/
structure TileJob where
  op : TileOp
  srcSp : Space
  src : TView
  dst : TView
  rnd : Rnd
  bytes : List Byte
  chunks : Nat
  age : Nat
  deriving DecidableEq, Repr, Inhabited

/-- Where a landing-queue entry puts its value, resolved at issue (R39, R50). -/
inductive Dest
  | nothing
  | scalar (r : SReg) (v : Word)
  | pred (r : PReg) (v : Bool)
  | mask (r : KReg) (v : BitVec 128)
  | vec (r : VReg) (addr : Nat) (v bits : Vec)
  | eph (r : VReg) (v : Vec)
  | cells (sp : Space) (bytes : List (Nat × Byte))
  | csr (n : BitVec 10) (op : CsrOp) (v : Word)
  | view (r : VReg) (base : BitVec 32)
  | tview (n : TReg) (v : Option TView)
  | aview (n : TReg) (v : Option TView)
  | mma (j : MmaJob)
  | tile (j : TileJob)
  | mstat (clr : Bool)
  deriving DecidableEq, Repr, Inhabited

/-- A landing-queue entry (R50): slots to go, destination, events it raises, signals that travel with it (R29), the
tokens its instruction consumed and its PC (for a fault found in a later slot of its occupancy, R206). -/
structure Landing where
  left : Nat
  dest : Dest
  vfl : BitVec 6
  mfl : BitVec 5
  sp : Bool
  sn : Bool
  tookP : Bool
  tookN : Bool
  pc : VAddr
  /-- the instruction came from the dictionary -/
  dict : Bool
  deriving DecidableEq, Repr, Inhabited

/-- The read-modify-writes of AMO (R293). -/
inductive AmoOp | add | and | or | xor | min | max | minn | maxn | swap
  deriving DecidableEq, Repr, Inhabited

/-- A request that an instruction has sent beyond the core and waits on (R48, R290). -/
inductive Req
  | ld (va : VAddr) (n : Nat)
  | st (va : VAddr) (n : Nat) (v : Word)
  | amo (op : AmoOp) (va : VAddr) (b : Word)
  | cas (va : VAddr) (d b : Word)
  | bari (va : VAddr) (b : Word)
  | bara (va : VAddr) (c : Nat) (drop : Bool)
  | barw (va : VAddr)
  | arm (a b d : Word)
  | arrv (a b : Word)
  | seal (va : VAddr)
  | unseal (va : VAddr)
  | blk (va : VAddr) (n : Nat)
  | launch (q : BitVec 6) (pkt : BitVec 1024) (oor : Bool)
  /-- a CANCEL whose tasks are being handled: tasks affected, and those still to be handled -/
  | cancel (n : Nat) (pend : List (Nat × Nat))
  deriving DecidableEq, Repr, Inhabited

/-- The answer to a request. -/
inductive Ans
  | fault (c : Cause) (addr : Word)
  | word (v : Word)
  | bytes (bs : List Byte)
  | done
  deriving DecidableEq, Repr, Inhabited

/-- A sent request, the generation it was translated under (R287), and its answer once it has come. -/
structure Sent where
  req : Req
  gen : BitVec 8
  replayed : Bool
  ans : Option Ans
  deriving DecidableEq, Repr, Inhabited

/-- A stream that is not live, is live, or has executed EXIT (R23, R57). -/
inductive Live | never | live | exited
  deriving DecidableEq, Repr, Inhabited

/-- The word a stream holds for issue: a full word fetched at the PC, or a dictionary code's index (R65, R67, R69). -/
inductive Held
  | word (w : BitVec 32)
  | code (i : BitVec 10)
  deriving DecidableEq, Repr, Inhabited

/-- One stream of a task (R23, R45 to R50). -/
structure Stream where
  live : Live
  pc : VAddr
  /-- instructions still to annul (R116) -/
  skip : Nat
  /-- issue slots left of a multi-slot occupancy (R47) -/
  occ : Nat
  queue : List Landing
  /-- the wait in progress: its key (queue index, 8 JOIN, 9 PHASE, 10 another) and its count (R30) -/
  wait : Option (Nat × Nat)
  join : Option (BitVec 6)
  sent : Option Sent
  /-- deferred fault of a failed item (R351): cause, address -/
  dfault : Option (Cause × Word)
  held : Option Held
  /-- a PHASE arrival already made, and the phase number its boundary gave (R258); C only -/
  phaseArr : Bool
  phaseGo : Option (BitVec 16)
  /-- a FENCE holds the next instruction until earlier accesses are performed (R136); C only -/
  fence : Bool
  /-- the physical address of the virtual barrier object that a BARW waits at, and whether its home has sent the notice of an
  advance (R266); C only -/
  bar : Option (Nat × Bool)
  deriving DecidableEq, Repr, Inhabited

/-- The commands of the X stream (R341). -/
inductive CmdKind | copy | acc | mcast | strm | gath | fence
  deriving DecidableEq, Repr, Inhabited

/-- Position of a copy nest (R366, R369, R372): the step in progress (opened) or next to start. -/
structure NestPos where
  tab : BitVec 512
  step : Nat
  opened : Bool
  f0 : BitVec 16
  waited : Nat
  deriving DecidableEq, Repr, Inhabited

/-- An outstanding X command (R341, R343): kind, nest, snapshot of its block, what it still owes. -/
structure XCmd where
  kind : CmdKind
  nest : Option NestPos
  blk : BitVec 512
  blkAddr : Word
  ix : Nat
  sp : Bool
  sn : Bool
  started : Bool
  /-- items performed so far, of the step in progress for a nest -/
  item : Nat
  finished : Bool
  /-- an item has failed (R351) -/
  failed : Bool
  /-- a failure whose record has still to be written: cause, lowest failing address, KIND, step index (R402) -/
  owed : Option (Cause × Nat × Nat × Nat)
  /-- a completion arrival still owed (R347) -/
  arrive : Bool
  /-- issued before the task's arrival in the current phase (R257) -/
  old : Bool
  deriving DecidableEq, Repr, Inhabited

/-- A running matrix nest (R369, R372 to R374): active table, body with its views and scalars, next step. -/
structure MNest where
  tab : BitVec 512
  job : MmaJob
  z : Bool
  saBase : Nat
  saPitch : Nat
  sbBase : Nat
  sbPitch : Nat
  step : Nat
  f0 : BitVec 16
  waited : Nat
  sp : Bool
  sn : Bool
  fail : Option (Cause × Nat)
  /-- slots of M after which every result that was in flight at the MNEST has landed, and that number at the engines' last turn
  (R222, R318) -/
  ahead : Nat
  seen : Nat
  /-- issued before the task's arrival in the current phase (R257) -/
  old : Bool
  deriving DecidableEq, Repr, Inhabited

/-- A collective step in progress (R446 to R449): its number within its group, this rank's bytes as read at its start,
whether its bytes are written or sent, and its failure. -/
structure CStep where
  gstep : Nat
  data : List Byte
  wrote : Bool
  fail : Option (Cause × Nat)
  deriving DecidableEq, Repr, Inhabited

/-- A collective table of a task (R447, R449, R451). -/
structure CTable where
  handle : BitVec 16
  recs : List (BitVec 512)
  /-- group step numbers of the records, given when the table was posted (R446) -/
  ms : List Nat
  /-- steps that have started; those of them in progress, by index -/
  started : Nat
  live : FMap CStep
  failed : Bool
  /-- posted before the task's arrival in the current phase (R257) -/
  old : Bool
  deriving DecidableEq, Repr, Inhabited

/-- An out-of-range access (R44, R60, R61). -/
structure Oor where
  stream : BitVec 2
  space : BitVec 4
  write : Bool
  addr : Word
  deriving DecidableEq, Repr, Inhabited

/-- Allotments of a task in bytes, already rounded up to 4 KiB (R43, R233). -/
structure Allot where
  ofs : Nat
  acs : Nat
  wb : Nat
  xb : Nat
  sm : Nat
  t1 : Nat
  deriving DecidableEq, Repr, Inhabited

/-- The context of a task (R412): everything it carries besides its buffers. -/
structure Ctx where
  s : FMap Word
  p : FMap Bool
  k : FMap (BitVec 128)
  views : FMap (BitVec 32)
  tv : FMap TView
  av : FMap TView
  /-- ephemeral tags: value and slots since landing (R51) -/
  eph : FMap (Vec × Nat)
  strC : Stream
  strV : Stream
  strM : Stream
  strX : Stream
  tok : FMap Nat
  /-- MODEL: tokens deposited in this cycle, not yet consumable (R28) -/
  fresh : FMap Nat
  rsv : FMap Nat
  wdog : BitVec 32
  oorFlag : Bool
  /-- MODEL: the record was made in this cycle -/
  oorFresh : Bool
  /-- MODEL: the out-of-range access of this cycle that R44 names: lowest stream, then lowest address -/
  oorNow : Option Oor
  oorStream : BitVec 2
  oorSpace : BitVec 4
  oorWrite : Bool
  oorAddr : Word
  lend : BitVec 3
  cause : BitVec 8
  trapPc : Word
  trapAddr : Word
  nestCause : BitVec 8
  nestAddr : Word
  tsp : BitVec 16
  tnest : Bool
  tdict : Bool
  tdefer : Bool
  tstream : BitVec 2
  te : Bool
  depCount : BitVec 32
  sat : Bool
  daz : Bool
  ftz : Bool
  srk : BitVec 5
  crm : BitVec 3
  arm : BitVec 3
  vflags : BitVec 6
  /-- MODEL: events raised in this cycle, which a clear of this cycle leaves set (R16): of VFLAGS and of MSTAT -/
  vNow : BitVec 6
  mNow : BitVec 5
  actm : BitVec 3
  mflags : BitVec 5
  mcrm : BitVec 3
  msnap : BitVec 5
  wv : FMap Word
  mn : FMap Word
  dict : FMap (BitVec 32)
  regs : FMap Region
  /-- MODEL: slots of core entries that have fired in this cycle, whose bytes stand at the cycle's end (R329) -/
  firedNow : List Nat
  tags : FMap XTag
  /-- MODEL: what the writes of this cycle do to the page tags: agent, page, the tag it gets or none (R53, R286) -/
  tagOps : List (Nat × Nat × Option XTag)
  /-- MODEL: exchange registers in which a result of V has landed in this cycle (R174) -/
  vLanded : List Nat
  cmds : List XCmd
  mnest : Option MNest
  tables : List CTable
  handle : BitVec 16
  est : BitVec 32
  estNs : BitVec 64
  allot : Allot
  /-- the C stream set aside while a handler runs (R482) -/
  shadow : Option Stream
  /-- first failure of an item whose stream had exited: the task ends FAILED (R351) -/
  failed : Option (Cause × Word)
  deriving DecidableEq, Repr, Inhabited

/-- A bind record that is VALID (R243). -/
structure BindRec where
  lid : BitVec 32
  tidx : BitVec 24
  grants : BitVec 3
  budget : BitVec 32
  deriving DecidableEq, Repr, Inhabited

/-- A buffer write of the current cycle (R53): the agent (0 to 3 the streams, 4 an engine), the byte, and the bits of it that
are written (R186). -/
structure WEnt where
  agent : Nat
  sp : Space
  addr : Nat
  b : Byte
  m : Byte
  deriving DecidableEq, Repr, Inhabited

/-- A frozen core (R393, R399): the faulting stream, the fault, and whether a sent C instruction has still to complete
before the freeze takes hold; report is set once the handler will not run and the task waits for the management core. -/
structure Frz where
  strm : Strm
  cause : Cause
  addr : Word
  pc : VAddr
  defer : Bool
  dict : Bool
  /-- TSTAT as it was before the fault (R401) -/
  oldTstat : Word
  settled : Bool
  report : Bool
  deriving DecidableEq, Repr, Inhabited

/-- Power states of a core (R472) with the DEVTIME at which they began; WAITING with the arrival of its request, 2 × CYCLE at the
boundary before a cycle and one more in it (R473). -/
inductive Pwr
  | active
  | hold (since : Nat)
  | retained
  | waiting (since : Nat)
  | waking (since : Nat)
  deriving DecidableEq, Repr, Inhabited

/-- A translation held in a core's translation cache (R288): virtual page, its PTE, level of the leaf. -/
structure Tlb where
  asid : BitVec 16
  gen : BitVec 8
  page : Nat
  pte : Word
  lvl : Nat
  deriving DecidableEq, Repr, Inhabited

/-- A store accepted by its home and not yet performed at its bank (R290), with the generation it was translated under
(R287). -/
structure PStore where
  va : Nat
  pa : Nat
  bytes : List Byte
  gen : BitVec 8
  deriving DecidableEq, Repr, Inhabited

/-- Why a context is being saved. -/
inductive SaveWhy | ckpt | preempt | budget | recover
  deriving DecidableEq, Repr, Inhabited

/-- A checkpoint in progress (R411, R413 to R415, R417). -/
structure Save where
  why : SaveWhy
  /-- false until every command has settled -/
  settled : Bool
  slot : Nat
  /-- next section to write -/
  sect : Nat
  /-- next 64 KiB block within the section -/
  blk : Nat
  since : Nat
  paused : Bool
  emerg : Bool
  /-- CKPT only (R417): the destination and ring bits of the instruction, and its status once the save has ended -/
  dest : Option (SReg × Ring)
  done : Option Nat
  deriving DecidableEq, Repr, Inhabited

/-- A restore in progress (R416). -/
structure Restore where
  slot : Nat
  /-- next section to read, and next 64 KiB block within it -/
  sect : Nat
  blk : Nat
  /-- the restore serves a regrowing (R419), which has its own record -/
  regrown : Bool
  paused : Option (Cause × Nat)
  deriving DecidableEq, Repr, Inhabited

/-- Why the streams of a running task are being stopped for good (R259, R408, R410); ended: its records have still to be written
(R402). -/
inductive Stop | kill | cancel | overrun | ended
  deriving DecidableEq, Repr, Inhabited

/-- One core site and the task it runs. -/
structure Core where
  pcol : BitVec 5
  regrown : Bool
  run : Option BindRec
  next : Option BindRec
  preload : Bool
  ctx : Ctx
  ofs : FMap Byte
  acs : FMap Byte
  wb : FMap Byte
  xb : FMap Byte
  sm : FMap Byte
  cr : FMap Byte
  t1 : FMap Byte
  /-- units with an uncorrectable error: space and unit number (R315) -/
  bad : List (Space × Nat)
  /-- MODEL: writes of the current cycle (R53) -/
  wlog : List WEnt
  /-- MODEL: units that a write of this cycle covers whole and so repairs (R315), with the agent that wrote -/
  clr : List (Nat × Space × Nat)
  frz : Option Frz
  lender : Option CoreId
  pwr : Pwr
  /-- the envelope governor holds V and M in this window (R251) -/
  gov : Bool
  /-- the µs after the one in which the governor last ended a window, and the average that it measured, in mW (R251) -/
  govUs : Nat
  govMw : Nat
  tlb : List Tlb
  pend : List PStore
  save : Option Save
  restore : Option Restore
  stop : Option Stop
  /-- its site has failed a self-check and has not been replaced (R419, R420) -/
  dead : Bool
  deriving DecidableEq, Repr, Inhabited

/-- Life-cycle states of a task (R248). -/
inductive TaskSt | queued | placed | running | frozen | saved | done | failed | cancelled
  deriving DecidableEq, Repr, Inhabited

/-- The device-only record of a saved context (section 0 of R413). -/
structure Saved where
  ctx : Ctx
  serial : BitVec 32
  heat : BitVec 2
  grants : BitVec 3
  /-- units with an uncorrectable error in the saved bytes: 0 own core, 1 to 3 the lenders (R315) -/
  bad : List (Nat × Space × Nat)
  deriving DecidableEq, Repr, Inhabited

/-- The save area of a task (R413). -/
structure SaveArea where
  base : VAddr
  slotSize : Nat
  latest : Option Nat
  serial : BitVec 32
  slots : FMap Saved
  /-- a context written into an emergency area and not yet copied (R415): the site, the core it was, its record -/
  emerg : Option (Nat × CoreId × Saved)
  deriving DecidableEq, Repr, Inhabited

/-- A task of a launch (R231, R241, R244, R248, R408, R409). -/
structure Task where
  st : TaskSt
  core : Option CoreId
  /-- the cluster that holds its T2 regions: that of its last commit (R324) -/
  t2home : Option Nat
  /-- total ready time in ns (R241) -/
  age : Nat
  ageLevel : Nat
  mark0 : Bool
  mark1 : Bool
  /-- has committed once, so its gates are behind it (R244) -/
  passed : Bool
  commitNs : Nat
  /-- run time before the last save, in ns (R408) -/
  ranNs : Nat
  budget : BitVec 32
  area : Option SaveArea
  reruns : Nat
  /-- resumes from its latest checkpoint at its next commit (R416) -/
  resume : Bool
  /-- the terminal state that it reaches once its records are written (R402) -/
  closing : Option TaskSt
  deriving DecidableEq, Repr, Inhabited

/-- A footprint entry (R322). -/
structure Foot where
  spc : Space
  base : Nat
  k : Nat
  kind : Nat
  pert : Bool
  deriving DecidableEq, Repr, Inhabited

/-- An accepted launch (R230 to R237, R244). -/
structure Launch where
  pkt : BitVec 1024
  q : BitVec 6
  asid : BitVec 16
  foot : List Foot
  done : Nat
  failed : Nat
  /-- marks and credits of the two gates (R244) -/
  mark0 : Bool
  mark1 : Bool
  /-- credits received so far under an EACH gate: credit n belongs to task n -/
  cred0 : Nat
  cred1 : Nat
  lastCore : Option CoreId
  reported : Bool
  /-- the highest index that has committed on each core (R245) -/
  top : FMap Nat
  tasks : FMap Task
  deriving DecidableEq, Repr, Inhabited

/-- A graph or job counter (R232). -/
structure Ctr where
  done : BitVec 32
  failed : BitVec 32
  target : BitVec 32
  fired : Bool
  deriving DecidableEq, Repr, Inhabited

/-- A phase counter (R256): held arrivals while its boundary is in progress (R257). -/
structure PhCtr where
  count : BitVec 32
  target : BitVec 32
  phno : BitVec 16
  clk : Bool
  boundary : Bool
  heldArr : BitVec 32
  deriving DecidableEq, Repr, Inhabited

/-- A launch queue and its error ring (R240, R402, R474). -/
structure Queue where
  level : BitVec 3
  asid : BitVec 16
  ring : VAddr
  ringK : Nat
  cons : VAddr
  prod : Nat
  seq : BitVec 32
  /-- records waiting for room (R402) -/
  waiting : List (BitVec 512)
  deriving DecidableEq, Repr, Inhabited

/-- A kernel's span in one stream section of an image: first and last parcel offset, heat class (R94). -/
structure Span where
  strm : Strm
  first : Nat
  last : Nat
  heat : Nat
  deriving DecidableEq, Repr, Inhabited

/-- An image loaded by Verez (R94, R233, R237). -/
structure Image where
  gen : BitVec 8
  asid : BitVec 16
  features : BitVec 3
  secC : VAddr
  secV : VAddr
  secM : VAddr
  secX : VAddr
  spans : List Span
  deriving DecidableEq, Repr, Inhabited

/-- An address space (R282, R287, R289, R474). -/
structure ASpace where
  gen : BitVec 8
  retired : Bool
  root : Nat
  sweep : Bool
  saveBase : Nat
  saveSize : Nat
  deriving DecidableEq, Repr, Inhabited

/-- Who writes beyond the cores, as the reports of its writes need it (R298, R299): a task on a core, with the KIND of its records;
frame ingest, for an address space; another agent: the host, a record, a firing's arrival. -/
inductive WSrc
  | task (lid : BitVec 32) (tidx : BitVec 24) (core : CoreId) (kind : Nat)
  | frame (asid : BitVec 16)
  | dev
  deriving DecidableEq, Repr, Inhabited

/-- A write that may be performed again (R298): the bytes that it performed, by physical address; for a virtual write the address
space and the generation under which it was translated, and its address; and the pieces written since. -/
structure Written where
  via : Option (BitVec 16)
  gen : BitVec 8
  addr : Nat
  cells : List (Nat × List Byte)
  later : List (Nat × Nat)
  deriving DecidableEq, Repr, Inhabited

/-- Bytes counted at a bank and forwarded to a region home, with what an overflow report needs (R297, R299) and the
identity of the write (R298). -/
structure CountMsg where
  entry : Nat
  n : Nat
  addr : Nat
  src : WSrc
  wid : Nat
  deriving DecidableEq, Repr, Inhabited

/-- A write beyond the core whose acknowledgement its source has not retired (R298): its identity, its source, and what it
performed. -/
structure UWrite where
  wid : Nat
  src : WSrc
  w : Written
  deriving DecidableEq, Repr, Inhabited

/-- An error record without its TIME, which is set when it is written (R403). -/
structure Rec where
  typ : Nat
  cause : Nat
  kind : Nat
  core : Option CoreId
  lid : Nat
  tidx : Nat
  tag : Nat
  addr : Nat
  pc : Nat
  aux0 : Nat
  aux1 : Nat
  deriving DecidableEq, Repr, Inhabited

/-- What a region home sends, in its order (R332): a notify word; an action record that has still to be handed over, with
the address space of its entry; one that waits in a queue for room. -/
inductive HomeMsg
  | notify (w : BitVec 128)
  | action (asid : BitVec 16) (r : Rec)
  | handed (q : Nat) (bits : BitVec 512)
  deriving DecidableEq, Repr, Inhabited

/-- What the device sends to the host over TOCL (R301, R453, R475). -/
inductive OutMsg
  | notify (w : BitVec 128)
  | advisory (core : CoreId) (lid : BitVec 32) (tidx : BitVec 24) (count : BitVec 32)
  | answer (h : Toc) (status : Nat) (data : List Nat)
  | mgmt (rec : List Nat)
  /-- the answer to a command that Botra gives through the management port (R474) -/
  | port (status : Nat) (data : List Nat)
  | bootStatus (step : Nat) (cause : BootCause)
  deriving DecidableEq, Repr, Inhabited

/-- An ingest queue (R440 to R442). -/
structure Ingest where
  base : VAddr
  cons : VAddr
  asid : BitVec 16
  k : Nat
  slotMode : Bool
  slot : Nat
  prod : Nat
  seq : BitVec 32
  drops : BitVec 32
  deriving DecidableEq, Repr, Inhabited

/-- A subscription (R468 to R471). -/
structure Sub where
  base : VAddr
  cons : VAddr
  asid : BitVec 16
  k : Nat
  kind : Nat
  hold : Bool
  hclass : BitVec 2
  index : Nat
  high : Word
  low : Word
  above : Bool
  prod : Nat
  seq : BitVec 32
  drops : BitVec 32
  deriving DecidableEq, Repr, Inhabited

/-- A link port (R437 to R439). -/
structure Port where
  maxf : BitVec 14
  st : BitVec 4
  mode : BitVec 2
  dropped : Nat
  rules : FMap Word
  /-- frames sent by FSEND, last byte left the MAC (R447, R449) -/
  sentFrames : List (List Byte)
  deriving DecidableEq, Repr, Inhabited

/-- A collective group (R446): owner, devices in rank order, own rank, steps posted so far. -/
structure Group where
  asid : BitVec 16
  devs : List (BitVec 12)
  rank : Nat
  posted : Nat
  deriving DecidableEq, Repr, Inhabited

/-- An open remote receive (R447): channel, peer, destination, length, the parts of it that are filled as offsets of their first
bytes and of what follows them, the SENDs that have entered it, its table's core. -/
structure Recv where
  chan : BitVec 8
  peer : BitVec 12
  dst : Nat
  len : Nat
  filled : List (Nat × Nat)
  sends : List (BitVec 12 × BitVec 32)
  asid : BitVec 16
  core : CoreId
  handle : BitVec 16
  step : Nat
  deriving DecidableEq, Repr, Inhabited

/-- A packet that has reached this device (R298): the cause it was acknowledged with once it has been, and what it has performed. -/
structure SeenPkt where
  src : BitVec 12
  id : BitVec 32
  cause : Option Nat
  w : Written
  deriving DecidableEq, Repr, Inhabited

/-- A fabric packet not yet acknowledged (R444), and whether it has been sent: it waits for staging credit before (R446). -/
structure OutPkt where
  pkt : FabPkt
  port : BitVec 4
  core : CoreId
  handle : BitVec 16
  step : Nat
  sent : Bool
  sentNs : Nat
  deriving DecidableEq, Repr, Inhabited

/-- A TOCL session (R483). -/
structure Session where
  asid : Option (BitVec 16)
  seq : BitVec 32
  deriving DecidableEq, Repr, Inhabited

/-- States of a layer of a die (R313); SHED_PENDING with the DEVTIME of its failure; SHEDDING before its jobs are off, and while the
sweep runs. -/
inductive LayerSt | normal | shedPending (since : Nat) | shedding | sweeping | shed
  deriving DecidableEq, Repr, Inhabited

/-- A live firmware update (R478). -/
inductive FwStage | idle | quiesced (since : Nat)
  deriving DecidableEq, Repr, Inhabited

/-- Management registers (R314, R407, R415, R435, R466, R484). -/
structure Mgmt where
  present : BitVec 3
  usable : BitVec 3
  lgen : BitVec 8
  depThresh : BitVec 32
  caps : FMap Word
  clkCur : BitVec 8
  clkReq : BitVec 8
  clkDefer : Bool
  /-- MODEL: DEFER was set in this cycle, which a clear of this cycle leaves set (R16) -/
  clkNow : Bool
  devRate : BitVec 32
  ptpOff : BitVec 64
  ptpEn : Bool
  ptpPort : BitVec 4
  linkTo : BitVec 32
  drainMax : FMap Word
  hangWd : BitVec 32
  emBase : FMap Word
  debug : Bool
  deriving DecidableEq, Repr, Inhabited

/-- Who takes the next turn of a cycle: a stream of a core, the engines of a core (MODEL). -/
inductive Agent
  | strm (core : CoreId) (e : Strm)
  | engine (core : CoreId)
  deriving DecidableEq, Repr, Inhabited

/-- The package. -/
structure State where
  cycle : BitVec 64
  devTime : BitVec 64
  devFrac : BitVec 32
  cores : FMap Core
  /-- contents of the T2 slices by cluster (R275), and their units with an uncorrectable error (R315) -/
  t2 : FMap (FMap Byte)
  t2bad : List (Nat × Nat)
  /-- T3, T4 and LPDDR6 by physical address (R277) -/
  mem : List Host.Cell
  /-- aligned 8-byte words of mem with an uncorrectable error (R315) -/
  bad : List Nat
  /-- die region entries at die × 65,536 + index (R295) -/
  regions : FMap Region
  /-- MODEL: counted bytes on their way to their homes (R297) -/
  counts : List CountMsg
  /-- identity of the next write beyond a core, and the writes whose acknowledgements are not retired (R298) -/
  wid : Nat
  unacked : List UWrite
  /-- what region homes have still to send: homes of die entries by die, those of core entries at 4 + core (R332) -/
  homeQ : FMap (List HomeMsg)
  /-- translation caches of the engines (R288), at die × 64 + engine: the T3 engines from 0, the T4 engines from 16, the streaming
  engine at 32; the T2 engines at 256 + cluster -/
  etlb : FMap (List Tlb)
  /-- entries that have fired in this cycle (R300): die entries as die × 65,536 + index, core entries as
  2^18 + core × 64 + slot -/
  refire : List Nat
  /-- replicas of sealed regions: entry, level, die (R310) -/
  replicas : List (Nat × Nat × Nat)
  graphs : FMap Ctr
  jobs : FMap Ctr
  phases : FMap PhCtr
  queues : FMap Queue
  launches : FMap Launch
  nextLid : BitVec 32
  /-- run budgets of the launch queues in µs, from the partition-policy record (R243) -/
  budgets : FMap (BitVec 32)
  images : FMap Image
  spaces : FMap ASpace
  /-- parked bind records at die × 1,024 + index: core and record (R301) -/
  parked : FMap (CoreId × BindRec)
  /-- parked records that a START action holds until the next slot is free -/
  parkedGo : List Nat
  out : List OutMsg
  /-- TOCL CANCELs whose tasks are being handled: heading, tasks affected, those still to be handled (R453) -/
  toclCancels : List (Toc × Nat × List (Nat × Nat))
  mgmt : Mgmt
  ports : FMap Port
  ingest : FMap Ingest
  subs : FMap Sub
  groups : FMap Group
  devId : BitVec 12
  routes : FMap (BitVec 4)
  recvs : List Recv
  outPkts : List OutPkt
  /-- packets that wait in staging (R446), and packets counted whose identities are still kept (R298) -/
  staged : List FabPkt
  seenPkts : List SeenPkt
  /-- SENDs whose receive is filled: channel, device, SEND (R449) -/
  doneSends : List (BitVec 8 × BitVec 12 × BitVec 32)
  /-- collective steps that have failed because matched steps differ: group, step (R449) -/
  collFails : List (Nat × Nat)
  /-- packets forwarded toward other devices, with their port (R444) -/
  forwarded : List (BitVec 4 × FabPkt)
  pktId : BitVec 32
  /-- acknowledgements sent to other devices: device, packet, cause of a refusal or 0 (R444, R449) -/
  acks : List (BitVec 12 × BitVec 32 × Nat)
  sessions : FMap Session
  ctlSeq : BitVec 32
  layers : FMap LayerSt
  /-- banks in error without a spare: die, level, bank (R313); banks marked failing (R312) -/
  deadBanks : List (Nat × Nat × Nat)
  failing : List (Nat × Nat × Nat)
  /-- groups of 32 banks whose spare is in use: die, level, group (R312) -/
  sparedGroups : List (Nat × Nat × Nat)
  corrected : Nat
  /-- corrected errors that LPDDR6 has reported, by channel number 0 to 95 (R278, R279) -/
  lpCorrected : FMap Nat
  /-- spare sites in use, at die × 8 + row, with the core each stands for; none once it has failed itself (R419) -/
  spares : FMap (Option CoreId)
  emergUsed : List Nat
  trims : FMap (BitVec 16)
  /-- the voltages that islands still move to (R465) -/
  trimGoal : FMap (BitVec 16)
  /-- the µs after the one in which each sensor was last sampled, at kind × 65,536 + index (R469) -/
  sampled : FMap Nat
  /-- in-rush arbiter of each die: cores waiting, in arrival order, those of one cycle by number (R473) -/
  arbiter : FMap (List CoreId)
  /-- what the boot has failed at (R475) -/
  bootFail : Option BootCause
  /-- MODEL: what the ROM, the self-test or the training of the next boot will meet -/
  bootFinds : Option BootCause
  /-- configuration records in flash by TYPE: spare map, trims, partition policy, owner key; one that is not listed stands as it
  was manufactured (R475, R476) -/
  flashRecs : FMap FwRec
  fwSlots : FMap FwRec
  fwActive : Nat
  fwStage : FwStage
  fwMin : BitVec 32
  attLog : List (Nat × Nat × Nat × BitVec 512)
  frozen : Bool
  /-- requests that wait for an earlier one of their session, or for the end of a quiescent point (R453, R479) -/
  tocHeld : List Instr
  /-- MODEL: events offered by Botra, the host and the environment, first offered first -/
  agenda : List Instr
  /-- MODEL: agents that have still to take their turn in this cycle -/
  sched : List Agent
  /-- MODEL: the core whose turn it is -/
  cur : CoreId
  /-- MODEL: controllers answer through events instead of at once -/
  memHold : Bool
  /-- MODEL: counter that the free values are read at -/
  freeCtr : Nat
  deriving DecidableEq, Repr

/-- A stream before any bind: never live, nothing in flight. -/
def Stream.reset : Stream :=
  { live := .never, pc := 0, skip := 0, occ := 0, queue := [], wait := none, join := none, sent := none,
    dfault := none, held := none, phaseArr := false, phaseGo := none, fence := false, bar := none }

/-- The task-visible state that a bind sets (R24, R59, R168, R209, R397) before its own values enter. -/
def Ctx.reset : Ctx :=
  { s := [], p := [], k := [], views := [], tv := [], av := [], eph := [],
    strC := Stream.reset, strV := Stream.reset, strM := Stream.reset, strX := Stream.reset,
    tok := [], fresh := [], rsv := [], wdog := 0x01000000, oorFlag := false, oorFresh := false, oorNow := none, oorStream := 0, oorSpace := 0,
    oorWrite := false, oorAddr := 0, lend := 0, cause := 0, trapPc := 0, trapAddr := 0, nestCause := 0,
    nestAddr := 0, tsp := 0, tnest := false, tdict := false, tdefer := false, tstream := 0, te := false,
    depCount := 0, sat := false, daz := false, ftz := false, srk := 8, crm := 0, arm := 0, vflags := 0, vNow := 0, mNow := 0, actm := 0,
    mflags := 0, mcrm := 0, msnap := 0, wv := [], mn := [], dict := [], regs := [], firedNow := [], tags := [], tagOps := [], vLanded := [], cmds := [],
    mnest := none, tables := [], handle := 0, est := 0, estNs := 0,
    allot := { ofs := 0, acs := 0, wb := 0, xb := 0, sm := 0, t1 := 0 },
    shadow := none, failed := none }

/-- A core site after reset: logical core c at its own physical column (R2, R55), no task, its hold timer
started (R472). -/
def Core.reset (c : Nat) : Core :=
  { pcol := BitVec.ofNat 5 (c % 16), regrown := false, run := none, next := none, preload := false, ctx := Ctx.reset,
    ofs := [], acs := [], wb := [], xb := [], sm := [], cr := [], t1 := [], bad := [], wlog := [], clr := [], frz := none,
    lender := none, pwr := .hold 0, gov := false, govUs := 0, govMw := 0, tlb := [], pend := [], save := none, restore := none, stop := none, dead := false }

/-- Management registers after reset: the stated values, and the cfg values that Config names. The cfg values of USED1 to USED4,
DEGR and SHED of CAPS0 to CAPS3 are the model's choice: no spare in use, no layer degraded or shed (log entry 1). -/
def Mgmt.reset : Mgmt :=
  { present := Config.present, usable := Config.usable, lgen := Config.lgen, depThresh := Config.depThresh,
    caps := [(0, (Config.lpch.setWidth 64) <<< 40), (1, (Config.lpch.setWidth 64) <<< 40),
      (2, (Config.lpch.setWidth 64) <<< 40), (3, (Config.lpch.setWidth 64) <<< 40)],
    clkCur := 0x15, clkReq := 0x15, clkDefer := false, clkNow := false, devRate := 0, ptpOff := 0, ptpEn := false, ptpPort := 0,
    linkTo := 0, drainMax := [], hangWd := 0, emBase := [(0, Config.emBase 0), (1, Config.emBase 1), (2, Config.emBase 2), (3, Config.emBase 3)], debug := Config.debugMode }

/-- The machine right after package reset: nothing runs and memory lists nothing. -/
def State.reset : State :=
  { cycle := 0, devTime := 0, devFrac := 0, cores := [], t2 := [], t2bad := [], mem := [], bad := [], regions := [],
    counts := [], wid := 0, unacked := [], homeQ := [], etlb := [], refire := [], replicas := [], graphs := [], jobs := [], phases := [], queues := [], launches := [],
    nextLid := 0, budgets := [], images := [], spaces := [], parked := [], parkedGo := [], out := [], toclCancels := [], mgmt := Mgmt.reset,
    ports := [], ingest := [], subs := [], groups := [], devId := 0, routes := [], recvs := [], outPkts := [],
    staged := [], seenPkts := [], doneSends := [], collFails := [], forwarded := [], pktId := 0, acks := [], sessions := [], ctlSeq := 0, layers := [],
    deadBanks := [], failing := [], sparedGroups := [], corrected := 0, lpCorrected := [], spares := [], emergUsed := [], trims := [], trimGoal := [], sampled := [],
    arbiter := [], bootFail := none, bootFinds := none, flashRecs := [], fwSlots := [], fwActive := 0, fwStage := .idle, fwMin := 0,
    attLog := [(0, 0, 0, Config.bootDigest 0), (1, 1, 0, Config.bootDigest 1), (2, 2, 0, Config.bootDigest 2),
      (3, 3, 0, Config.bootDigest 3), (4, 4, 0, Config.bootDigest 4)],
    frozen := false, tocHeld := [], agenda := [], sched := [], cur := 0, memHold := false, freeCtr := 0 }

/-- Whether the package has booted (R475). -/
def State.bootOk (s : State) : Bool := s.bootFail.isNone

end Sys2Proof.Machine
end

