-- ==== Sys2Proof/Machine/Num.lean ====
section
/-!
DEFINITION. Machine/Num.lean: number formats, exact values, the one rounding procedure with its events, and exact
arithmetic on decoded values (04_number_formats.md). Events use the bit layout of VFLAGS (R167).
-/
namespace Sys2Proof.Machine

/-- Events of R155 and R167, in the bit positions of VFLAGS. -/
abbrev Ev := BitVec 6

/-- Invalid. -/
def evInv : Ev := 1

/-- Division by zero. -/
def evDze : Ev := 2

/-- Overflow. -/
def evOvf : Ev := 4

/-- Underflow. -/
def evUnf : Ev := 8

/-- Inexact. -/
def evInx : Ev := 16

/-- Integer saturation. -/
def evSat : Ev := 32

/-- A value: NaN, an infinity, or (−1)^neg × m × 2^e, with a further fraction of less than one unit of 2^e when st is
set (the exact value then lies strictly between m × 2^e and (m + 1) × 2^e). -/
inductive Num
  | nan
  | inf (neg : Bool)
  | fin (neg : Bool) (m : Nat) (e : Int) (st : Bool)
  deriving DecidableEq, Repr, Inhabited

end Sys2Proof.Machine

namespace Sys2Proof

/-- Exponent bits E of a floating-point format (R138). -/
def Fmt.ebits : Fmt → Nat
  | .f64 => 11 | .f32 => 8 | .bf16 => 8 | .f16 => 5 | .e5m2 => 5 | .e4m3 => 4 | .e3m2 => 3 | .e2m3 => 2 | .e2m1 => 2
  | _ => 0

/-- Mantissa bits M of a floating-point format (R138). -/
def Fmt.mbits : Fmt → Nat
  | .f64 => 52 | .f32 => 23 | .bf16 => 7 | .f16 => 10 | .e5m2 => 2 | .e4m3 => 3 | .e3m2 => 2 | .e2m3 => 3 | .e2m1 => 1
  | _ => 0

/-- Bias B of a floating-point format (R138). -/
def Fmt.bias : Fmt → Nat
  | .f64 => 1023 | .f32 => 127 | .bf16 => 127 | .f16 => 15 | .e5m2 => 15 | .e4m3 => 7 | .e3m2 => 3 | .e2m3 => 1
  | .e2m1 => 1 | _ => 0

/-- A floating-point format (R138). -/
def Fmt.isFloat : Fmt → Bool
  | .f64 | .f32 | .bf16 | .f16 | .e5m2 | .e4m3 | .e3m2 | .e2m3 | .e2m1 => true
  | _ => false

/-- A signed integer format (R141). -/
def Fmt.isSigned : Fmt → Bool
  | .i4 | .i8 | .i16 | .i32 | .i64 => true
  | _ => false

/-- A format with infinities (R139). -/
def Fmt.hasInf : Fmt → Bool
  | .f64 | .f32 | .bf16 | .f16 | .e5m2 => true
  | _ => false

/-- A format with NaN codes (R139). -/
def Fmt.hasNan : Fmt → Bool
  | .f64 | .f32 | .bf16 | .f16 | .e5m2 | .e4m3 => true
  | _ => false

/-- The formats on which FTZ and DAZ act (R156). -/
def Fmt.flushable : Fmt → Bool
  | .f32 | .bf16 | .f16 => true
  | _ => false

/-- The code of the sign bit. -/
def Fmt.signBit (f : Fmt) : Nat := 2 ^ (f.width - 1)

/-- The positive infinity code (R139). -/
def Fmt.infCode (f : Fmt) : Nat := (2 ^ f.ebits - 1) * 2 ^ f.mbits

/-- The canonical NaN code (R139, R140). -/
def Fmt.nanCode (f : Fmt) : Nat :=
  match f with
  | .e4m3 => 0x7F
  | _ => f.infCode + 2 ^ (f.mbits - 1)

/-- The largest finite positive code (R139). -/
def Fmt.maxCode (f : Fmt) : Nat :=
  match f with
  | .e4m3 => 0x7E
  | .e3m2 | .e2m3 | .e2m1 => 2 ^ (f.width - 1) - 1
  | _ => f.infCode - 1

/-- A magnitude code with a sign. -/
def Fmt.signed (f : Fmt) (neg : Bool) (mag : Nat) : Nat := if neg then f.signBit + mag else mag

end Sys2Proof

namespace Sys2Proof.Machine

/-- An integer of either sign as a value. -/
def Num.ofInt (v : Int) : Num := .fin (decide (v < 0)) v.natAbs 0 false

/-- Two's complement reading of a code of w bits. -/
def sgn (w c : Nat) : Int := if c < 2 ^ (w - 1) then (c : Int) else (c : Int) - (2 ^ w : Nat)

/-- The low w bits of an integer. -/
def wrapInt (w : Nat) (v : Int) : Nat := (v % ((2 ^ w : Nat) : Int)).toNat

/-- The value of a floating-point code (R138, R139). -/
def Num.ofFloat (f : Fmt) (c : Nat) : Num :=
  let neg := c / f.signBit % 2 == 1
  let e := c / 2 ^ f.mbits % 2 ^ f.ebits
  let m := c % 2 ^ f.mbits
  if f.hasInf && e == 2 ^ f.ebits - 1 then (if m = 0 then .inf neg else .nan)
  else if f == .e4m3 && c % 128 == 127 then .nan
  else if e = 0 then .fin neg m (1 - (f.bias : Int) - f.mbits) false
  else .fin neg (2 ^ f.mbits + m) ((e : Int) - f.bias - f.mbits) false

/-- The value of an element code in a format (R138, R139, R141, R143). -/
def Num.ofCode (f : Fmt) (c : Nat) : Num :=
  if f.isFloat then Num.ofFloat f c
  else if f == .e8m0 then (if c = 255 then .nan else .fin false 1 ((c : Int) - 127) false)
  else if f.isSigned then Num.ofInt (sgn f.width c)
  else .fin false c 0 false

/-- Whether a code is a subnormal number of its format. -/
def subnormalCode (f : Fmt) (c : Nat) : Bool :=
  (c / 2 ^ f.mbits % 2 ^ f.ebits == 0) && (c % 2 ^ f.mbits != 0)

/-- A source operand read as a number under DAZ (R156): a subnormal becomes a zero of its sign. -/
def dazCode (daz : Bool) (f : Fmt) (c : Nat) : Nat :=
  if daz && f.flushable && subnormalCode f c then c / f.signBit % 2 * f.signBit else c

/-- Result of placing a magnitude m × 2^e (+ fraction) on the grid of spacing 2^u: the lower grid multiple, whether it
is exact, the comparison with the midpoint, and floor(f × 2^k) (R150, R151). -/
structure Placed where
  lo : Nat
  exact : Bool
  cmp : Ordering
  d : Nat
  deriving DecidableEq, Repr

/-- Placement of a magnitude on the grid of spacing 2^u, with k random bits in view (R150). -/
def place (m : Nat) (e : Int) (st : Bool) (u : Int) (k : Nat) : Placed :=
  if u ≤ e then { lo := m * 2 ^ (e - u).toNat, exact := !st, cmp := .lt, d := 0 }
  else if e + (Nat.log2 m : Int) + 64 < u then { lo := 0, exact := m == 0 && !st, cmp := .lt, d := 0 }
  else
    let s := (u - e).toNat
    let r := m % 2 ^ s
    { lo := m / 2 ^ s
      exact := r == 0 && !st
      cmp := if 2 * r < 2 ^ s then .lt else if 2 ^ s < 2 * r then .gt else if st then .gt else .eq
      d := r * 2 ^ k / 2 ^ s }

/-- Whether the rounding mode takes the grid value away from zero (R150 step 5). -/
def roundsUp (mode : Rnd) (neg : Bool) (p : Placed) (k r : Nat) : Bool :=
  if p.exact then false
  else match mode with
    | .rne => p.cmp == .gt || (p.cmp == .eq && p.lo % 2 == 1)
    | .rna => p.cmp != .lt
    | .rtz => false
    | .rup => !neg
    | .rdn => neg
    | .sr => decide (2 ^ k ≤ p.d + r)

/-- Random bits of a stochastic rounding: their number and their value (R151). -/
structure Rand where
  k : Nat
  r : Nat
  deriving DecidableEq, Repr, Inhabited

/-- How a rounding is made: mode, RoundSat, FTZ, random bits. -/
structure RCtl where
  mode : Rnd
  sat : Bool
  ftz : Bool
  rand : Rand
  deriving DecidableEq, Repr, Inhabited

/-- Round to nearest even, RoundTo, no flushing: the control of the matrix engine (R159). -/
def RCtl.rne : RCtl := { mode := .rne, sat := false, ftz := false, rand := { k := 0, r := 0 } }

/-- The overflow result of R152 in a format. -/
def overflowCode (f : Fmt) (ctl : RCtl) (neg : Bool) : Nat :=
  if ctl.sat || (!f.hasInf && f != .e4m3) then f.signed neg f.maxCode
  else if f == .e4m3 then f.nanCode
  else match ctl.mode with
    | .rne | .rna | .sr => f.signed neg f.infCode
    | .rtz => f.signed neg f.maxCode
    | .rup => if neg then f.signed neg f.maxCode else f.infCode
    | .rdn => if neg then f.signed neg f.infCode else f.maxCode

/-- RoundTo or RoundSat of a nonzero finite magnitude into a floating-point format (R150 to R152, R155, R156). -/
def roundFin (f : Fmt) (ctl : RCtl) (neg : Bool) (m : Nat) (e : Int) (st : Bool) : Nat × Ev :=
  let top := e + (Nat.log2 m : Int)
  let emin : Int := 1 - (f.bias : Int) - f.mbits
  let tiny := decide (top < 1 - (f.bias : Int))
  if ctl.ftz && f.flushable && tiny then (f.signed neg 0, evUnf ||| evInx)
  else
    let u := max (top - f.mbits) emin
    let p := place m e st u ctl.rand.k
    let q := if roundsUp ctl.mode neg p ctl.rand.k ctl.rand.r then p.lo + 1 else p.lo
    let mag := if u = emin && decide (q < 2 ^ f.mbits) then q
      else if q = 2 ^ (f.mbits + 1) then (u + 1 + f.mbits + f.bias).toNat * 2 ^ f.mbits
      else (u + f.mbits + f.bias).toNat * 2 ^ f.mbits + (q - 2 ^ f.mbits)
    if mag ≤ f.maxCode then
      (f.signed neg mag, if p.exact then 0 else if tiny then evUnf ||| evInx else evInx)
    else (overflowCode f ctl neg, evOvf ||| evInx)

end Sys2Proof.Machine

namespace Sys2Proof

/-- The ends of an integer format (R141). -/
def Fmt.intMin (f : Fmt) : Int := if f.isSigned then -((2 ^ (f.width - 1) : Nat) : Int) else 0

/-- The ends of an integer format (R141). -/
def Fmt.intMax (f : Fmt) : Int :=
  if f.isSigned then ((2 ^ (f.width - 1) : Nat) : Int) - 1 else ((2 ^ f.width : Nat) : Int) - 1

end Sys2Proof

namespace Sys2Proof.Machine

/-- RoundTo of a finite value into an integer format (R154). -/
def roundInt (f : Fmt) (ctl : RCtl) (neg : Bool) (m : Nat) (e : Int) (st : Bool) : Nat × Ev :=
  if 80 < e + (Nat.log2 m : Int) ∧ m ≠ 0 then
    (wrapInt f.width (if neg then f.intMin else f.intMax), evInv ||| evInx)
  else
    let p := place m e st 0 ctl.rand.k
    let q := if roundsUp ctl.mode neg p ctl.rand.k ctl.rand.r then p.lo + 1 else p.lo
    let v : Int := if neg then -(q : Int) else q
    if v < f.intMin then (wrapInt f.width f.intMin, evInv ||| evInx)
    else if f.intMax < v then (wrapInt f.width f.intMax, evInv ||| evInx)
    else (wrapInt f.width v, if p.exact then 0 else evInx)

/-- RoundTo, or RoundSat when ctl.sat is set, of any value into any format, with its events (R150 to R156). -/
def roundNum (f : Fmt) (ctl : RCtl) (x : Num) : Nat × Ev :=
  if f.isFloat then
    match x with
    | .nan => if f.hasNan then (f.nanCode, 0) else (0, evInv)
    | .inf neg =>
      if f.hasInf then (if ctl.sat then (f.signed neg f.maxCode, evInv) else (f.signed neg f.infCode, 0))
      else if f == .e4m3 then (if ctl.sat then f.signed neg f.maxCode else f.nanCode, evInv)
      else (f.signed neg f.maxCode, evInv)
    | .fin neg m e st => if m = 0 && !st then (f.signed neg 0, 0) else roundFin f ctl neg m e st
  else
    match x with
    | .nan => (0, evInv)
    | .inf neg => (wrapInt f.width (if neg then f.intMin else f.intMax), evInv)
    | .fin neg m e st => if m = 0 && !st then (0, 0) else roundInt f ctl neg m e st

/-- A value is zero. -/
def Num.isZero : Num → Bool
  | .fin _ m _ st => m == 0 && !st
  | _ => false

/-- A value's sign. -/
def Num.neg? : Num → Bool
  | .nan => false
  | .inf n => n
  | .fin n _ _ _ => n

/-- The value with its sign inverted. -/
def Num.negate : Num → Num
  | .nan => .nan
  | .inf n => .inf (!n)
  | .fin n m e st => .fin (!n) m e st

/-- An exact finite value as a signed mantissa at a given (not larger) exponent. -/
def scaled (neg : Bool) (m : Nat) (e e' : Int) : Int :=
  let v : Int := (m * 2 ^ (e - e').toNat : Nat)
  if neg then -v else v

/-- Exact sum of two exact values; rdn gives the sign of a zero from nonzero or unlike addends (R176). The flag is set
for opposed infinities. -/
def Num.add (rdn : Bool) (x y : Num) : Num × Bool :=
  match x, y with
  | .nan, _ => (.nan, false)
  | _, .nan => (.nan, false)
  | .inf a, .inf b => if a = b then (.inf a, false) else (.nan, true)
  | .inf a, _ => (.inf a, false)
  | _, .inf b => (.inf b, false)
  | .fin a m e _, .fin b n d _ =>
    if m = 0 ∧ n = 0 then (.fin (if a = b then a else rdn) 0 0 false, false)
    else if m = 0 then (.fin b n d false, false)
    else if n = 0 then (.fin a m e false, false)
    else
      let e' := min e d
      let v := scaled a m e e' + scaled b n d e'
      if v = 0 then (.fin rdn 0 0 false, false) else (.fin (decide (v < 0)) v.natAbs e' false, false)

/-- Exact product of two exact values; the flag is set for 0 × ∞ (R160 step 3, R176). -/
def Num.mul (x y : Num) : Num × Bool :=
  match x, y with
  | .nan, _ => (.nan, false)
  | _, .nan => (.nan, false)
  | .inf a, y => if y.isZero then (.nan, true) else (.inf (a != y.neg?), false)
  | x, .inf b => if x.isZero then (.nan, true) else (.inf (x.neg? != b), false)
  | .fin a m e _, .fin b n d _ => (.fin (a != b) (m * n) (e + d) false, false)

/-- Quotient of two exact values: NaN and the invalid flag for 0 ÷ 0 and ∞ ÷ ∞, ∞ and the division flag for a finite
nonzero value over zero (R176). -/
def Num.div (x y : Num) : Num × Ev :=
  match x, y with
  | .nan, _ => (.nan, 0)
  | _, .nan => (.nan, 0)
  | .inf _, .inf _ => (.nan, evInv)
  | .inf a, .fin b _ _ _ => (.inf (a != b), 0)
  | .fin a _ _ _, .inf b => (.fin (a != b) 0 0 false, 0)
  | .fin a m e _, .fin b n d _ =>
    if n = 0 then (if m = 0 then (.nan, evInv) else (.inf (a != b), evDze))
    else if m = 0 then (.fin (a != b) 0 0 false, 0)
    else
      let s := 160 + Nat.log2 n
      let t := m * 2 ^ s
      (.fin (a != b) (t / n) (e - d - s) (t % n != 0), 0)

/-- Ordered comparison of two values that are not NaN: −0 equals +0 (R182). -/
def Num.lt (x y : Num) : Bool :=
  match x, y with
  | .nan, _ => false
  | _, .nan => false
  | .inf a, .inf b => a && !b
  | .inf a, .fin .. => a
  | .fin .., .inf b => !b
  | .fin a m e _, .fin b n d _ =>
    let e' := min e d
    decide (scaled a m e e' < scaled b n d e')

/-- Equality of two values that are not NaN. -/
def Num.eqv (x y : Num) : Bool :=
  match x, y with
  | .nan, _ => false
  | _, .nan => false
  | x, y => !(x.lt y) && !(y.lt x)

/-- The integer square root, one bit a step from bit n − 1 down. -/
def isqrtFrom (n : Nat) (x r : Nat) : Nat :=
  match n with
  | 0 => r
  | n + 1 =>
    let t := r + 2 ^ n
    isqrtFrom n x (if t * t ≤ x then t else r)

/-- floor(√x). -/
def isqrt (x : Nat) : Nat := isqrtFrom (Nat.log2 x / 2 + 1) x 0

/-- √x for a positive finite x (R178): floor at a precision far beyond every format, with the fraction flag. -/
def sqrtNum (m : Nat) (e : Int) : Num :=
  let s := 2 * (160 + Nat.log2 m / 2) - Nat.log2 m
  let s := if (e - s) % 2 = 0 then s else s + 1
  let t := m * 2 ^ s
  let r := isqrt t
  .fin false r ((e - s) / 2) (r * r != t)

/-- 1 ÷ √x for a positive finite x (R178). -/
def rsqrtNum (m : Nat) (e : Int) : Num :=
  let m' := if e % 2 = 0 then m else 2 * m
  let e' := if e % 2 = 0 then e else e - 1
  let p := 160 + Nat.log2 m'
  let r := isqrt (2 ^ (2 * p) / m')
  .fin false r (-(e' / 2) - p) (r * r * m' != 2 ^ (2 * p))

/-- Σ over k of 2^P ÷ (k × 2^k), from below: ln 2 in units of 2^−P. -/
def ln2Sum (n k p : Nat) (acc : Nat) : Nat :=
  match n with
  | 0 => acc
  | n + 1 => ln2Sum n (k + 1) p (acc + 2 ^ p / (k * 2 ^ k))

/-- ln 2 in units of 2^−p, from below, within p + 2 units. -/
def ln2Fix (p : Nat) : Nat := ln2Sum p 1 p 0

/-- Σ of z^k ÷ k! from below, all in units of 2^−p. -/
def expSum (n k p z term : Nat) (acc : Nat) : Nat :=
  match n with
  | 0 => acc
  | n + 1 => expSum n (k + 1) p z (term * z / (k * 2 ^ p)) (acc + term)

/-- 2^f in units of 2^−p from below, for the fraction f = fm × 2^−p with fm < 2^p. -/
def exp2Fix (p fm : Nat) : Nat := expSum (p / 2 + 8) 1 p (fm * ln2Fix p / 2 ^ p) (2 ^ p) 0

/-- Σ of w^(2k+1) ÷ (2k+1) from below, all in units of 2^−p. -/
def atanhSum (n k p w2 pw : Nat) (acc : Nat) : Nat :=
  match n with
  | 0 => acc
  | n + 1 => atanhSum n (k + 2) p w2 (pw * w2 / 2 ^ p) (acc + pw / k)

/-- log2(y) in units of 2^−p, from below up to the error of the division, for y = ym × 2^−p in [1, 2). -/
def log2Fix (p ym : Nat) : Nat :=
  let w := (ym - 2 ^ p) * 2 ^ p / (ym + 2 ^ p)
  2 * atanhSum (p / 3 + 8) 1 p (w * w / 2 ^ p) w 0 * 2 ^ p / ln2Fix p

/-- First working precision whose enclosure fixes the answer: val p is an approximation in units of 2^−p that is within
2^16 units of the exact irrational value; the answer is its floor in units of 2^−out. -/
def settle (out : Nat) (val : Nat → Nat) : List Nat → Nat
  | [] => 0
  | g :: gs =>
    let p := out + g
    let a := val p
    let lo := (a - 2 ^ 16) / 2 ^ g
    let hi := (a + 2 ^ 16) / 2 ^ g
    if lo = hi then lo else
      match gs with
      | [] => lo
      | _ => settle out val gs

/-- Guard bits tried in turn. -/
def guards : List Nat := [64, 192, 448, 1024, 4096]

/-- 2^x of a finite x (R178): exact for an integer x, otherwise the floor of an irrational value with the fraction
flag. -/
def exp2Num (neg : Bool) (m : Nat) (e : Int) : Num :=
  if m = 0 then .fin false 1 0 false
  else if 20 < e + (Nat.log2 m : Int) then .fin false 1 (if neg then -(2 ^ 20) else 2 ^ 20) true
  else if e + (Nat.log2 m : Int) < -100 then
    (if neg then .fin false (2 ^ 99 - 1) (-99) true else .fin false (2 ^ 99) (-99) true)
  else if 0 ≤ e then .fin false 1 (scaled neg m e 0) false
  else
    let d : Nat := 2 ^ (-e).toNat
    let v : Int := if neg then -(m : Int) else m
    let n := v.fdiv d
    let r := (v - n * d).toNat
    if r = 0 then .fin false 1 n false
    else .fin false (settle 128 (fun p => exp2Fix p (r * 2 ^ p / d)) guards) (n - 128) true

/-- log2(x) of a positive finite x (R178): exact for a power of two, otherwise the floor of an irrational value with
the fraction flag. -/
def log2Num (m : Nat) (e : Int) : Num :=
  let l := Nat.log2 m
  let n := e + l
  if m = 2 ^ l then Num.ofInt n
  else
    let frac := fun p => log2Fix p (m * 2 ^ p / 2 ^ l)
    if 0 ≤ n then .fin false (settle 256 (fun p => n.toNat * 2 ^ p + frac p) guards) (-256) true
    else .fin true (settle 256 (fun p => (-n).toNat * 2 ^ p - frac p) guards) (-256) true

/-- The stochastic-rounding value of R157: the top k bits of the SplitMix64 finaliser. -/
def srRand (seed counter : BitVec 64) (index k : Nat) : Nat :=
  let x : BitVec 64 := BitVec.ofNat 64 (counter.toNat * 2 ^ 32 + index)
  let z := seed ^^^ x
  let z := (z ^^^ (z >>> 30)) * 0xBF58476D1CE4E5B9
  let z := (z ^^^ (z >>> 27)) * 0x94D049BB133111EB
  let z := z ^^^ (z >>> 31)
  z.toNat / 2 ^ (64 - k)

end Sys2Proof.Machine

namespace Sys2Proof

/-- The rounding mode of a rounding code; reserved codes read as RNE and are refused where they are written (R149). -/
def Rnd.ofCode (k : Nat) : Rnd :=
  match k with
  | 1 => .rtz | 2 => .rdn | 3 => .rup | 4 => .rna | 5 => .sr | _ => .rne

/-- The mode with SR read as RNE (R188, R189, R191). -/
def Rnd.noSr (m : Rnd) : Rnd :=
  match m with
  | .sr => .rne
  | m => m

end Sys2Proof
end

