-- ==== Sys2Proof/Machine/Ops.lean ====
section
/-!
DEFINITION. Machine/Ops.lean: the named operations over cores, registers, buffers and memory, translation, and taking
an exception and returning from one.
-/
namespace Sys2Proof.Machine

/-! ### Cores and streams -/

/-- The core site with logical number c (R2). -/
def State.core (s : State) (c : CoreId) : Core :=
  match s.cores.get? c.toNat with
  | some k => k
  | none => Core.reset c.toNat

/-- Store a core. -/
def State.setCore (s : State) (c : CoreId) (k : Core) : State := { s with cores := s.cores.set c.toNat k }

/-- Change a core. -/
def State.modCore (s : State) (c : CoreId) (f : Core → Core) : State := s.setCore c (f (s.core c))

/-- The context on a core. -/
def State.ctx (s : State) (c : CoreId) : Ctx := (s.core c).ctx

/-- Change the context on a core. -/
def State.modCtx (s : State) (c : CoreId) (f : Ctx → Ctx) : State :=
  s.modCore c fun k => { k with ctx := f k.ctx }

/-- A stream of a context. -/
def Ctx.str (x : Ctx) (e : Strm) : Stream :=
  match e with
  | .c => x.strC | .v => x.strV | .m => x.strM | .x => x.strX

/-- Store a stream of a context. -/
def Ctx.setStr (x : Ctx) (e : Strm) (t : Stream) : Ctx :=
  match e with
  | .c => { x with strC := t }
  | .v => { x with strV := t }
  | .m => { x with strM := t }
  | .x => { x with strX := t }

/-- Change a stream on a core. -/
def State.modStr (s : State) (c : CoreId) (e : Strm) (f : Stream → Stream) : State :=
  s.modCtx c fun x => x.setStr e (f (x.str e))

/-- A scalar register: s0 reads zero (R34). -/
def Ctx.sr (x : Ctx) (r : SReg) : Word := if r = 0 then 0 else x.s.getD r.toNat 0

/-- Write a scalar register: writes to s0 are dropped (R34). -/
def Ctx.setSr (x : Ctx) (r : SReg) (v : Word) : Ctx := if r = 0 then x else { x with s := x.s.put r.toNat v 0 }

/-- An exchange register s48 + i (R34, R72). -/
def Ctx.xr (x : Ctx) (i : XReg) : Word := x.sr (BitVec.ofNat 6 (48 + i.toNat))

/-- A predicate: p0 reads true (R34). -/
def Ctx.pr (x : Ctx) (r : PReg) : Bool := if r = 0 then true else x.p.getD r.toNat false

/-- Write a predicate: writes to p0 are dropped (R34). -/
def Ctx.setPr (x : Ctx) (r : PReg) (v : Bool) : Ctx := if r = 0 then x else { x with p := x.p.put r.toNat v false }

/-- A mask: m0 reads all ones (R34). -/
def Ctx.kr (x : Ctx) (r : KReg) : BitVec 128 := if r = 0 then BitVec.allOnes 128 else x.k.getD r.toNat 0

/-- Write a mask: writes to m0 are dropped (R34). -/
def Ctx.setKr (x : Ctx) (r : KReg) (v : BitVec 128) : Ctx :=
  if r = 0 then x else { x with k := x.k.put r.toNat v 0 }

/-- The base of vector view vd; the bind default is 128 × d (R24, R37). -/
def Ctx.view (x : Ctx) (r : VReg) : Nat := (x.views.getD r.toNat (BitVec.ofNat 32 (128 * r.toNat))).toNat

/-! ### The launch packet and tasks -/

/-- The n bytes at an offset of a packet, little-endian (R233). -/
def pktField (p : BitVec 1024) (off n : Nat) : Nat := p.toNat / 2 ^ (8 * off) % 2 ^ (8 * n)

/-- CTRL.VAHI (R234). -/
def pktVahi (p : BitVec 1024) : Nat := pktField p 0x3C 4 % 256
/-- CTRL.HEAT (R234). -/
def pktHeat (p : BitVec 1024) : Nat := pktField p 0x3C 4 / 2 ^ 16 % 4
/-- CTRL.DRAIN (R234). -/
def pktDrain (p : BitVec 1024) : Bool := pktField p 0x3C 4 / 2 ^ 18 % 2 == 1
/-- CTRL.CKPT (R234). -/
def pktCkpt (p : BitVec 1024) : Bool := pktField p 0x3C 4 / 2 ^ 19 % 2 == 1
/-- CTRL.KILL (R234). -/
def pktKill (p : BitVec 1024) : Bool := pktField p 0x3C 4 / 2 ^ 20 % 2 == 1
/-- CTRL.PRIO (R234). -/
def pktPrio (p : BitVec 1024) : Nat := pktField p 0x3C 4 / 2 ^ 28
/-- The task count: 0 means 2^24 (R233). -/
def pktTasks (p : BitVec 1024) : Nat :=
  let n := pktField p 0x38 4 % 2 ^ 24
  if n = 0 then 2 ^ 24 else n
/-- PLACE.MODE (R234). -/
def pktMode (p : BitVec 1024) : Nat := pktField p 0x5C 4 / 2 ^ 16 % 8
/-- PLACE.PCORE (R234). -/
def pktPcore (p : BitVec 1024) : Nat := pktField p 0x5C 4 % 512
/-- START (R233). -/
def pktStart (p : BitVec 1024) : Nat := pktField p 0x60 8
/-- EST (R233). -/
def pktEst (p : BitVec 1024) : Nat := pktField p 0x58 4
/-- TAG (R233). -/
def pktTag (p : BitVec 1024) : Nat := pktField p 0x78 8
/-- A gate word (R235). -/
def pktGate (p : BitVec 1024) (i : Nat) : Nat := pktField p (0x68 + 4 * i) 4
/-- TARGETS (R234). -/
def pktTargets (p : BitVec 1024) : Nat := pktField p 0x70 8
/-- The phase counter that a launch names (R234). -/
def pktPhase (p : BitVec 1024) : Option Nat :=
  if pktTargets p / 2 ^ 31 % 2 = 1 then some (pktTargets p / 2 ^ 16 % 256) else none
/-- The graph counter that a launch names (R234). -/
def pktGraph (p : BitVec 1024) : Option Nat :=
  if pktTargets p / 2 ^ 15 % 2 = 1 then some (pktTargets p % 4096) else none
/-- The job counter that a launch names (R234). -/
def pktJob (p : BitVec 1024) : Option Nat :=
  if pktTargets p / 2 ^ 47 % 2 = 1 then some (pktTargets p / 2 ^ 32 % 64) else none
/-- The entry parcel of a stream (R233). -/
def pktEntry (p : BitVec 1024) (e : Strm) : Nat := pktField p (0x08 + 4 * e.num) 4
/-- A 64-bit address field with the segment of CTRL.VAHI (R233). -/
def pktAddr (p : BitVec 1024) (off : Nat) : Nat := pktVahi p * 2 ^ 64 + pktField p off 8

/-- A task that has not been placed (R248). -/
def Task.fresh : Task :=
  { st := .queued, core := none, t2home := none, age := 0, ageLevel := 0, mark0 := false, mark1 := false, passed := false,
    commitNs := 0, ranNs := 0, budget := 0, area := none, reruns := 0, resume := false, closing := none }

/-- A task of a launch. -/
def Launch.task (l : Launch) (i : Nat) : Task := l.tasks.getD i Task.fresh

/-- Change a task of a launch. -/
def State.modTask (s : State) (lid : Nat) (i : Nat) (f : Task → Task) : State :=
  match s.launches.get? lid with
  | none => s
  | some l => { s with launches := s.launches.set lid { l with tasks := l.tasks.set i (f (l.task i)) } }

/-- Change a launch. -/
def State.modLaunch (s : State) (lid : Nat) (f : Launch → Launch) : State :=
  match s.launches.get? lid with
  | none => s
  | some l => { s with launches := s.launches.set lid (f l) }

/-- The launch that the running slot of a core names (R243). -/
def State.launchOf (s : State) (c : CoreId) : Option Launch :=
  match (s.core c).run with
  | none => none
  | some r => s.launches.get? r.lid.toNat

/-- The address space that owns a core's task (R281). -/
def State.asidOf (s : State) (c : CoreId) : BitVec 16 :=
  match s.launchOf c with
  | none => 0
  | some l => l.asid

/-- The packet of a core's task. -/
def State.pktOf (s : State) (c : CoreId) : BitVec 1024 :=
  match s.launchOf c with
  | none => 0
  | some l => l.pkt

/-- Address bits [71:64] of a core's task: CTRL.VAHI (R280). -/
def State.vahi (s : State) (c : CoreId) : Nat := pktVahi (s.pktOf c)

/-- The 72-bit virtual address that a stream forms from 64 register bits (R280). -/
def State.vaOf (s : State) (c : CoreId) (a : Word) : VAddr := BitVec.ofNat 72 (s.vahi c * 2 ^ 64 + a.toNat)

/-! ### Buffers: spaces, ranges, windows (R40 to R44) -/

/-- The contents of a local buffer of a core. -/
def Core.buf (k : Core) (sp : Space) : FMap Byte :=
  match sp with
  | .ofs => k.ofs | .acs => k.acs | .wb => k.wb | .xb => k.xb | .sm => k.sm | .cr => k.cr | .t1 => k.t1
  | _ => []

/-- Store a local buffer of a core. -/
def Core.setBuf (k : Core) (sp : Space) (b : FMap Byte) : Core :=
  match sp with
  | .ofs => { k with ofs := b } | .acs => { k with acs := b } | .wb => { k with wb := b }
  | .xb => { k with xb := b } | .sm => { k with sm := b } | .cr => { k with cr := b } | .t1 => { k with t1 := b }
  | _ => k

/-- The local size of a space (R41, R43). -/
def Space.size : Space → Nat
  | .ofs => 0x30000 | .acs => 0x80000 | .wb => 0x200000 | .xb => 0x100000 | .sm => 0x20000 | .cr => 0x10000
  | .t1 => 0x800000 | .t2 => 0x2000000 | .t3 => 0x40000000 | .t4 => 0x40000000 | .virt => 2 ^ 72

/-- The in-range length of a local space: the allotment rounded up to 4 KiB, never beyond the local size (R43); CR is
always whole (R233). -/
def Core.inRange (k : Core) (sp : Space) : Nat :=
  match sp with
  | .ofs => k.ctx.allot.ofs | .acs => k.ctx.allot.acs | .wb => k.ctx.allot.wb | .xb => k.ctx.allot.xb
  | .sm => k.ctx.allot.sm | .t1 => k.ctx.allot.t1 | .cr => 0x10000 | .t2 => 0x2000000
  | .t3 => 0x40000000 | .t4 => 0x40000000 | .virt => 2 ^ 72

/-- The lender of a window: 0 east, 1 south, 2 diagonal (R2, R250). -/
def lenderCore (c : CoreId) (i : Nat) : CoreId :=
  match i with
  | 0 => c + 1 | 1 => c + 16 | _ => c + 17

/-- The window of OF or XB in which a space-relative address lies, with its offset (R40, R42). -/
def windowOf (sp : Space) (a : Nat) : Option (Nat × Nat) :=
  match sp with
  | .ofs =>
    if 0x100000 ≤ a ∧ a < 0x130000 then some (0, a - 0x100000)
    else if 0x140000 ≤ a ∧ a < 0x170000 then some (1, a - 0x140000)
    else if 0x180000 ≤ a ∧ a < 0x1B0000 then some (2, a - 0x180000)
    else none
  | .xb => if 0x100000 ≤ a ∧ a < 0x400000 then some ((a - 0x100000) / 0x100000, a % 0x100000) else none
  | _ => none

/-- Whether a window is granted to a core's task (R62). -/
def Ctx.granted (x : Ctx) (i : Nat) : Bool := x.lend.getLsbD i

/-- The place of a byte of a local space as a core's task sees it: the owning core, the space and the offset there; none
when the address is out of range (R43, R253). -/
def State.cellOf (s : State) (c : CoreId) (sp : Space) (a : Nat) : Option (CoreId × Space × Nat) :=
  let k := s.core c
  if a < k.inRange sp then some (c, sp, a)
  else match windowOf sp a with
    | some (i, o) => if k.ctx.granted i then some (lenderCore c i, sp, o) else none
    | none => none

/-- Cluster number of a core (R2). -/
def clusterOf (c : CoreId) : Nat := c.toNat / 128 * 32 + c.toNat % 128 / 32 * 8 + c.toNat % 16 / 2

/-- A byte after a write of this cycle: the bits that it writes are new (R186). -/
def WEnt.over (w : WEnt) (b : Byte) : Byte := (w.b &&& w.m) ||| (b &&& ~~~w.m)

/-- The order in which the writes of a cycle are performed: C, V, M, X, level engines (R53). -/
def writeOrder : List Nat := [0, 1, 2, 3, 4]

/-- A byte as an agent sees it in this cycle: its own writes of the cycle over the bytes from before (R53). Agent 5 is the
read of an indivisible update (R352): it sees every write of the cycle, in the order in which they are performed. -/
def State.cellByte (s : State) (agent : Nat) (o : CoreId × Space × Nat) : Byte :=
  match o with
  | (c, .t2, a) => (s.t2.getD (clusterOf c) []).getD a Config.freshByte
  | (c, sp, a) =>
    let k := s.core c
    (if agent = 5 then writeOrder else [agent]).foldl (fun b g =>
      (k.wlog.filter fun w => w.agent == g && w.sp == sp && w.addr == a).foldl (fun b w => w.over b) b)
      ((k.buf sp).getD a Config.freshByte)

/-- The protected unit of a byte (R315): the byte itself for OF and CR, else the aligned 8-byte word. -/
def unitOf (sp : Space) (a : Nat) : Nat :=
  match sp with
  | .ofs => a | .cr => a | _ => a / 8

/-- Whether a byte lies in a bank of T1 or T2 that has failed without a spare (R313). -/
def State.cellDead (s : State) (o : CoreId × Space × Nat) : Bool :=
  match o with
  | (c, .t2, a) => s.deadBanks.contains (c.toNat / 128, 2, clusterOf c % 32 * 128 + a / 2 ^ 8 % 2 ^ 7)
  | (c, .t1, a) => s.deadBanks.contains (c.toNat / 128, 1, c.toNat % 128 * 64 + a / 2 ^ 8 % 2 ^ 6)
  | _ => false

/-- Whether a unit of a core's buffers holds an uncorrectable error for an agent: one that the agent has written whole in
this cycle reads normally (R53, R315). -/
def Core.unitBad (k : Core) (agent : Nat) (sp : Space) (u : Nat) : Bool :=
  k.bad.contains (sp, u) && !(k.clr.any fun q => q.2 == (sp, u) && (q.1 == agent || agent == 5))

/-- Whether a byte that an agent reads lies in a unit with an uncorrectable error (R315). -/
def State.cellBad (s : State) (agent : Nat) (o : CoreId × Space × Nat) : Bool :=
  match o with
  | (c, .t2, a) => s.t2bad.contains (clusterOf c, a / 8) || s.cellDead o
  | (c, sp, a) => (s.core c).unitBad agent sp (unitOf sp a) || s.cellDead o

/-- The smallest number of a list. -/
def minOf (l : List Nat) : Option Nat :=
  match l with
  | [] => none
  | a :: t =>
    match minOf t with
    | none => some a
    | some b => some (min a b)

/-- Fill OORINFO and OORADDR (R44, R60, R61). -/
def Ctx.setOor (x : Ctx) (r : Oor) : Ctx :=
  { x with oorFlag := true, oorFresh := true, oorStream := r.stream, oorSpace := r.space, oorWrite := r.write, oorAddr := r.addr }

/-- Whether an out-of-range access comes before another of the same cycle: a lower stream, or the same stream at a lower
address (R44). -/
def Oor.before (r o : Oor) : Bool :=
  decide (r.stream.toNat < o.stream.toNat) || (r.stream == o.stream && decide (r.addr.toNat < o.addr.toNat))

/-- An out-of-range access arrives: of those of one cycle the one from the lowest stream, at its lowest address, is the
one that is recorded, unless a record stands from an earlier cycle (R44). -/
def Ctx.oorArrive (x : Ctx) (r : Oor) : Ctx :=
  let first := match x.oorNow with
    | none => true
    | some o => r.before o
  if first then
    let x := { x with oorNow := some r }
    if x.oorFlag && !x.oorFresh then x else x.setOor r
  else x

/-- Record an out-of-range access, given its lowest address if there is one (R44, R60, R61). -/
def State.oorNote (s : State) (c : CoreId) (e : Strm) (sp : Space) (write : Bool) (low : Option Nat) : State :=
  match low with
  | none => s
  | some a => s.modCtx c fun x =>
    x.oorArrive { stream := BitVec.ofNat 2 e.num, space := BitVec.ofNat 4 sp.code, write := write, addr := BitVec.ofNat 64 a }

/-- The out-of-range addresses of a list. -/
def State.outOf (s : State) (c : CoreId) (sp : Space) (as : List Nat) : List Nat :=
  as.filter fun a => (s.cellOf c sp a).isNone

/-- The byte at a local address as an agent sees it; out-of-range bytes read as zero (R44). -/
def State.localByte (s : State) (c : CoreId) (agent : Nat) (sp : Space) (a : Nat) : Byte :=
  match s.cellOf c sp a with
  | some o => s.cellByte agent o
  | none => 0

/-- n consecutive addresses. -/
def span (a n : Nat) : List Nat := (List.range n).map (a + ·)

/-- n bytes of a local space as an agent sees them. -/
def State.localBytes (s : State) (c : CoreId) (agent : Nat) (sp : Space) (a n : Nat) : List Byte :=
  (span a n).map (s.localByte c agent sp)

/-- Whether a local address of a core lies in a window whose lender's site has failed (R420). -/
def State.deadCell (s : State) (c : CoreId) (sp : Space) (a : Nat) : Bool :=
  match s.cellOf c sp a with
  | some o => sp != .t2 && o.1 != c && (s.core o.1).dead
  | none => false

/-- The lowest of some addresses whose byte lies in a unit with an uncorrectable error for an agent (R173, R315). -/
def State.lostOf (s : State) (c : CoreId) (agent : Nat) (sp : Space) (as : List Nat) : Option Nat :=
  minOf (as.filter fun a =>
    match s.cellOf c sp a with
    | some o => s.cellBad agent o
    | none => false)

/-- Whether an instruction cannot read a byte: an uncorrectable error, or the window of a failed lender, which freezes the core
before the instruction issues (R315, R420). -/
def State.badAt (s : State) (c : CoreId) (agent : Nat) (sp : Space) (a : Nat) : Bool :=
  (match s.cellOf c sp a with
    | some o => s.cellBad agent o
    | none => false) || s.deadCell c sp a

/-- The lowest of some addresses that an instruction cannot read (R173, R315, R420). -/
def State.badOf (s : State) (c : CoreId) (agent : Nat) (sp : Space) (as : List Nat) : Option Nat :=
  minOf (as.filter (s.badAt c agent sp))

/-- What an instruction meets at a byte that it cannot read: the window of a failed lender, or else an uncorrectable error
(R315, R420). -/
def State.readCause (s : State) (c : CoreId) (sp : Space) (a : Nat) : Cause :=
  if s.deadCell c sp a then .coreFrozen else .uncorrectableData

/-- The XB page tags that a write touches are cleared with the write, at the end of the cycle (R53, R286). -/
def Ctx.dropTags (x : Ctx) (agent : Nat) (as : List Nat) : Ctx :=
  { x with tagOps := x.tagOps ++ ((as.map (· / 4096)).eraseDups.filter fun p => x.tags.has p || x.tagOps.any (·.2.1 == p)).map fun p => (agent, p, none) }

/-- The tag of an XB page as an agent sees it in this cycle (R53, R286). -/
def Ctx.tagAt (x : Ctx) (agent p : Nat) : Option XTag :=
  match x.tagOps.findRev? fun o => o.1 == agent && o.2.1 == p with
  | some o => o.2.2
  | none => x.tags.get? p

/-- The ECC words or parity bytes that a write covers whole (R315). -/
def coveredUnits (sp : Space) (as : List Nat) : List Nat :=
  match sp with
  | .ofs => as
  | .cr => as
  | _ => ((as.map (· / 8)).eraseDups).filter fun u => (span (8 * u) 8).all fun a => as.contains a

/-- Write some bits of one byte at its place, in this cycle's log of the owning core, or at once in a T2 slice (R53, R186,
R275). -/
def State.putBits (s : State) (agent : Nat) (o : CoreId × Space × Nat) (b m : Byte) : State :=
  match o with
  | (c, .t2, a) =>
    { s with t2 := s.t2.set (clusterOf c) ((s.t2.getD (clusterOf c) []).put a b Config.freshByte) }
  | (c, sp, a) => s.modCore c fun k => { k with wlog := k.wlog ++ [{ agent := agent, sp := sp, addr := a, b := b, m := m }] }

/-- The owners of the bytes of a local write, with their addresses there. -/
def State.ownersOf (s : State) (c : CoreId) (sp : Space) (as : List Nat) : List (CoreId × List Nat) :=
  let os := as.filterMap (s.cellOf c sp)
  ((os.map (·.1)).eraseDups).map fun k => (k, (os.filter fun o => o.1 == k).map (·.2.2))

/-- Units of a core's space that an agent's bytes cover whole lose their error mark at the end of the cycle, those of a T2
slice at once (R53, R315). -/
def State.repair (s : State) (agent : Nat) (owner : CoreId) (sp : Space) (as : List Nat) : State :=
  match sp with
  | .t2 =>
    if s.t2bad.isEmpty then s
    else { s with t2bad := s.t2bad.filter fun b => !(b.1 == clusterOf owner && (coveredUnits .t2 as).contains b.2) }
  | _ =>
    if (s.core owner).bad.isEmpty then s
    else s.modCore owner fun k => { k with clr := k.clr ++ (coveredUnits sp as).map fun u => (agent, sp, u) }

/-- Write bits of bytes of a local space, given as address, byte and the bits written: in-range bytes are performed, the others
dropped (R44); XB tags of written pages are cleared (R286); units covered whole lose their error mark (R315). -/
def State.localPut (s : State) (c : CoreId) (agent : Nat) (sp : Space) (cells : List (Nat × Byte × Byte)) : State :=
  let s1 := cells.foldl (fun s p =>
    match s.cellOf c sp p.1 with
    | some o => s.putBits agent o p.2.1 p.2.2
    | none => s) s
  let s2 := match sp with
    | .xb => s1.modCtx c fun x => x.dropTags agent (cells.map (·.1))
    | _ => s1
  (s.ownersOf c sp ((cells.filter fun p => p.2.2 == 0xFF).map (·.1))).foldl (fun s o => s.repair agent o.1 sp o.2) s2

/-- Whole bytes as cells of `State.localPut`. -/
def wholeBytes (cells : List (Nat × Byte)) : List (Nat × Byte × Byte) := cells.map fun p => (p.1, p.2, 0xFF)

/-- Write whole bytes of a local space. -/
def State.localWrite (s : State) (c : CoreId) (agent : Nat) (sp : Space) (cells : List (Nat × Byte)) : State :=
  s.localPut c agent sp (wholeBytes cells)

/-- One write of the cycle reaches a core's buffer. -/
def Core.putLog (k : Core) (w : WEnt) : Core :=
  k.setBuf w.sp ((k.buf w.sp).put w.addr (w.over ((k.buf w.sp).getD w.addr Config.freshByte)) Config.freshByte)

/-- Apply this cycle's writes to a core's buffers in the order C, V, M, X, level engines (R53). -/
def Core.applyLog (k : Core) : Core :=
  let k1 := writeOrder.foldl (fun k ag => (k.wlog.filter (·.agent == ag)).foldl Core.putLog k) k
  { k1 with wlog := [], bad := k1.bad.filter (fun b => !k1.clr.any fun q => q.2 == b), clr := [] }

/-! ### Physical memory (R275 to R278, R315) -/

/-- What lies at a physical address (R277): a T3 or T4 byte of a die with its offset, or LPDDR6. -/
inductive PaKind
  | t3 (die off : Nat)
  | t4 (die off : Nat)
  | lp
  deriving DecidableEq, Repr

/-- The memory behind a physical address, if it is mapped (R277); a shed layer is unmapped (R313). -/
def State.paKind (s : State) (pa : Nat) : Option PaKind :=
  if pa < 0x018000000000 then some .lp
  else if 0x080000000000 ≤ pa ∧ pa < 0x080100000000 then
    let d := (pa - 0x080000000000) / 2 ^ 30
    if s.layers.getD (d * 4 + 3) .normal = .shed then none else some (.t4 d (pa % 2 ^ 30))
  else if 0x090000000000 ≤ pa ∧ pa < 0x090100000000 then
    let d := (pa - 0x090000000000) / 2 ^ 30
    if s.layers.getD (d * 4 + 2) .normal = .shed then none else some (.t3 d (pa % 2 ^ 30))
  else none

/-- The physical address of a level address of T3 or T4 (R277, R280). -/
def paOfLevel (sp : Space) (a : Nat) : Nat :=
  (match sp with | .t3 => 0x090000000000 | _ => 0x080000000000) + a / 2 ^ 32 % 4 * 2 ^ 30 + a % 2 ^ 30

/-- The bank of an offset within a level (R276). -/
def bankOf (lvl off : Nat) : Nat :=
  match lvl with
  | 1 => off / 2 ^ 8 % 2 ^ 6
  | 2 => off / 2 ^ 8 % 2 ^ 7
  | 3 => (off / 2 ^ 8 % 2 ^ 10) ^^^ (off / 2 ^ 18 % 2 ^ 10)
  | _ => (off / 2 ^ 8 % 2 ^ 9) ^^^ (off / 2 ^ 17 % 2 ^ 9)

/-- Whether a physical byte cannot be delivered: its word has an uncorrectable error (R315) or its bank has failed
without a spare (R313). -/
def State.paBad (s : State) (pa : Nat) : Bool :=
  s.bad.contains (pa / 8) ||
  (match s.paKind pa with
    | some (.t3 d o) => s.deadBanks.contains (d, 3, bankOf 3 o)
    | some (.t4 d o) => s.deadBanks.contains (d, 4, bankOf 4 o)
    | _ => false)

/-- The byte at a physical address. -/
def State.memByte (s : State) (pa : Nat) : Byte := FMap.getD s.mem pa Config.freshByte

/-- Store a byte at a physical address; the canonical form of memory is kept. -/
def State.memPut (s : State) (pa : Nat) (b : Byte) : State := { s with mem := FMap.put s.mem pa b Config.freshByte }

/-- The canonical form of memory: addresses strictly rising, no entry equal to what an unlisted address reads as. -/
def Memory.wf (m : List Host.Cell) : Bool := FMap.wf m Config.freshByte

/-- n bytes from a physical address. -/
def State.memRead (s : State) (pa n : Nat) : List Byte := (span pa n).map s.memByte

/-- Store bytes from a physical address; a word covered whole loses its error mark (R315). -/
def State.memWrite (s : State) (pa : Nat) (bs : List Byte) : State :=
  let s1 := (bs.zipIdx).foldl (fun s p => s.memPut (pa + p.2) p.1) s
  if s1.bad.isEmpty then s1
  else
    let whole := coveredUnits .virt (span pa bs.length)
    { s1 with bad := s1.bad.filter fun w => !whole.contains w }

/-! ### Translation (R282 to R289) -/

/-- The address space with an identifier. -/
def State.space (s : State) (asid : BitVec 16) : Option ASpace := s.spaces.get? asid.toNat

/-- FMT of a PTE (R283). -/
def pteFmt (p : Nat) : Option Fmt := fmtOf (p / 2 ^ 58 % 32)
/-- GEO of a PTE (R283). -/
def pteGeo (p : Nat) : Nat := p / 2 ^ 55 % 8
/-- FAB of a PTE (R283). -/
def pteFab (p : Nat) : Bool := p / 2 ^ 63 % 2 == 1
/-- R of a PTE (R283). -/
def pteR (p : Nat) : Bool := p / 2 % 2 == 1
/-- W of a PTE (R283). -/
def pteW (p : Nat) : Bool := p / 4 % 2 == 1
/-- X of a PTE (R283). -/
def pteX (p : Nat) : Bool := p / 8 % 2 == 1
/-- ADDR of a PTE as an address (R283). -/
def pteAddr (p : Nat) : Nat := p / 2 ^ 16 % 2 ^ 36 * 2 ^ 16

/-- Element formats a scale geometry allows (R147). -/
def geoAllows (geo : Nat) (f : Fmt) : Bool :=
  match geo with
  | 0 => true
  | 1 => f == .e4m3 || f == .e5m2 || f == .e3m2 || f == .e2m3 || f == .e2m1 || f == .i8
  | 2 => f == .e4m3 || f == .e5m2 || f == .e3m2 || f == .e2m3 || f == .e2m1
  | 3 => f == .e4m3 || f == .e5m2 || f == .e3m2 || f == .e2m3 || f == .e2m1
  | 4 | 5 | 6 => f == .i4 || f == .n4 || f == .i8 || f == .n8
  | _ => false

/-- Block or group length of a scale geometry (R147). -/
def geoLen (geo : Nat) : Nat :=
  match geo with
  | 1 => 32 | 2 => 16 | 3 => 32 | 4 => 32 | 5 => 64 | 6 => 128 | _ => 0

/-- Bytes of one scale of a geometry (R146, R203). -/
def geoScale (geo : Nat) : Nat :=
  match geo with
  | 0 => 0 | 1 => 1 | 2 => 1 | 3 => 1 | _ => 4

/-- Whether a leaf's format and geometry agree (R284). -/
def leafFormatOk (p : Nat) : Bool :=
  if pteGeo p = 0 then true
  else match pteFmt p with
    | some f => geoAllows (pteGeo p) f
    | none => false

/-- The walk of R282 and R284 over the remaining levels, each given by its number and the lowest bit of its index; the
answer is the leaf PTE and its level. -/
def State.walk (s : State) (va : Nat) (table : Nat) (lvls : List (Nat × Nat)) : Except Cause (Nat × Nat) :=
  match lvls with
  | [] => .error .translation
  | (lvl, sh) :: rest =>
    let at' := table + 8 * (va / 2 ^ sh % (if lvl = 5 then 16 else 8192))
    if (s.paKind at').isNone then .error .translation
    else if s.paBad at' then .error .uncorrectableData
    else
      let p := leNat (s.memRead at' 8)
      let leaf := p / 16 % 2 == 1
      if p % 2 = 0 then .error .translation
      else if p / 2 ^ 5 % 2 ^ 11 ≠ 0 ∨ p / 2 ^ 52 % 8 ≠ 0 then .error .translation
      else if leaf then
        if 4 ≤ lvl then .error .translation
        else if pteAddr p % 2 ^ sh ≠ 0 then .error .translation
        else if leafFormatOk p then .ok (p, lvl) else .error .translation
      else if lvl = 1 then .error .translation
      else if p / 2 % 8 ≠ 0 ∨ p / 2 ^ 55 ≠ 0 then .error .translation
      else s.walk va (pteAddr p) rest

/-- The levels of a walk and the lowest address bit that each indexes (R282). -/
def walkLevels : List (Nat × Nat) := [(5, 68), (4, 55), (3, 42), (2, 29), (1, 16)]

/-- The size of a page by the level of its leaf, as a power of two (R282). -/
def pageBits (lvl : Nat) : Nat :=
  match lvl with
  | 1 => 16 | 2 => 29 | _ => 42

/-- A translated byte address: physical address, PTE. -/
structure Xlat where
  pa : Nat
  pte : Nat
  deriving DecidableEq, Repr

/-- Translate an address of an address space by its tables (R281 to R284). -/
def State.translate (s : State) (asid : BitVec 16) (va : Nat) : Except Cause Xlat :=
  match s.space asid with
  | none => .error .translation
  | some a =>
    match s.walk va a.root walkLevels with
    | .error c => .error c
    | .ok (p, lvl) => .ok { pa := pteAddr p + va % 2 ^ pageBits lvl, pte := p }

/-- Where an engine that serves a core keeps its translations (R275, R288, R354): 4 the T3 engine, one of the die's 16, 1 the T4
engine, one of its eight (log entry 57), 2 the die's streaming engine, 3 the cluster's T2 engine. -/
def engKey (c : CoreId) (eng : Nat) : Nat :=
  match eng with
  | 1 => c.toNat / 128 * 64 + 16 + c.toNat % 8
  | 2 => c.toNat / 128 * 64 + 32
  | 3 => 256 + clusterOf c
  | _ => c.toNat / 128 * 64 + c.toNat % 16

/-- The translation cache behind an access (R288): the core's for engine number 0, an engine's otherwise; an agent outside
the cores has none. -/
def State.cacheOf (s : State) (c : Option CoreId) (eng : Nat) : List Tlb :=
  match c with
  | none => []
  | some c => if eng = 0 then (s.core c).tlb else s.etlb.getD (engKey c eng) []

/-- A translation that a cache holds under the current generation: an older one counts as a miss (R288). -/
def tlbHit (l : List Tlb) (asid : BitVec 16) (gen : BitVec 8) (va : Nat) : Option Tlb :=
  l.find? fun t => t.asid == asid && t.gen == gen && t.page == va / 2 ^ pageBits t.lvl

/-- Translate for a core, one of its engines, or an agent outside the cores: a translation that its cache holds serves first
(R288). -/
def State.translateFor (s : State) (c : Option CoreId) (asid : BitVec 16) (va : Nat) (eng : Nat := 0) : Except Cause Xlat :=
  match s.space asid with
  | none => .error .translation
  | some a =>
    match tlbHit (s.cacheOf c eng) asid a.gen va with
    | some t => .ok { pa := pteAddr t.pte.toNat + va % 2 ^ pageBits t.lvl, pte := t.pte.toNat }
    | none => s.translate asid va

/-- Keep a translation in a cache of 256 entries, the newest first. -/
def keepTlb (l : List Tlb) (t : Tlb) : List Tlb := (t :: l.filter fun u => u != t).take 256

/-- Walk for an address and keep the translation in the cache of a core or of one of its engines; a failed walk leaves none
(R288, R292). -/
def State.prefetch (s : State) (c : CoreId) (va : Nat) (eng : Nat := 0) : State :=
  let asid := s.asidOf c
  match s.space asid with
  | none => s
  | some a =>
    match s.walk va a.root walkLevels with
    | .error _ => s
    | .ok (p, lvl) =>
      let t : Tlb := { asid := asid, gen := a.gen, page := va / 2 ^ pageBits lvl, pte := BitVec.ofNat 64 p, lvl := lvl }
      if eng = 0 then s.modCore c fun k => { k with tlb := keepTlb k.tlb t }
      else { s with etlb := s.etlb.set (engKey c eng) (keepTlb (s.etlb.getD (engKey c eng) []) t) }

/-- What an access leaves in the cache that it translates through: on a miss its translation is kept (R288). -/
def State.cached (s : State) (c : CoreId) (va : Nat) (eng : Nat := 0) : State :=
  match s.space (s.asidOf c) with
  | none => s
  | some a =>
    match tlbHit (s.cacheOf (some c) eng) (s.asidOf c) a.gen va with
    | some _ => s
    | none => s.prefetch c va eng

/-- What a virtual access needs of a page (R291); SEAL and UNSEAL need nothing but a translation (R308). -/
inductive Perm | any | r | w | rw | x
  deriving DecidableEq, Repr

/-- Whether a page grants a permission (R283, R291). -/
def permOk (p : Perm) (pte : Nat) : Bool :=
  match p with
  | .any => true
  | .r => pteR pte
  | .w => pteW pte
  | .rw => pteR pte && pteW pte
  | .x => pteX pte

/-- A byte range cut at 64 KiB page boundaries: (address, length) pieces; fuel bounds the number of pieces. -/
def pieces (fuel va n : Nat) : List (Nat × Nat) :=
  match fuel with
  | 0 => []
  | fuel + 1 =>
    if n = 0 then []
    else
      let l := min n (0x10000 - va % 0x10000)
      (va, l) :: pieces fuel (va + l) (n - l)

/-- TRANSLATION, then PROTECTION, of one piece of a virtual range (R284, R291 steps 2 and 3). -/
def State.pieceCheck (s : State) (c : Option CoreId) (asid : BitVec 16) (p : Perm) (pc : Nat × Nat) (eng : Nat := 0) :
    Except (Cause × Nat) (Nat × Nat) :=
  match s.translateFor c asid pc.1 eng with
  | .error x => .error (x, pc.1)
  | .ok t =>
    if pteFab t.pte then .error (.protection, pc.1)
    else if (s.paKind t.pa).isNone then .error (.translation, pc.1)
    else if permOk p t.pte then .ok (t.pa, pc.2) else .error (.protection, pc.1)

/-- Check every piece in order; the physical pieces, or the first failure. -/
def State.piecesCheck (s : State) (c : Option CoreId) (asid : BitVec 16) (p : Perm) (l : List (Nat × Nat)) (eng : Nat := 0) :
    Except (Cause × Nat) (List (Nat × Nat)) :=
  match l with
  | [] => .ok []
  | a :: t =>
    match s.pieceCheck c asid p a eng with
    | .error x => .error x
    | .ok q =>
      match s.piecesCheck c asid p t eng with
      | .error x => .error x
      | .ok r => .ok (q :: r)

/-- The pieces of a virtual range of n bytes. -/
def vPieces (va n : Nat) : List (Nat × Nat) := pieces (n / 0x10000 + 2) va n

/-- Translate and check a virtual range (R291 steps 2 to 4): an address outside the space fails with TRANSLATION, a
retired space with STALE_GENERATION (R287). -/
def State.vRange (s : State) (c : Option CoreId) (asid : BitVec 16) (p : Perm) (va n : Nat) (eng : Nat := 0) :
    Except (Cause × Nat) (List (Nat × Nat)) :=
  match s.space asid with
  | none => .error (.translation, if 2 ^ 72 < va + n then max va (2 ^ 72) else va)
  | some a =>
    if 2 ^ 72 < va + n then .error (.translation, max va (2 ^ 72))
    else match s.piecesCheck c asid p (vPieces va n) eng with
      | .error x => .error x
      | .ok l => if a.retired then .error (.staleGeneration, va) else .ok l

/-- The bytes behind physical pieces. -/
def State.readPieces (s : State) (l : List (Nat × Nat)) : List Byte := (l.map fun p => s.memRead p.1 p.2).flatten

/-- The offset of the first byte behind physical pieces that meets an uncorrectable error. -/
def State.badPiece (s : State) (l : List (Nat × Nat)) : Option Nat :=
  ((l.map fun p => span p.1 p.2).flatten).findIdx? s.paBad

/-- A virtual read that the device makes under an address space without a footprint check (R239, R398, R416). -/
def State.devRead (s : State) (c : Option CoreId) (asid : BitVec 16) (va n : Nat) : Except (Cause × Nat) (List Byte) :=
  match s.vRange c asid .r va n with
  | .error x => .error x
  | .ok l =>
    match s.badPiece l with
    | some i => .error (.uncorrectableData, va + i)
    | none => .ok (s.readPieces l)

/-- Store bytes over physical pieces in order. -/
def State.writePieces (s : State) (l : List (Nat × Nat)) (bs : List Byte) : State :=
  match l with
  | [] => s
  | (pa, n) :: t => (s.memWrite pa (bs.take n)).writePieces t (bs.drop n)

/-! ### Taking an exception (R393 to R401, R482) -/

/-- TSTAT as a word (R397). -/
def Ctx.tstat (x : Ctx) : Word :=
  BitVec.ofNat 64 (x.tsp.toNat * 2 ^ 48 + x.tnest.toNat * 2 ^ 7 + x.tdict.toNat * 2 ^ 6 + x.tdefer.toNat * 2 ^ 5 +
    x.tstream.toNat * 2 ^ 3 + x.te.toNat)

/-- Whether a C instruction's sent request must complete before the core freezes (R393): the polls of the wait
instructions have sent nothing that must. -/
def Req.mustComplete : Req → Bool
  | .barw _ => false
  | _ => true

/-- A stream at its stopping point: wait counts start afresh after the resume (R393). -/
def Stream.stopped (t : Stream) : Stream := { t with wait := none, bar := none }

/-- A held instruction of a stream other than C, or a poll of C, stops before issue (R393). -/
def Stream.unsent (t : Stream) : Stream :=
  match t.sent with
  | some q => if q.req.mustComplete then t else { t with sent := none }
  | none => t

/-- Leave the core frozen for the management core: the task is FROZEN, and a checkpoint that waits for it is dropped (R248, R399,
R423). -/
def State.leaveFrozen (s : State) (c : CoreId) : State :=
  let s1 := s.modCore c fun k => { k with save := none, frz := k.frz.map fun f => { f with settled := true, report := true } }
  match (s.core c).run with
  | some r => s1.modTask r.lid.toNat r.tidx.toNat fun t => { t with st := .frozen }
  | none => s1

/-- Escalation (R399): the second fault's cause and address, NEST set, the core stays frozen. -/
def State.escalate (s : State) (c : CoreId) (cause : Cause) (addr : Word) : State :=
  let s1 := s.modCtx c fun x =>
    { x with nestCause := BitVec.ofNat 8 cause.code, nestAddr := addr, tnest := true }
  s1.leaveFrozen c

/-- The trap frame (R401). -/
def frameBytes (x : Ctx) (oldTstat cpc : Word) : List Byte :=
  leBytes 8 x.cause.toNat ++ leBytes 8 x.trapPc.toNat ++ leBytes 8 x.trapAddr.toNat ++ leBytes 8 oldTstat.toNat ++
  leBytes 8 cpc.toNat ++ leBytes 8 (x.sr 48).toNat ++ leBytes 8 (x.sr 49).toNat ++ leBytes 8 (x.sr 50).toNat

/-- CPC of the frame: where the C stream resumes, 0 when it is not live (R401). -/
def Ctx.cpc (x : Ctx) (f : Frz) : Word :=
  match f.strm, x.strC.live with
  | .c, _ => x.trapPc
  | _, .live => x.strC.pc.setWidth 64
  | _, _ => 0

/-- Handler entry (R398): once the core has frozen, the frame is written, TE set, the C stream's state set aside and the
C stream started at the handler; without a handler the task is left frozen for the management core. An odd entry in the
handler table would set an odd PC (R66), which no PC is: the entry escalates with MISALIGNED (log entry 120). -/
def State.enterHandler (s : State) (c : CoreId) : State :=
  match (s.core c).frz with
  | none => s
  | some f =>
    let pkt := s.pktOf c
    if pktField pkt 0x28 8 = 0 ∨ f.cause = .coreFrozen then s.leaveFrozen c
    else match s.devRead (some c) (s.asidOf c) (pktAddr pkt 0x28 + 8 * f.strm.num) 8 with
      | .error (x, a) => s.escalate c x (BitVec.ofNat 64 a)
      | .ok bs =>
        let entry := leNat bs
        if entry = 0 then s.leaveFrozen c
        else
          let x := s.ctx c
          let top := if x.tsp = 0 then 0x10000 else x.tsp.toNat
          let fr := top - 64
          let s1 := s.modCtx c fun x => { x with te := true }
          if fr < 0x1000 then s1.escalate c .protection (BitVec.ofNat 64 fr)
          else match s1.badOf c 4 .cr (span fr 64) with
            | some b => s1.escalate c .uncorrectableData (BitVec.ofNat 64 b)
            | none =>
              let cells := (frameBytes x f.oldTstat (x.cpc f)).zipIdx.map fun p => (fr + p.2, p.1)
              let s2 := s1.localWrite c 4 .cr cells
              let odd := entry % 2 == 1
              let pc := if odd then x.strC.pc else BitVec.ofNat 72 (pktVahi pkt * 2 ^ 64 + entry)
              let s3 := s2.modCtx c fun x =>
                { x with tsp := BitVec.ofNat 16 fr
                         shadow := some x.strC.stopped
                         strC := { Stream.reset with live := .live, pc := pc } }
              if odd then s3.escalate c .misaligned (BitVec.ofNat 64 entry)
              else s3.modCore c fun k => { k with frz := none }

/-- Stop every stream of a core where it stands, without handler entry; the task waits for its recovery (R393, R419). -/
def State.freezeNow (s : State) (c : CoreId) (cause : Cause) : State :=
  let s1 := s.modCtx c fun x =>
    { x with strC := x.strC.stopped.unsent, strV := { x.strV.stopped with sent := none },
             strM := { x.strM.stopped with sent := none }, strX := { x.strX.stopped with sent := none } }
  let pending := (s1.ctx c).strC.sent.isSome
  let s2 := s1.modCore c fun k =>
    { k with save := none
             frz := some { strm := .c, cause := cause, addr := 0, pc := 0, defer := false, dict := false,
                           oldTstat := k.ctx.tstat, settled := !pending, report := false } }
  if pending then s2 else s2.leaveFrozen c

/-- Freeze a core at once with a cause of the recovery (R419, R420). A fault that waits for its handler entry enters none: its
instruction has not issued, and faults again after the recovery, a deferred fault at its stream's next instruction; a task that is
already left frozen stays as it is. -/
def State.freezeCore (s : State) (c : CoreId) (cause : Cause) : State :=
  match (s.core c).frz with
  | none => s.freezeNow c cause
  | some f =>
    if f.report then s
    else (s.modStr c f.strm fun t => if f.defer then { t with dfault := some (f.cause, f.addr) } else t).modCore c fun k =>
      { k with save := none, frz := some { f with cause := cause, defer := false } }

/-- An item or a nest step meets the window of a failed lender: it reads or writes there what holds its parity, and the core
freezes (R419, R420). -/
def State.windowTouch (s : State) (c : CoreId) (sp : Space) (as : List Nat) : State :=
  if as.any (s.deadCell c sp) then s.freezeCore c .coreFrozen else s

/-- Take a precise fault of a stream (R393, R394, R398, R399): every stream stops, the trap registers receive the fault,
and the handler is entered, or the task is left frozen; with TE set the fault escalates. A C instruction whose request
has been sent completes first; if it then faults itself, the core stops for what it was stopping for, and the instruction issues
again after the resume. A read in the window of a failed lender freezes the core (R420). -/
def State.takeFault (s : State) (c : CoreId) (e : Strm) (cause : Cause) (addr : Word) (defer : Bool) : State :=
  if cause = .coreFrozen then s.freezeCore c .coreFrozen
  else if (s.core c).frz.isSome then s.modStr c e fun t => { t with sent := none } else
  let x := s.ctx c
  let t := x.str e
  let dict := match t.held with
    | some (.code _) => true
    | _ => false
  let frz : Frz := { strm := e, cause := cause, addr := addr, pc := t.pc, defer := defer, dict := dict,
                     oldTstat := x.tstat, settled := true, report := false }
  let s1 := s.modCtx c fun x =>
    let x := x.setStr e { (x.str e) with sent := none, held := none, wait := none, join := none }
    { x with strC := x.strC.stopped.unsent, strV := { x.strV.stopped with sent := none },
             strM := { x.strM.stopped with sent := none }, strX := { x.strX.stopped with sent := none } }
  if x.te then
    (s1.modCore c fun k => { k with frz := some frz }).escalate c cause addr
  else
    let s2 := s1.modCtx c fun x =>
      { x with cause := BitVec.ofNat 8 cause.code, trapPc := t.pc.setWidth 64, trapAddr := addr,
               tstream := BitVec.ofNat 2 e.num, tdefer := defer, tdict := dict }
    let pending := (s2.ctx c).strC.sent.isSome
    let s3 := s2.modCore c fun k => { k with frz := some { frz with settled := !pending } }
    if pending then s3 else s3.enterHandler c

/-- The return of ERET in its issue cycle (R400, R482): scratch registers and the set-aside C stream come back, TE is
cleared, the faulting stream resumes at TRAPPC and every stream is released. A C stream that stood at a JOIN comes up anew at its
PC, which the handler may have changed (R32). -/
def State.returnFromTrap (s : State) (c : CoreId) : State :=
  let x := s.ctx c
  let hi := s.vahi c * 2 ^ 64
  let fr := if x.tsp = 0 then 0x10000 else x.tsp.toNat
  let bs := s.localBytes c 0 .cr fr 64
  let dw := fun i => leNat ((bs.drop (8 * i)).take 8)
  s.modCtx c fun x =>
    let x := ((x.setSr 48 (BitVec.ofNat 64 (dw 5))).setSr 49 (BitVec.ofNat 64 (dw 6))).setSr 50
      (BitVec.ofNat 64 (dw 7))
    let shadow := match x.shadow with
      | some t => t
      | none => Stream.reset
    let resume := if x.tstream = 0 then x.trapPc.toNat else dw 4
    let strC := if shadow.live = .live then { shadow with pc := BitVec.ofNat 72 (hi + resume), held := none, join := none }
      else shadow
    let x := { x with tsp := x.tsp + 64, te := false, shadow := none, strC := strC }
    match x.tstream.toNat with
    | 0 => x
    | 1 => { x with strV := { x.strV with pc := BitVec.ofNat 72 (hi + x.trapPc.toNat), held := none } }
    | 2 => { x with strM := { x.strM with pc := BitVec.ofNat 72 (hi + x.trapPc.toNat), held := none } }
    | _ => { x with strX := { x.strX with pc := BitVec.ofNat 72 (hi + x.trapPc.toNat), held := none } }

end Sys2Proof.Machine
end

