-- ==== Sys2Proof/Machine/Flags.lean ====
section
/-!
DEFINITION. Machine/Flags.lean: the control and status registers as words, the collection of events, and what a CSR
access does to each field (R15 to R17, R54 to R64, R90, R91, R125, R166 to R168, R209 to R213, R367 to R369, R396, R397).
-/
namespace Sys2Proof.Machine

/-- OR events into VFLAGS (R172). -/
def Ctx.raiseV (x : Ctx) (e : BitVec 6) : Ctx := { x with vflags := x.vflags ||| e, vNow := x.vNow ||| e }

/-- OR events into MSTAT (R210). -/
def Ctx.raiseM (x : Ctx) (e : BitVec 5) : Ctx := { x with mflags := x.mflags ||| e, mNow := x.mNow ||| e }

/-- Clear events of VFLAGS: what hardware has set in the same cycle stays set (R16). -/
def Ctx.clearV (x : Ctx) (clr : BitVec 6) : Ctx := { x with vflags := x.vflags &&& ~~~clr ||| x.vNow }

/-- Clear events of MSTAT: what hardware has set in the same cycle stays set (R16). -/
def Ctx.clearM (x : Ctx) (clr : BitVec 5) : Ctx := { x with mflags := x.mflags &&& ~~~clr ||| x.mNow }

/-- Clear OORFLAG: an out-of-range access of the same cycle is recorded after the clear (R16, R44). -/
def Ctx.clearOor (x : Ctx) : Ctx :=
  match x.oorNow with
  | none => { x with oorFlag := false }
  | some r => x.setOor r

/-- MSTAT's event bits of V-style events: INV, OVF, UNF and INX close up where DZE stands in VFLAGS (R167, R210). -/
def mEv (e : Ev) : BitVec 5 :=
  BitVec.ofNat 5 ((e.getLsbD 0).toNat + (e.getLsbD 2).toNat * 2 + (e.getLsbD 3).toNat * 4 + (e.getLsbD 4).toNat * 8)

/-- SZERO of MSTAT (R161, R210). -/
def mSzero : BitVec 5 := 16

/-- COREID of a core (R2, R55). -/
def State.coreId (s : State) (c : CoreId) : Word :=
  let k := s.core c
  let n := c.toNat
  BitVec.ofNat 64 (k.regrown.toNat * 2 ^ 25 + k.pcol.toNat * 2 ^ 20 + n / 128 * 2 ^ 18 + n % 16 * 2 ^ 14 +
    n / 16 % 8 * 2 ^ 11 + n)

/-- FEATURES (R64). -/
def State.features (s : State) : Word :=
  BitVec.ofNat 64 (s.mgmt.lgen.toNat * 2 ^ 16 + s.mgmt.usable.toNat * 2 ^ 8 + s.mgmt.present.toNat)

/-- The C stream of the task: the set-aside one while a handler runs (R482). -/
def Ctx.ownC (x : Ctx) : Stream :=
  match x.shadow with
  | some t => t
  | none => x.strC

/-- A bit for each stream, C lowest (R57); while a handler runs, as they stood at the freeze (R482). -/
def Ctx.streamBits (x : Ctx) (f : Stream → Bool) : Nat :=
  (f x.ownC).toNat + (f x.strV).toNat * 2 + (f x.strM).toNat * 4 + (f x.strX).toNat * 8

/-- STREAMS (R57). -/
def Ctx.streams (x : Ctx) : Word :=
  BitVec.ofNat 64 (x.streamBits (fun t => t.join.isSome) * 256 + x.streamBits (fun t => t.live == .exited) * 16 +
    x.streamBits (fun t => t.live == .live))

/-- Deposited tokens of a queue, those of this cycle included (R28, R58). -/
def Ctx.tokens (x : Ctx) (q : Nat) : Nat := x.tok.getD q 0 + x.fresh.getD q 0

/-- RINGCNT (R58). -/
def Ctx.ringcnt (x : Ctx) : Word :=
  BitVec.ofNat 64 ((List.range 8).foldl (fun a q => a + x.tokens q * 16 ^ q) 0)

/-- OORINFO (R60). -/
def Ctx.oorinfo (x : Ctx) : Word :=
  BitVec.ofNat 64 (x.oorStream.toNat * 64 + x.oorSpace.toNat * 4 + x.oorWrite.toNat * 2 + x.oorFlag.toNat)

/-- VCTL (R166). -/
def Ctx.vctl (x : Ctx) : Word :=
  BitVec.ofNat 64 (x.sat.toNat * 2 ^ 13 + x.daz.toNat * 2 ^ 12 + x.ftz.toNat * 2 ^ 11 + x.srk.toNat * 2 ^ 6 +
    x.crm.toNat * 2 ^ 3 + x.arm.toNat)

/-- Load VCTL's fields from a word: a field that would hold a reserved value keeps its value (R166). -/
def Ctx.setVctl (x : Ctx) (w : Word) : Ctx :=
  let n := w.toNat
  let srk := n / 2 ^ 6 % 32
  let crm := n / 2 ^ 3 % 8
  let arm := n % 8
  { x with sat := n / 2 ^ 13 % 2 == 1, daz := n / 2 ^ 12 % 2 == 1, ftz := n / 2 ^ 11 % 2 == 1
           srk := if 8 ≤ srk ∧ srk ≤ 23 then BitVec.ofNat 5 srk else x.srk
           crm := if crm ≤ 5 then BitVec.ofNat 3 crm else x.crm
           arm := if arm ≤ 4 then BitVec.ofNat 3 arm else x.arm }

/-- Bits of a line of elements, and its bytes (R130 step 5). -/
def lineBytes (f : Fmt) (n : Nat) : Nat := (n * f.width + 7) / 8

/-- Steps 1 and 3 to 5 of R130: the format is a code of R78 (already read), narrow formats are row-major, the base and
pitch are aligned, and lines do not overlap. -/
def TView.shapeOk (v : TView) : Bool :=
  let l := if v.maj then v.cols else v.rows
  let e := if v.maj then v.rows else v.cols
  (!(decide (v.fmt.width < 8) && v.maj)) && v.base % 64 == 0 && v.pitch % 16 == 0 &&
  (decide (l ≤ 1) || decide (lineBytes v.fmt e ≤ v.pitch))

/-- Bytes from the base to the end of the last line (R130 step 6). -/
def TView.extent (v : TView) : Nat :=
  let l := if v.maj then v.cols else v.rows
  let e := if v.maj then v.rows else v.cols
  (l - 1) * v.pitch + lineBytes v.fmt e

/-- The weight view that a WV register's fields describe, when FMT is a format (R213). -/
def wvView (w : Word) : Option TView :=
  let n := w.toNat
  match fmtOf (n / 2 ^ 57 % 32) with
  | none => none
  | some f => some { base := n % 2 ^ 21, pitch := n / 2 ^ 21 % 2 ^ 16, rows := n / 2 ^ 37 % 2 ^ 10 + 1,
                     cols := n / 2 ^ 47 % 2 ^ 10 + 1, fmt := f, maj := n / 2 ^ 62 % 2 == 1 }

/-- WV with VALID recomputed from its other fields and the WB allotment (R213). -/
def wvValidate (wb : Nat) (w : Word) : Word :=
  let f := w.setWidth 63
  match wvView w with
  | none => f.setWidth 64
  | some v =>
    if v.shapeOk && decide (v.base + v.extent ≤ wb) then f.setWidth 64 ||| (1 <<< 63) else f.setWidth 64

/-- The writable bits of the matrix-nest registers (R367 to R369). -/
def mnMask (i : Nat) : Word :=
  match i with
  | 0 => 0xFFFFFFFFFFFF803F
  | 1 => 0xFFFFFFFFFFFFFF00
  | _ => 0xFFFFFFFFFFFFFFFF

/-- What CSRR reads from a known register (R54 to R64 and the chapters R54 names). -/
def State.csrRead (s : State) (c : CoreId) (n : Nat) : Word :=
  let x := s.ctx c
  match n with
  | 0x000 => s.coreId c
  | 0x001 => s.features
  | 0x002 => s.cycle
  | 0x003 => s.devTime
  | 0x010 => x.streams
  | 0x011 => x.ringcnt
  | 0x012 => x.wdog.setWidth 64
  | 0x014 => x.oorinfo
  | 0x015 => x.oorAddr
  | 0x016 => x.lend.setWidth 64
  | 0x020 => x.cause.setWidth 64
  | 0x021 => x.trapPc
  | 0x022 => x.trapAddr
  | 0x023 => x.nestCause.setWidth 64
  | 0x024 => x.nestAddr
  | 0x025 => x.tstat
  | 0x030 => x.depCount.setWidth 64
  | 0x031 => s.mgmt.depThresh.setWidth 64
  | 0x040 => x.vctl
  | 0x041 => x.vflags.setWidth 64
  | 0x042 => x.actm.setWidth 64
  | 0x050 => x.mflags.setWidth 64
  | 0x051 => x.mcrm.setWidth 64
  | 0x052 => x.msnap.setWidth 64
  | n =>
    if 0x054 ≤ n ∧ n ≤ 0x057 then x.wv.getD (n - 0x054) 0
    else if 0x058 ≤ n ∧ n ≤ 0x05F then x.mn.getD (n - 0x058) 0
    else 0

/-- The new content of an RW field under an operation (R125). -/
def CsrOp.rw (op : CsrOp) (old g : Word) : Word :=
  match op with
  | .w => g | .s => old ||| g | .c => old &&& ~~~g

/-- The bits a W1C field loses (R125). -/
def CsrOp.w1c (op : CsrOp) (g : Word) : Word :=
  match op with
  | .w => g | .s => g | .c => 0

/-- The effect of CSRW, CSRS and CSRC on a register, when it takes effect (R125, R126). Read-only fields and reserved
bits keep their value. -/
def State.csrWrite (s : State) (c : CoreId) (n : Nat) (op : CsrOp) (g : Word) : State :=
  let old := s.csrRead c n
  let v := op.rw old g
  let clr := op.w1c g
  let wb := (s.core c).inRange .wb
  s.modCtx c fun x =>
    match n with
    | 0x012 => { x with wdog := v.setWidth 32 }
    | 0x014 => if clr.getLsbD 0 then x.clearOor else x
    | 0x021 => { x with trapPc := v }
    | 0x025 =>
      let t := v.toNat / 2 ^ 48
      if t % 64 = 0 then { x with tsp := BitVec.ofNat 16 t } else x
    | 0x030 => { x with depCount := v.setWidth 32 }
    | 0x040 => x.setVctl v
    | 0x041 => x.clearV (clr.setWidth 6)
    | 0x050 => x.clearM (clr.setWidth 5)
    | 0x051 => if v.toNat % 8 ≤ 4 then { x with mcrm := v.setWidth 3 } else x
    | n =>
      if 0x054 ≤ n ∧ n ≤ 0x057 then { x with wv := x.wv.put (n - 0x054) (wvValidate wb v) 0 }
      else if 0x058 ≤ n ∧ n ≤ 0x05F then { x with mn := x.mn.put (n - 0x058) (v &&& mnMask (n - 0x058)) 0 }
      else x

/-- Count an issue of a deprecated instruction, with the advisory record it may post (R89). -/
def State.countDeprecated (s : State) (c : CoreId) : State :=
  let n := (s.ctx c).depCount
  if n = BitVec.allOnes 32 then s
  else
    let s1 := s.modCtx c fun x => { x with depCount := n + 1 }
    if s.mgmt.depThresh ≠ 0 ∧ n + 1 = s.mgmt.depThresh then
      match (s.core c).run with
      | some r => { s1 with out := s1.out ++ [.advisory c r.lid r.tidx (n + 1)] }
      | none => { s1 with out := s1.out ++ [.advisory c 0 0 (n + 1)] }
    else s1

end Sys2Proof.Machine
end

