-- ==== Sys2Proof/Machine/Regions.lean ====
section
/-!
DEFINITION. Machine/Regions.lean: error records and their rings, the barrier object, region entries, counting and firing
(R261 to R265, R295 to R302, R402 to R404).
-/
namespace Sys2Proof.Machine

/-! ### Records (R402, R403) -/

/-- LCORE of a record (R403). -/
def lcoreOf (c : Option CoreId) : Nat :=
  match c with
  | some k => k.toNat
  | none => 0x8000

/-- The 64 bytes of a record as a number, TIME zero (R403). -/
def Rec.bits (r : Rec) (seq : BitVec 32) : BitVec 512 :=
  BitVec.ofNat 512 (r.tag % 2 ^ 64 * 2 ^ 64 + r.lid % 2 ^ 32 * 2 ^ 128 + r.tidx % 2 ^ 24 * 2 ^ 160 +
    r.typ % 256 * 2 ^ 184 + r.cause % 256 * 2 ^ 192 + r.kind % 256 * 2 ^ 200 + lcoreOf r.core * 2 ^ 208 +
    seq.toNat * 2 ^ 224 + r.addr % 2 ^ 64 * 2 ^ 256 + r.pc % 2 ^ 64 * 2 ^ 320 + r.aux0 % 2 ^ 64 * 2 ^ 384 +
    r.aux1 % 2 ^ 64 * 2 ^ 448)

/-- Room for n more bytes in a ring whose consumer doubleword reads cons (R402, R442). -/
def ringRoom (k prod cons n : Nat) : Bool := decide (prod + n - min cons prod ≤ 2 ^ k)

/-! ### The barrier object (R261 to R265) -/

/-- A barrier object's fields (R261). -/
structure Barrier where
  exp : Nat
  pend : Nat
  next : Nat
  bph : Nat
  ovr : Bool
  time : Nat
  deriving DecidableEq, Repr, Inhabited

/-- Read an object; reserved bits are ignored (R261). -/
def Barrier.ofBytes (bs : List Byte) : Barrier :=
  let n := leNat bs
  { exp := n % 2 ^ 16, pend := n / 2 ^ 16 % 2 ^ 16, next := n / 2 ^ 32 % 2 ^ 16, bph := n / 2 ^ 48 % 16
    ovr := n / 2 ^ 52 % 2 == 1, time := n / 2 ^ 64 % 2 ^ 64 }

/-- The bytes of an object; reserved bits are written zero (R261). -/
def Barrier.bytes (o : Barrier) : List Byte :=
  leBytes 16 (o.exp + o.pend * 2 ^ 16 + o.next * 2 ^ 32 + o.bph * 2 ^ 48 + o.ovr.toNat * 2 ^ 52 + o.time * 2 ^ 64)

/-- What BARI writes (R264). -/
def Barrier.init (n : Nat) (now : Word) : Barrier :=
  { exp := n % 2 ^ 16, pend := n % 2 ^ 16, next := n % 2 ^ 16, bph := 0, ovr := false, time := now.toNat }

/-- BARA's read-modify-write; the flag tells an over-arrival (R265). -/
def Barrier.arrive (o : Barrier) (n : Nat) (drop : Bool) (now : Word) : Barrier × Bool :=
  if o.pend < n then ({ o with ovr := true }, true)
  else
    let next := if drop then o.next - n else o.next
    if o.pend = n then
      ({ o with bph := (o.bph + 1) % 16, exp := next, pend := next, next := next, time := now.toNat }, false)
    else ({ o with pend := o.pend - n, next := next }, false)

/-! ### Region entries: what they cover (R295 to R297) -/

/-- Whether an entry covers an address of its own form. -/
def Region.covers (r : Region) (a : Nat) : Bool := decide (r.base ≤ a) && decide (a < r.base + 2 ^ r.k)

/-- The words of an entry (R296). -/
def Region.words (r : Region) : List Nat :=
  [r.spc.code * 2 ^ 60 + r.base / 4096 % 2 ^ 60,
   r.asid.toNat * 2 ^ 48 + r.gen.toNat * 2 ^ 40 + r.k * 2 ^ 34 + r.sealed.toNat * 2 ^ 33 + r.rearm.toNat * 2 ^ 32 +
     r.act.toNat * 2 ^ 30 + r.flt.toNat * 2 ^ 25 + r.ovf.toNat * 2 ^ 24 + r.fired.toNat * 2 ^ 23 + r.valid.toNat * 2 ^ 22 +
     r.fires.toNat,
   r.count % 2 ^ 48, r.target, r.arg.toNat]

/-- The bytes of an entry (R296). -/
def Region.bytes (r : Region) : List Byte := (r.words.map (leBytes 8)).flatten

/-- The leaves of an address space's tables in a range: virtual start, physical start, length. Only listed memory can
hold a valid entry. -/
def State.leaves (s : State) (table : Nat) (lvls : List (Nat × Nat)) (vbase lo hi : Nat) : List (Nat × Nat × Nat) :=
  match lvls with
  | [] => []
  | (lvl, sh) :: rest =>
    let n := if lvl = 5 then 16 else 8192
    let cells := s.mem.filter fun p => decide (table ≤ p.1) && decide (p.1 < table + 8 * n) && p.1 % 8 == table % 8
    (cells.map fun p =>
      let i := (p.1 - table) / 8
      let v := vbase + i * 2 ^ sh
      let e := leNat (s.memRead (table + 8 * i) 8)
      if e % 2 = 0 ∨ hi ≤ v ∨ v + 2 ^ sh ≤ lo then []
      else if e / 16 % 2 = 1 then
        (if 4 ≤ lvl ∨ pteFab e ∨ pteAddr e % 2 ^ sh ≠ 0 then [] else [(v, pteAddr e, 2 ^ sh)])
      else s.leaves (pteAddr e) rest v lo hi).flatten

/-- The physical ranges that a die entry covers: by die and offset, or through its address space's mapping (R297). -/
def State.regionPas (s : State) (r : Region) : List (Nat × Nat) :=
  match r.spc with
  | .virt =>
    match s.space r.asid with
    | none => []
    | some a =>
      let hi := r.base + 2 ^ r.k
      (s.leaves a.root walkLevels 0 r.base hi).map fun l =>
        let lo' := max l.1 r.base
        let hi' := min (l.1 + l.2.2) hi
        (l.2.1 + (lo' - l.1), hi' - lo')
  | sp => [(paOfLevel sp r.base, 2 ^ r.k)]

/-- Whether physical ranges hold a byte. -/
def inRanges (l : List (Nat × Nat)) (a : Nat) : Bool := l.any fun p => decide (p.1 ≤ a) && decide (a < p.1 + p.2)

/-- How many bytes of a physical piece a die entry covers. -/
def State.coveredBytes (s : State) (r : Region) (pa n : Nat) : Nat :=
  let ranges := s.regionPas r
  ((span pa n).filter (inRanges ranges)).length

/-- The die entry of an address space that covers a virtual or level address (R295, R303). -/
def State.dieEntry (s : State) (asid : BitVec 16) (sp : Space) (a : Nat) : Option (Nat × Region) :=
  s.regions.find? fun p => p.2.valid && p.2.spc == sp && p.2.asid == asid && p.2.covers a

/-- The core entry that covers a local address (R295). -/
def Ctx.coreEntry (x : Ctx) (sp : Space) (a : Nat) : Option (Nat × Region) :=
  x.regs.find? fun p => p.2.spc == sp && p.2.covers a

/-! ### Writes beyond the cores (R297 to R299, R309) -/

/-- Whether a stream's write or an ARRV of n bytes is refused (R299). -/
def Region.refuses (r : Region) (n : Nat) : Bool :=
  decide (r.target ≠ 0) && decide (n ≠ 0) && !r.rearm && (r.fired || decide (r.target < r.count + n))

/-- The writer of a buffer write, for an overflow report: the running task of a core, with a KIND. -/
def State.srcOf (s : State) (c : CoreId) (kind : Nat) : WSrc :=
  match (s.core c).run with
  | some r => .task r.lid r.tidx c kind
  | none => .dev

/-- Bytes already accepted for a die entry and not yet counted (R299). -/
def State.promised (s : State) (id : Nat) (r : Region) : Nat :=
  let a := (s.counts.filter fun m => m.entry == id).foldl (fun n m => n + m.n) 0
  s.cores.foldl (fun n k => k.2.pend.foldl (fun n p => n + s.coveredBytes r p.pa p.bytes.length) n) a

/-- The die entries that refuse a stream's virtual write (R299). -/
def State.dieRefusers (s : State) (l : List (Nat × Nat)) : List Nat :=
  (s.regions.filter fun e =>
    e.2.valid && decide (e.2.target ≠ 0) &&
      (let n := l.foldl (fun n p => n + s.coveredBytes e.2 p.1 p.2) 0
       decide (n ≠ 0) && e.2.refuses (n + s.promised e.1 e.2))).map (·.1)

/-- Whether a write to physical pieces meets a sealed region (R309). -/
def State.sealedHit (s : State) (l : List (Nat × Nat)) : Bool :=
  s.regions.any fun e => e.2.valid && e.2.sealed && l.any fun p => decide (s.coveredBytes e.2 p.1 p.2 ≠ 0)

/-- Set FLT at the die entries that cover bytes a failed write did not perform (R297). -/
def State.setFlt (s : State) (l : List (Nat × Nat)) : State :=
  { s with regions := s.regions.map fun e =>
      if e.2.valid && l.any (fun p => decide (s.coveredBytes e.2 p.1 p.2 ≠ 0)) then (e.1, { e.2 with flt := true }) else e }

/-- Set FLT for n bytes at a virtual address that a failed write did not perform (R297): at the virtual entries of the address space
that cover them, and at the entries that cover their storage where they translate. -/
def State.fltVirt (s : State) (asid : BitVec 16) (va n : Nat) : State :=
  let s1 := s.setFlt ((vPieces va n).filterMap fun p => match s.translate asid p.1 with
    | .ok t => if pteFab t.pte then none else some (t.pa, p.2)
    | .error _ => none)
  { s1 with regions := s1.regions.map fun e =>
      if e.2.valid && e.2.spc == .virt && e.2.asid == asid && decide (e.2.base < va + n) && decide (va < e.2.base + 2 ^ e.2.k) then
        (e.1, { e.2 with flt := true })
      else e }

/-- Set OVF at the die entries that refused a write (R299). -/
def State.setOvf (s : State) (ids : List Nat) : State :=
  { s with regions := s.regions.map fun e => if ids.contains e.1 then (e.1, { e.2 with ovf := true }) else e }

/-- Push the counts of a performed write to the die entries that cover it, under the write's identity (R297, R298): an entry that is
disarmed when its home counts takes none (R299, R302). -/
def State.countPhys (s : State) (src : WSrc) (addr pa n : Nat) : State :=
  if s.regions.isEmpty then s
  else
    let msgs := s.regions.filterMap fun e =>
      if e.2.valid then
        let k := s.coveredBytes e.2 pa n
        if k = 0 then none else some { entry := e.1, n := k, addr := addr, src := src, wid := s.wid }
      else none
    { s with counts := s.counts ++ msgs }

/-- The bytes of a write by physical piece. -/
def cellsOf (l : List (Nat × Nat)) (bs : List Byte) : List (Nat × List Byte) :=
  match l with
  | [] => []
  | (pa, n) :: t => (pa, bs.take n) :: cellsOf t (bs.drop n)

/-- The generation of an address space (R287). -/
def State.genAt (s : State) (asid : BitVec 16) : BitVec 8 :=
  match s.space asid with
  | some a => a.gen
  | none => 0

/-- What is kept of a write performed now (R298). -/
def State.written (s : State) (via : Option (BitVec 16)) (addr : Nat) (l : List (Nat × Nat)) (bs : List Byte) : Written :=
  { via := via, gen := (via.map s.genAt).getD 0, addr := addr, cells := cellsOf l bs, later := [] }

/-- Pieces are written: of the writes that may be performed again, their bytes there are no longer the last ones (R320). -/
def State.writtenOver (s : State) (l : List (Nat × Nat)) : State :=
  { s with unacked := s.unacked.map fun u => { u with w := { u.w with later := u.w.later ++ l } }
           seenPkts := s.seenPkts.map fun q => { q with w := { q.w with later := q.w.later ++ l } } }

/-- Perform a physical write and send its counts to the homes (R297). It carries an identity, which its source keeps until the
acknowledgement is retired (R298); via is the address space of a virtual write. -/
def State.performWrite (s : State) (src : WSrc) (via : Option (BitVec 16)) (addr : Nat) (l : List (Nat × Nat)) (bs : List Byte) :
    State :=
  let s1 := (l.foldl (fun s p => s.countPhys src addr p.1 p.2) (s.writePieces l bs)).writtenOver l
  { s1 with wid := s1.wid + 1
            unacked := s1.unacked ++ [{ wid := s1.wid, src := src, w := s1.written via addr l bs }] }

/-- The bytes of a write, with their physical addresses. -/
def Written.bytes (w : Written) : List (Nat × Byte) := (w.cells.map fun p => p.2.zipIdx.map fun b => (p.1 + b.2, b.1)).flatten

/-- Where a replay performs byte i of a write that was performed at a physical address (R289, R298, R320): at the address that it
translates to now; not where a write has been performed since, in whose place it would come again, nor where the access would
be rejected (R309; log entry 144). -/
def State.againAt (s : State) (w : Written) (pa i : Nat) : Option Nat :=
  let q : Option Nat := match w.via with
    | none => some pa
    | some a => match s.vRange none a .w (w.addr + i) 1 with
      | .ok [p] => some p.1
      | _ => none
  match q with
  | none => none
  | some q => if inRanges w.later pa || inRanges w.later q || s.sealedHit [(q, 1)] then none else some q

/-- A write is performed again, with the same bytes, and is not counted again (R298). -/
def State.writeAgain (s : State) (w : Written) : State :=
  w.bytes.zipIdx.foldl (fun s b => match s.againAt w b.1.1 b.2 with
    | some q => s.memWrite q [b.1.2]
    | none => s) s

/-- Whether a stream's name in REQUEST_REPLAY stands for the source of a write: C for a core's streams, X for its engines, M for the
agents outside the cores (log entry 144). -/
def WSrc.named (w : WSrc) (c : CoreId) (e : Strm) : Bool :=
  match w, e with
  | .task _ _ k kind, .c => k == c && kind == 0
  | .task _ _ k kind, .x => k == c && kind != 0
  | .frame _, .m => true
  | .dev, .m => true
  | _, _ => false

/-- A source replays the writes whose acknowledgements it has not retired (R298). -/
def State.replayWrites (s : State) (c : CoreId) (e : Strm) : State :=
  (s.unacked.filter fun u => u.src.named c e).foldl (fun s u => s.writeAgain u.w) s

/-- The acknowledgements of the writes whose counts have all arrived are retired (R298). -/
def State.retireAcks (s : State) : State :=
  { s with unacked := s.unacked.filter fun u => s.counts.any fun m => m.wid == u.wid }

/-- Perform an accepted store at its bank (R290, R297). -/
def State.performStore (s : State) (c : CoreId) (p : PStore) : State :=
  s.performWrite (s.srcOf c 0) (some (s.asidOf c)) p.va [(p.pa, p.bytes.length)] p.bytes

/-- Perform every accepted store of a core, oldest first. -/
def State.performStores (s : State) (c : CoreId) : State :=
  let l := (s.core c).pend
  l.foldl (fun s p => s.performStore c p) (s.modCore c fun k => { k with pend := [] })

/-! ### Records in their rings (R402) -/

/-- Write n bytes at a virtual address as the device, without a footprint check: a sealed region refuses it (R309), and
the bytes are counted as every agent's are (R297, R332). A write that fails sets FLT. -/
def State.devWrite (s : State) (src : WSrc) (asid : BitVec 16) (va : Nat) (bs : List Byte) : Except State State :=
  match s.vRange none asid .w va bs.length with
  | .error _ => .error (s.fltVirt asid va bs.length)
  | .ok l => if s.sealedHit l then .error (s.fltVirt asid va bs.length) else .ok (s.performWrite src (some asid) va l bs)

/-- Write the records that wait for a queue, in order, while its ring has room (R402). -/
def State.drainRecs (s : State) (q : Nat) (l : List (BitVec 512)) : State :=
  match l with
  | [] => s
  | r :: t =>
    match s.queues.get? q with
    | none => s
    | some u =>
      match s.devRead none u.asid u.cons.toNat 8 with
      | .error _ => s
      | .ok bs =>
        if ringRoom u.ringK u.prod (leNat bs) 64 then
          match s.devWrite .dev u.asid (u.ring.toNat + u.prod % 2 ^ u.ringK)
              (leBytes 64 (r.toNat + s.devTime.toNat)) with
          | .error s1 => s1
          | .ok s1 =>
            ({ s1 with queues := s1.queues.set q { u with prod := u.prod + 64, waiting := u.waiting.drop 1 } }).drainRecs
              q t
        else s

/-- Produce a record for a queue: it takes the next SEQ and is written once the ring has room (R402, R403). -/
def State.report (s : State) (q : Nat) (r : Rec) : State :=
  match s.queues.get? q with
  | none => s
  | some u =>
    let u1 := { u with seq := u.seq + 1, waiting := u.waiting ++ [r.bits u.seq] }
    ({ s with queues := s.queues.set q u1 }).drainRecs q u1.waiting

/-- The die in whose buffer a record waits: that of its core; a record without a core waits on die 0 (R402). -/
def recDie (bits : BitVec 512) : Nat :=
  let n := bits.toNat / 2 ^ 208 % 2 ^ 16
  if n / 2 ^ 15 = 1 then 0 else n % 512 / 128

/-- Records in the buffer of a die (R402). -/
def State.dieRecs (s : State) (die : Nat) : Nat :=
  s.queues.foldl (fun n q => n + (q.2.waiting.filter fun r => recDie r == die).length) 0

/-- Whether a record of a task, or of its items, still waits to be written (R402). -/
def State.recsWait (s : State) (lid tidx : Nat) : Bool :=
  match s.launches.get? lid with
  | none => false
  | some l =>
    match s.queues.get? l.q.toNat with
    | none => false
    | some u => u.waiting.any fun r =>
        r.toNat / 2 ^ 128 % 2 ^ 32 == lid && r.toNat / 2 ^ 160 % 2 ^ 24 == tidx && r.toNat / 2 ^ 184 % 256 != 0x20

/-- A record of a launch's task, with the launch's TAG, in its queue (R402). -/
def State.reportTask (s : State) (lid tidx : Nat) (r : Rec) : State :=
  match s.launches.get? lid with
  | none => s
  | some l => s.report l.q.toNat { r with lid := lid, tidx := tidx, tag := pktTag l.pkt }

/-- The lowest-numbered launch queue that an address space owns. -/
def State.firstQueue (s : State) (asid : BitVec 16) : Option Nat :=
  minOf ((s.queues.filter fun q => q.2.asid == asid).map (·.1))

/-- An action record (R301): to the lowest queue of the entry's address space, else to the host. -/
def State.reportAction (s : State) (asid : BitVec 16) (r : Rec) : State :=
  match s.firstQueue asid with
  | some q => s.report q r
  | none => { s with out := s.out ++ [.mgmt [(r.bits 0).toNat + s.devTime.toNat]] }

/-! ### What a home sends (R301, R332) -/

/-- Whether a record still waits for room in its queue. -/
def State.recWaits (s : State) (q : Nat) (bits : BitVec 512) : Bool :=
  match s.queues.get? q with
  | some u => u.waiting.contains bits
  | none => false

/-- Send what a home has ready, in its order: a record that waits for room holds back what follows it (R332). -/
def State.homeSend (s : State) (l : List HomeMsg) : State × List HomeMsg :=
  match l with
  | [] => (s, [])
  | .notify w :: t => ({ s with out := s.out ++ [OutMsg.notify w] }).homeSend t
  | .action asid r :: t =>
    let s1 := s.reportAction asid r
    match s.firstQueue asid with
    | none => s1.homeSend t
    | some q =>
      match s.queues.get? q with
      | none => s1.homeSend t
      | some u => if s1.recWaits q (r.bits u.seq) then (s1, .handed q (r.bits u.seq) :: t) else s1.homeSend t
  | .handed q bits :: t => if s.recWaits q bits then (s, .handed q bits :: t) else s.homeSend t

/-- A home sends what it can. -/
def State.drainHome (s : State) (h : Nat) : State :=
  match s.homeQ.get? h with
  | none => s
  | some l =>
    match s.homeSend l with
    | (s1, []) => { s1 with homeQ := s1.homeQ.del h }
    | (s1, m :: t) => { s1 with homeQ := s1.homeQ.set h (m :: t) }

/-- A home has a message to send. -/
def State.homePost (s : State) (h : Nat) (m : HomeMsg) : State :=
  ({ s with homeQ := s.homeQ.set h (s.homeQ.getD h [] ++ [m]) }).drainHome h

/-! ### Counting and firing (R299 to R302) -/

/-- What counting did to an entry: the entry, whether it fires, whether it overflowed. -/
structure Counted where
  r : Region
  fires : Bool
  excess : Bool
  deriving DecidableEq, Repr

/-- The firing of an entry: FIRES rises, and with REARM the target is subtracted (R300). -/
def Region.fired1 (r : Region) : Region :=
  { r with fires := r.fires + 1, count := if r.rearm then r.count - r.target else r.count, fired := !r.rearm }

/-- Count n bytes; overflows are capped (R299). The flag free says that the entry has not yet fired in this cycle; one that
has fires in the next (R300). -/
def Region.countUp (r : Region) (n : Nat) (free : Bool) : Counted :=
  if r.target = 0 ∨ n = 0 then { r := r, fires := false, excess := false }
  else if r.rearm then
    let r1 := { r with count := r.count + n }
    if r.target ≤ r1.count ∧ free then { r := r1.fired1, fires := true, excess := false }
    else { r := r1, fires := false, excess := false }
  else if r.fired then { r := { r with ovf := true }, fires := false, excess := true }
  else if r.count + n < r.target then { r := { r with count := r.count + n }, fires := false, excess := false }
  else
    let excess := decide (r.target < r.count + n)
    let r1 := { r with count := r.target, ovf := r.ovf || excess }
    if free then { r := r1.fired1, fires := true, excess := excess } else { r := r1, fires := false, excess := excess }

/-- The entry key of a core entry's firing list. -/
def coreKey (c : CoreId) (slot : Nat) : Nat := 2 ^ 18 + c.toNat * 64 + slot

/-- AUX0 of a record that names an entry: die ++ index (R403). -/
def entryAux (die idx : Nat) : Nat := die * 65536 + idx

/-- Marks and credits that a firing of a die entry supplies to gates (R235, R244, R300). -/
def State.gateSees (s : State) (id : Nat) : State :=
  let hit := fun (p : BitVec 1024) (g : Nat) (mode : Nat) =>
    let w := pktGate p g
    w / 2 ^ 29 == mode && w / 2 ^ 26 % 4 * 65536 + w % 65536 == id
  let seq := fun (p : BitVec 1024) (g : Nat) =>
    let w := pktGate p g
    let i := id - (w / 2 ^ 26 % 4 * 65536 + w % 65536)
    if w / 2 ^ 29 = 3 ∧ w / 2 ^ 26 % 4 = id / 65536 ∧ w % 65536 ≤ id % 65536 ∧ i < pktTasks p then some i else none
  { s with launches := s.launches.map fun e =>
      let l := e.2
      let tasks0 := match seq l.pkt 0 with
        | some i => l.tasks.set i { l.task i with mark0 := true }
        | none => l.tasks
      let l1 := { l with tasks := tasks0 }
      let tasks1 := match seq l1.pkt 1 with
        | some i => l1.tasks.set i { l1.task i with mark1 := true }
        | none => l1.tasks
      (e.1, { l with
        tasks := tasks1
        mark0 := l.mark0 || hit l.pkt 0 1
        mark1 := l.mark1 || hit l.pkt 1 1
        cred0 := if hit l.pkt 0 2 then l.cred0 + 1 else l.cred0
        cred1 := if hit l.pkt 1 2 then l.cred1 + 1 else l.cred1 }) }

/-- The home of a barrier object sends every BARW that waits there the new phase in the cycle of an advance (R266): s is the state
before the access, t the one after it. -/
def State.barNotice (s t : State) (pa : Nat) : State :=
  if (Barrier.ofBytes (s.memRead pa 16)).bph = (Barrier.ofBytes (t.memRead pa 16)).bph then t
  else { t with cores := t.cores.map fun e =>
      (e.1, match e.2.ctx.strC.bar with
        | some (q, _) =>
          if q = pa then { e.2 with ctx := { e.2.ctx with strC := { e.2.ctx.strC with bar := some (q, true) } } } else e.2
        | none => e.2) }

/-- The first physical address of pieces. -/
def firstPa (l : List (Nat × Nat)) : Nat :=
  match l with
  | p :: _ => p.1
  | [] => 0

/-- The BARRIER action of a firing (R301): one arrival at the object, performed as BARA performs it, with the refusals of
its write (R299, R309). -/
def State.fireBarrier (s : State) (r : Region) (home aux : Nat) : State :=
  let va := r.base / 2 ^ 64 * 2 ^ 64 + r.arg.toNat * 16 % 2 ^ 64
  let bad := fun (s : State) (k : Cause) =>
    s.homePost home (.action r.asid { typ := 0x03, cause := k.code, kind := 7, core := none, lid := 0, tidx := 0, tag := 0,
                                      addr := va, pc := 0, aux0 := aux, aux1 := 0 })
  match s.vRange none r.asid .rw va 16 with
  | .error (k, _) => bad (s.fltVirt r.asid va 16) k
  | .ok l =>
    if s.sealedHit l then bad (s.setFlt l) .sealedWrite
    else match s.dieRefusers l with
      | i :: t => bad (s.setOvf (i :: t)) .arrivalOverflow
      | [] =>
        match s.badPiece l with
        | some _ => bad s .uncorrectableData
        | none =>
          let o := (Barrier.ofBytes (s.readPieces l)).arrive 1 false s.devTime
          let s1 := s.barNotice (s.performWrite .dev (some r.asid) va l o.1.bytes) (firstPa l)
          if o.2 then bad s1 .barrierOverarrival else s1

/-- The START action of a firing (R301): the record is to be moved once the slot of its core is free, which dispatch looks at
between two cycles. -/
def State.fireStart (s : State) (r : Region) (die home aux : Nat) : State :=
  let key := die * 1024 + r.arg.toNat % 1024
  match s.parked.get? key with
  | none => s
  | some (_, b) =>
    let own := match s.launches.get? b.lid.toNat with
      | some l => l.asid == r.asid
      | none => false
    if !own then
      s.homePost home (.action r.asid { typ := 0x03, cause := Cause.protection.code, kind := 7, core := none, lid := 0, tidx := 0,
                                        tag := 0, addr := r.arg.toNat % 1024, pc := 0, aux0 := aux, aux1 := 0 })
    else { s with parkedGo := s.parkedGo ++ [key] }

/-- The home of a core entry among the sources of R332: the core's region unit, or the cluster's T2 controller (R295). -/
def coreHome (c : CoreId) (sp : Space) : Nat :=
  match sp with
  | .t2 => 4 + 512 + clusterOf c
  | _ => 4 + c.toNat

/-- The action of a firing (R301), for an entry of a home. -/
def State.fireAct (s : State) (r : Region) (die idx home : Nat) : State :=
  match r.act.toNat with
  | 1 => s.fireBarrier r home (entryAux die idx)
  | 2 => s.fireStart r die home (entryAux die idx)
  | 3 => s.homePost home (.notify (BitVec.ofNat 128 (s.devTime.toNat * 2 ^ 64 + 2 ^ 60 + r.arg.toNat)))
  | _ => s

/-- What follows a firing of a die entry: its action and the gates that name it (R300). -/
def State.dieFired (s : State) (id : Nat) (r : Region) : State :=
  ((({ s with refire := s.refire ++ [id] }).fireAct r (id / 65536) (id % 65536) (id / 65536)).gateSees id)

/-- What follows a firing of a core entry (R300). -/
def State.coreFired (s : State) (c : CoreId) (slot : Nat) (r : Region) : State :=
  (({ s with refire := s.refire ++ [coreKey c slot] }).modCtx c fun x =>
    { x with firedNow := x.firedNow ++ [slot] }).fireAct r (c.toNat / 128) slot (coreHome c r.spc)

/-- Store a core entry. -/
def State.setCoreEntry (s : State) (c : CoreId) (slot : Nat) (r : Region) : State :=
  s.modCtx c fun x => { x with regs := x.regs.set slot r }

/-- An overflow record (R299, R403): of a task, or of frame ingest, which goes into the lowest queue of its address space as an action
record does (log entry 152). Other agents answer their overflows themselves, or are no engines. -/
def State.reportOverflow (s : State) (src : WSrc) (addr aux : Nat) : State :=
  match src with
  | .dev => s
  | .frame asid =>
    s.reportAction asid
      { typ := 0x02, cause := Cause.arrivalOverflow.code, kind := 4, core := none, lid := 0, tidx := 0, tag := 0,
        addr := addr, pc := 0, aux0 := aux, aux1 := 0 }
  | .task lid tidx c kind =>
    s.reportTask lid.toNat tidx.toNat
      { typ := 0x02, cause := Cause.arrivalOverflow.code, kind := kind, core := some c, lid := 0, tidx := 0, tag := 0,
        addr := addr, pc := 0, aux0 := aux, aux1 := 0 }

/-- A home counts a write at a die entry (R299, R300). -/
def State.countMsg (s : State) (m : CountMsg) : State :=
  match s.regions.get? m.entry with
  | none => s
  | some r =>
    if r.valid then
      let k := r.countUp m.n (!s.refire.contains m.entry)
      let s1 := { s with regions := s.regions.set m.entry k.r }
      let s2 := if k.fires then s1.dieFired m.entry k.r else s1
      if k.excess then s2.reportOverflow m.src m.addr m.entry else s2
    else s

/-- A count that a home has promised to take: that of a stream's write, which was accepted with room for it (R299). -/
def CountMsg.kept (m : CountMsg) : Bool :=
  match m.src with
  | .task _ _ _ kind => kind == 0
  | _ => false

/-- The promises of an entry are kept before another agent's write can take their room: accepted stores into it are
performed, and what streams have written into it is counted (R299, R302). -/
def State.keepPromises (s : State) (id : Nat) (r : Region) : State :=
  let s1 := s.cores.foldl (fun s k =>
    if k.2.pend.any fun p => decide (s.coveredBytes r p.pa p.bytes.length ≠ 0) then s.performStores (BitVec.ofNat 9 k.1)
    else s) s
  let mine := fun (m : CountMsg) => m.entry == id && m.kept
  (s1.counts.filter mine).foldl (fun s m => s.countMsg m) { s1 with counts := s1.counts.filter fun m => !mine m }

/-- A home counts a write: one of another agent than a stream after what was promised at the entry (R299, R302). -/
def State.countDie (s : State) (m : CountMsg) : State :=
  match s.regions.get? m.entry with
  | none => s
  | some r => if m.kept || r.rearm || r.target == 0 then s.countMsg m else (s.keepPromises m.entry r).countMsg m

/-- The cores whose entries count a write into a space of a core: its own, or those of the cluster for T2 (R295). -/
def State.counters (s : State) (c : CoreId) (sp : Space) : List CoreId :=
  match sp with
  | .t2 => (s.cores.filter fun k => clusterOf (BitVec.ofNat 9 k.1) == clusterOf c).map fun k => BitVec.ofNat 9 k.1
  | _ => [c]

/-- Count a write into a local space at the core entries of its owner; an overflow is capped and reported (R297, R299). -/
def State.countLocal (s : State) (owner : CoreId) (sp : Space) (as : List Nat)
    (src : WSrc) : State :=
  (s.counters owner sp).foldl (fun s c =>
    ((s.ctx c).regs).foldl (fun s (e : Nat × Region) =>
      let hit := as.filter e.2.covers
      if e.2.spc == sp && !hit.isEmpty then
        let k := e.2.countUp hit.length (!s.refire.contains (coreKey c e.1))
        let s1 := s.setCoreEntry c e.1 k.r
        let s2 := if k.fires then s1.coreFired c e.1 k.r else s1
        if k.excess then s2.reportOverflow src ((minOf hit).getD 0) (entryAux (c.toNat / 128) e.1) else s2
      else s) s) s

/-- Write bits of bytes of a local space and count the bytes (R44, R186, R297). -/
def State.localStoreBits (s : State) (c : CoreId) (agent : Nat) (sp : Space) (cells : List (Nat × Byte × Byte)) (kind : Nat) :
    State :=
  let s1 := s.localPut c agent sp cells
  (s.ownersOf c sp (cells.map (·.1))).foldl (fun s o => s.countLocal o.1 sp o.2 (s.srcOf c kind)) s1

/-- Write whole bytes of a local space and count them (R44, R297). -/
def State.localStore (s : State) (c : CoreId) (agent : Nat) (sp : Space) (cells : List (Nat × Byte)) (kind : Nat) : State :=
  s.localStoreBits c agent sp (wholeBytes cells) kind

/-- The core entries that refuse a stream's local store: core, slot, content and the bytes' owner (R299). -/
def State.localRefusers (s : State) (c : CoreId) (sp : Space) (as : List Nat) : List (CoreId × Nat × Region × CoreId) :=
  ((s.ownersOf c sp as).map fun o =>
    ((s.counters o.1 sp).map fun k =>
      (s.ctx k).regs.filterMap fun e =>
        if e.2.spc == sp && e.2.refuses (o.2.filter e.2.covers).length then some (k, e.1, e.2, o.1) else none).flatten).flatten

/-- Set OVF at the core entries that refused a write (R299). -/
def State.setLocalOvf (s : State) (l : List (CoreId × Nat × Region × CoreId)) : State :=
  l.foldl (fun s e => s.setCoreEntry e.1 e.2.1 { e.2.2.1 with ovf := true }) s

end Sys2Proof.Machine
end

