-- ==== Sys2Proof/Machine/MatCore.lean ====
section
/-!
DEFINITION. Machine/MatCore.lean: tiles and accumulators as byte layouts, the products of the matrix engine, and the
conversions of its tile moves (R142 to R148, R158 to R165, R199 to R208, R215, R217 to R220).
-/
namespace Sys2Proof.Machine

/-! ### Views as byte layouts (R142, R199) -/

/-- Major lines of a view. -/
def TView.lines (v : TView) : Nat := if v.maj then v.cols else v.rows

/-- Elements of a major line. -/
def TView.perLine (v : TView) : Nat := if v.maj then v.rows else v.cols

/-- Bytes of a major line (R130 step 5). -/
def TView.lineLen (v : TView) : Nat := lineBytes v.fmt v.perLine

/-- Line and position of element (i, j). -/
def TView.place (v : TView) (i j : Nat) : Nat × Nat := if v.maj then (j, i) else (i, j)

/-- The addresses of the bytes of element (i, j). -/
def TView.elemSpan (v : TView) (i j : Nat) : List Nat :=
  let (l, p) := v.place i j
  let lo := p * v.fmt.width / 8
  let hi := (p * v.fmt.width + v.fmt.width - 1) / 8
  span (v.base + l * v.pitch + lo) (hi - lo + 1)

/-- The code of element (i, j), its bytes given by a function. -/
def TView.codeBy (v : TView) (get : Nat → Byte) (i j : Nat) : Nat :=
  let (_, p) := v.place i j
  leNat ((v.elemSpan i j).map get) / 2 ^ (p * v.fmt.width % 8) % 2 ^ v.fmt.width

/-- A number packed from codes of w bits, the first lowest (R142). -/
def packCodes (w : Nat) (cs : List Nat) : Nat :=
  match cs with
  | [] => 0
  | c :: t => c % 2 ^ w + 2 ^ w * packCodes w t

/-- The addresses of a view's bytes, line by line, gaps left out. -/
def TView.lineSpans (v : TView) : List Nat :=
  ((List.range v.lines).map fun l => span (v.base + l * v.pitch) v.lineLen).flatten

/-- The bytes that hold a tile of given element codes; unused bits of a line's last byte are zero (R142, R218). -/
def TView.layOut (v : TView) (code : Nat → Nat → Nat) : List (Nat × Byte) :=
  ((List.range v.lines).map fun l =>
    let cs := (List.range v.perLine).map fun p => if v.maj then code p l else code l p
    (leBytes v.lineLen (packCodes v.fmt.width cs)).zipIdx.map fun b => (v.base + l * v.pitch + b.2, b.1)).flatten

/-- An accumulator view by AS-space addresses (R41). -/
def TView.inAs (v : TView) : TView := { v with base := ((v.base : Int) - 0x40000).toNat }

/-- The space of an operand of the M stream: OF tiles by register-space address, weight views in WB, accumulators in
AS (R199). -/
def State.code (s : State) (c : CoreId) (agent : Nat) (sp : Space) (v : TView) (i j : Nat) : Nat :=
  v.codeBy (s.localByte c agent sp) i j

/-! ### Shapes, rates and formats (R158, R201) -/

/-- k values consumed in a slot (R201). -/
def mmaKc (kind : MmaKind) (fa fb : Fmt) : Nat :=
  match kind with
  | .plain =>
    match fa with
    | .f64 | .f32 => 8
    | .bf16 | .f16 => 32
    | .e2m1 | .i4 | .n4 => 128
    | _ => 64
  | .group => if fa.width = 4 ∧ fb.width = 4 then 128 else 64
  | .block => if fa = .e2m1 ∧ fb = .e2m1 then 128 else 64

/-- k-group size (R158). -/
def mmaG (kind : MmaKind) (geo : Nat) (fa fb : Fmt) : Nat :=
  match kind with
  | .plain => mmaKc .plain fa fb
  | _ => geoLen geo

/-- Accumulator format (R158). -/
def mmaAcc (kind : MmaKind) (fa : Fmt) : Fmt :=
  match kind with
  | .plain =>
    match fa with
    | .f64 => .f64
    | .i8 | .n8 | .i4 | .n4 => .i32
    | _ => .f32
  | _ => .f32

/-- The format class of a plain product, by which A and B must agree (R201). -/
def mmaClass (f : Fmt) : Nat :=
  match f with
  | .f64 => 1 | .f32 => 2 | .bf16 => 3 | .f16 => 3 | .e4m3 => 4 | .e5m2 => 4 | .e3m2 => 4 | .e2m3 => 4
  | .e2m1 => 5 | .i8 => 6 | .n8 => 6 | .i4 => 7 | .n4 => 7 | _ => 0

/-- Whether a format pair is in R201. -/
def mmaPair (kind : MmaKind) (geo : Nat) (fa fb : Fmt) : Bool :=
  match kind with
  | .plain => mmaClass fa != 0 && mmaClass fa == mmaClass fb
  | _ => geo != 0 && geoAllows geo fa && geoAllows geo fb

/-- Largest M and N (R201). -/
def mmaMax (kind : MmaKind) (fa : Fmt) : Nat × Nat :=
  match kind, fa with
  | .plain, .f64 => (8, 6)
  | .plain, .f32 => (8, 12)
  | _, _ => (16, 12)

/-- Number of k-groups. -/
def MmaJob.ng (j : MmaJob) : Nat :=
  let g := mmaG j.kind j.geo j.a.fmt j.b.fmt
  (j.a.cols + g - 1) / g

/-- Slots in which A and B are read. -/
def MmaJob.occ (j : MmaJob) : Nat :=
  let kc := mmaKc j.kind j.a.fmt j.b.fmt
  (j.a.cols + kc - 1) / kc

/-- The k values of the chunk read next. -/
def MmaJob.ks (j : MmaJob) : List Nat :=
  let kc := mmaKc j.kind j.a.fmt j.b.fmt
  span (j.age * kc) (min kc (j.a.cols - j.age * kc))

/-- The space of the B operand. -/
def MmaJob.bSp (j : MmaJob) : Space := if j.bIsWb then .wb else .ofs

/-! ### Products and sums (R159 to R164) -/

/-- Item i of a list of lists. -/
def at2 (l : List (List Nat)) (i j : Nat) : Nat := ((l.getD i []).getD j 0)

/-- A block scale code as a factor, NaN codes as NaN; a zero e4m3 code counts as +1 (R143, R144, R161, R162). -/
def scaleFactor (geo code : Nat) : Num :=
  if geo = 1 then Num.ofCode .e8m0 code
  else if code % 128 = 0 then Num.ofInt 1
  else Num.ofCode .e4m3 code

/-- Whether a block scale code is an e4m3 zero (R161). -/
def scaleZero (geo code : Nat) : Bool := (geo == 2 || geo == 3) && code % 128 == 0

/-- An element under a block scale: i8 is in units of 2^−6 (R147); a zero scale code makes it a zero of the XORed sign,
or NaN (R161). -/
def blockElem (f : Fmt) (geo scale code : Nat) : Num :=
  let v := match Num.ofCode f code with
    | .fin n m e st => if f = .i8 then .fin n m (e - 6) st else .fin n m e st
    | v => v
  if scaleZero geo scale then
    match v with
    | .fin n _ _ _ => .fin (n != (128 ≤ scale)) 0 0 false
    | _ => .nan
  else v

/-- What one k-group gives: its scaled sum, whether any input was NaN, whether a zero scale was applied. -/
structure GroupSum where
  sum : Num
  nanIn : Bool
  szero : Bool
  deriving DecidableEq, Repr

/-- Exact sum of products; an empty sum is +0 (R160, R163). -/
def sumProducts (ps : List (Num × Num)) : Num :=
  match ps with
  | [] => .fin false 0 0 false
  | p :: t => t.foldl (fun acc q => (acc.add false (q.1.mul q.2).1).1) (p.1.mul p.2).1

/-- Whether a value is NaN. -/
def Num.isNan : Num → Bool
  | .nan => true
  | _ => false

/-- The two operands' codes of a k-group of one output element. -/
def MmaJob.pairs (j : MmaJob) (row col g : Nat) : List (Nat × Nat) :=
  let w := mmaG j.kind j.geo j.a.fmt j.b.fmt
  (span (g * w) (min w (j.a.cols - g * w))).map fun k => (at2 j.ra row k, at2 j.rb col k)

/-- The value of a group record's scale (R146). -/
def recScale (r : Nat) : Num := Num.ofCode .f16 (r % 2 ^ 16)

/-- The zero point of a group record (R146). -/
def recZp (r : Nat) : Int := sgn 8 (r / 2 ^ 16 % 256)

/-- An integer element (R141). -/
def intCode (f : Fmt) (c : Nat) : Int := if f.isSigned then sgn f.width c else c

/-- S of one k-group of one output element, scaled (R159 to R164). -/
def MmaJob.group (j : MmaJob) (row col g : Nat) : GroupSum :=
  let ps := j.pairs row col g
  match j.kind with
  | .plain =>
    let vs := ps.map fun p => (Num.ofCode j.a.fmt p.1, Num.ofCode j.b.fmt p.2)
    { sum := sumProducts vs, nanIn := vs.any fun v => v.1.isNan || v.2.isNan, szero := false }
  | .block =>
    let ca := at2 j.sa row g
    let cb := at2 j.sb col g
    let raw := ps.any fun p => (Num.ofCode j.a.fmt p.1).isNan || (Num.ofCode j.b.fmt p.2).isNan
    let vs := ps.map fun p => (blockElem j.a.fmt j.geo ca p.1, blockElem j.b.fmt j.geo cb p.2)
    let fa := scaleFactor j.geo ca
    let fb := scaleFactor j.geo cb
    let st := Num.ofCode .f32 j.st.toNat
    let s := (((sumProducts vs).mul fa).1.mul fb).1
    { sum := if fa.isNan || fb.isNan then .nan else (s.mul st).1
      nanIn := raw || fa.isNan || fb.isNan || st.isNan
      szero := scaleZero j.geo ca || scaleZero j.geo cb }
  | .group =>
    let ga := at2 j.sa row g
    let gb := at2 j.sb col g
    let t := ps.foldl (fun a p => a + (intCode j.a.fmt p.1 - recZp ga) * (intCode j.b.fmt p.2 - recZp gb)) (0 : Int)
    let fa := recScale ga
    let fb := recScale gb
    { sum := if fa.isNan || fb.isNan then .nan else (((Num.ofInt t).mul fa).1.mul fb).1
      nanIn := fa.isNan || fb.isNan, szero := false }

/-- One output element with its events, from the accumulator's code (R159, R210). -/
def MmaJob.element (j : MmaJob) (row col acc : Nat) : Nat × BitVec 5 :=
  let f := mmaAcc j.kind j.a.fmt
  (List.range j.ng).foldl (fun st g =>
    if f = .i32 then
      let t := (j.pairs row col g).foldl (fun a p => a + intCode j.a.fmt p.1 * intCode j.b.fmt p.2) (0 : Int)
      (wrapInt 32 ((st.1 : Int) + t), st.2)
    else
      let gs := j.group row col g
      let av := Num.ofCode f st.1
      let r := (av.add false gs.sum).1
      let q := roundNum f RCtl.rne r
      let inv : BitVec 5 := if r.isNan && !av.isNan && !gs.nanIn then 1 else 0
      (q.1, st.2 ||| mEv q.2 ||| inv ||| (if gs.szero then mSzero else 0))) (acc, 0)

/-- The landing of an MMA-family instruction: the accumulator's bytes and the events (R204, R215). -/
def MmaJob.result (j : MmaJob) : List (Nat × Byte) × BitVec 5 :=
  let accs := match j.accv with
    | some l => l
    | none => []
  let out := (List.range j.acc.rows).map fun r =>
    (List.range j.acc.cols).map fun q => j.element r q (at2 accs r q)
  let codes := out.map fun r => r.map (·.1)
  (j.acc.layOut (at2 codes), (out.flatten).foldl (fun a p => a ||| p.2) 0)

/-- Append one item to each of the rows of a table. -/
def growRows (rows : List (List Nat)) (n : Nat) (f : Nat → List Nat) : List (List Nat) :=
  (List.range n).map fun i => rows.getD i [] ++ f i

/-- Whether a chunk of A and B is read in the slot that the age counts: a slot that runs again after a fault reads none
twice. -/
def MmaJob.chunkDue (j : MmaJob) : Bool := decide (j.age < j.occ) && decide (j.chunks ≤ j.age)

/-- Whether the accumulator is read in this slot (R205). -/
def MmaJob.accDue (j : MmaJob) : Bool := !j.zero && j.age == j.readAt && j.accv.isNone

/-- The k values read in this slot. -/
def MmaJob.ksNow (j : MmaJob) : List Nat := if j.chunkDue then j.ks else []

/-- The addresses read in this slot, in operand order: A, B, the accumulator (R205, R206). -/
def MmaJob.spansNow (j : MmaJob) : List (Space × List Nat) :=
  let ks := j.ksNow
  [(.ofs, ((List.range j.a.rows).map fun i => (ks.map fun k => j.a.elemSpan i k).flatten).flatten),
   (j.bSp, ((List.range j.b.cols).map fun q => (ks.map fun k => j.b.elemSpan k q).flatten).flatten),
   (.acs, if j.accDue then j.acc.lineSpans else [])]

/-- The reads of an MMA-family instruction in the slot that its age counts: the next chunk of A and B, and the
accumulator in its read slot (R205, R206). The left answer is the cause and the lowest bad byte of the first operand in error,
and a flag set when it is the accumulator. -/
def State.mmaRead (s : State) (c : CoreId) (agent : Nat) (j : MmaJob) : Except (Cause × Nat × Bool) MmaJob :=
  match j.spansNow.findSome? fun p => (s.badOf c agent p.1 p.2).map fun a => (s.readCause c p.1 a, a, p.1 == .acs) with
  | some e => .error e
  | none =>
    let ks := j.ksNow
    let j1 : MmaJob :=
      if j.chunkDue then
        { j with
          ra := growRows j.ra j.a.rows fun i => ks.map fun k => s.code c agent .ofs j.a i k
          rb := growRows j.rb j.b.cols fun q => ks.map fun k => s.code c agent j.bSp j.b k q
          chunks := j.age + 1 }
      else j
    .ok (if j.accDue then
      { j1 with accv := some ((List.range j.acc.rows).map fun r =>
          (List.range j.acc.cols).map fun q => s.code c agent .acs j.acc r q) }
      else j1)

/-- Record the out-of-range bytes among those reads (R44). -/
def State.mmaNote (s : State) (c : CoreId) (j : MmaJob) : State :=
  j.spansNow.foldl (fun s p => s.oorNote c .m p.1 false (minOf (s.outOf c p.1 p.2))) s

/-- The out-of-range scale reads and the scale codes of rows or columns for every group (R203). -/
def State.scaleTable (s : State) (c : CoreId) (agent base pitch n ng z : Nat) : List (List Nat) :=
  (List.range n).map fun i => (List.range ng).map fun g =>
    leNat (s.localBytes c agent .sm (base + i * pitch + g * z) z)

/-- The addresses of those scales. -/
def scaleSpan (base pitch n ng z : Nat) : List Nat :=
  ((List.range n).map fun i => ((List.range ng).map fun g => span (base + i * pitch + g * z) z).flatten).flatten

/-! ### The expanded alias of XB (R286) -/

/-- Whether an XB address lies in the expanded alias. -/
def inAlias (sp : Space) (a : Nat) : Bool := sp == .xb && decide (0x1000000 ≤ a) && decide (a < 0x1400000)

/-- The page, element and tag behind an alias address for an agent, if it is in range (R286). -/
def Ctx.aliasAt (x : Ctx) (agent a : Nat) : Option (Nat × Nat × XTag) :=
  let p := (a - 0x1000000) / 0x4000
  let i := a % 0x4000 / 2
  match x.tagAt agent p with
  | none => none
  | some t => if i < 32768 / t.fmt.width then some (p, i, t) else none

/-- An XB page as one line of elements. -/
def XTag.page (t : XTag) (p : Nat) : TView :=
  { base := 4096 * p, pitch := 0, rows := 1, cols := 32768 / t.fmt.width, fmt := t.fmt, maj := false }

/-- The SM addresses of the scale of an element of a page. -/
def XTag.scaleAt (t : XTag) (i : Nat) : List Nat :=
  if t.geo = 0 then [] else span (t.smBase + i / geoLen t.geo * geoScale t.geo) (geoScale t.geo)

/-- The value of an element under its scale or group record (R143 to R148, R161, R162). -/
def scaledElem (f : Fmt) (geo scale code : Nat) : Num :=
  if geo = 0 then Num.ofCode f code
  else if geo ≤ 3 then
    let k := scaleFactor geo scale
    if k.isNan then .nan else ((blockElem f geo scale code).mul k).1
  else
    let k := recScale scale
    if k.isNan then .nan else ((Num.ofInt (intCode f code - recZp scale)).mul k).1

/-- The byte that a read of a local space returns, the expanded alias included; out-of-range bytes read zero (R44). -/
def State.ldByte (s : State) (c : CoreId) (agent : Nat) (sp : Space) (a : Nat) : Byte :=
  if inAlias sp a then
    match (s.ctx c).aliasAt agent a with
    | none => 0
    | some (p, i, t) =>
      let q := (t.page p).codeBy (s.localByte c agent .xb) 0 i
      let k := leNat ((t.scaleAt i).map (s.localByte c agent .sm))
      BitVec.ofNat 8 ((roundNum .bf16 RCtl.rne (scaledElem t.fmt t.geo k q)).1 / 256 ^ (a % 2))
  else s.localByte c agent sp a

/-- The out-of-range addresses of a read by a stream (R44, R286). -/
def State.ldOut (s : State) (c : CoreId) (agent : Nat) (sp : Space) (as : List Nat) : List Nat :=
  as.filter fun a => if inAlias sp a then ((s.ctx c).aliasAt agent a).isNone else (s.cellOf c sp a).isNone

/-- The lowest address of a read that meets an uncorrectable error (R315). -/
def State.ldBad (s : State) (c : CoreId) (agent : Nat) (sp : Space) (as : List Nat) : Option Nat :=
  minOf (as.filter fun a =>
    if inAlias sp a then
      match (s.ctx c).aliasAt agent a with
      | none => false
      | some (p, i, t) => (s.badOf c agent .xb ((t.page p).elemSpan 0 i)).isSome || (s.badOf c agent .sm (t.scaleAt i)).isSome
    else s.badAt c agent sp a)

/-! ### Tile moves and accumulator operations (R217 to R220) -/

/-- A value rounded into an accumulator's format by ALD and AST: an integer goes into i32 modulo 2^32 (R217). -/
def accRound (src dst : Fmt) (code : Nat) : Nat × BitVec 5 :=
  if dst = .i32 ∧ !src.isFloat then (wrapInt 32 (intCode src code), 0)
  else
    let r := roundNum dst RCtl.rne (Num.ofCode src code)
    (r.1, mEv r.2)

/-- Lay out a tile of codes computed with events. -/
def layEvents (v : TView) (f : Nat → Nat → Nat × BitVec 5) : List (Nat × Byte) × BitVec 5 :=
  let out := (List.range v.rows).map fun i => (List.range v.cols).map fun j => f i j
  let codes := out.map fun r => r.map (·.1)
  (v.layOut (at2 codes), (out.flatten).foldl (fun a p => a ||| p.2) 0)

/-- The source of a tile move as a tile of its own whose bytes stand one line after the other. -/
def TileJob.srcFlat (j : TileJob) : TView := { j.src with base := 0, pitch := j.src.lineLen }

/-- Source codes from the bytes read (R206). -/
def TileJob.srcCode (j : TileJob) (i q : Nat) : Nat :=
  j.srcFlat.codeBy (fun a => j.bytes.getD a 0) i q

/-- Element i of the packed stream that column q of the source holds (R220). -/
def TileJob.pkCode (j : TileJob) (i q : Nat) : Nat :=
  let w := j.dst.fmt.width
  packCodes 8 ((List.range j.src.rows).map fun r => j.srcCode r q) / 2 ^ (i * w) % 2 ^ w

/-- The landing of a tile move (R219, R220). -/
def TileJob.result (j : TileJob) : List (Nat × Byte) × BitVec 5 :=
  match j.op with
  | .tld => (j.dst.layOut j.srcCode, 0)
  | .trepk => (j.dst.layOut j.srcCode, 0)
  | .ttr => (j.dst.layOut fun i q => j.srcCode q i, 0)
  | .trepkPk => (j.dst.layOut j.pkCode, 0)
  | .tst sat =>
    layEvents j.dst fun i q =>
      let r := roundNum j.dst.fmt { RCtl.rne with mode := j.rnd, sat := sat } (Num.ofCode j.src.fmt (j.srcCode i q))
      (r.1, mEv r.2)

/-- Bytes of a move's source read in the slot that its age counts, none twice (R206). -/
def TileJob.spanNow (j : TileJob) : List Nat :=
  if j.chunks ≤ j.age then (j.src.lineSpans.drop (128 * j.age)).take 128 else []

/-- The reads of a tile move in this slot; the left answer is the cause and the lowest bad byte (R206). -/
def State.tileRead (s : State) (c : CoreId) (agent : Nat) (j : TileJob) : Except (Cause × Nat) TileJob :=
  match s.ldBad c agent j.srcSp j.spanNow with
  | some b => .error (s.readCause c j.srcSp b, b)
  | none => .ok { j with bytes := j.bytes ++ j.spanNow.map (s.ldByte c agent j.srcSp), chunks := max j.chunks (j.age + 1) }

end Sys2Proof.Machine
end

