-- ==== Sys2Proof/Machine/Issue.lean ====
section
/-!
DEFINITION. Machine/Issue.lean: the ring, the landing queue and the issue of an instruction (R25 to R33, R45 to R53, R98).
-/
namespace Sys2Proof.Machine

/-! ### The ring (R25 to R28, R58) -/

/-- The queue a stream waits on: from prev (true) or from next (R26, R58). -/
def inQueue (e : Strm) (fromPrev : Bool) : Nat :=
  match e, fromPrev with
  | .c, true => 2 | .c, false => 7
  | .v, true => 4 | .v, false => 1
  | .m, true => 6 | .m, false => 3
  | .x, true => 0 | .x, false => 5

/-- The queue a stream signals: toward prev (true) or next (R26, R58). -/
def outQueue (e : Strm) (toPrev : Bool) : Nat :=
  match e, toPrev with
  | .c, true => 1 | .c, false => 0
  | .v, true => 3 | .v, false => 2
  | .m, true => 5 | .m, false => 4
  | .x, true => 7 | .x, false => 6

/-- Tokens of a queue that can be consumed in this cycle (R28). -/
def Ctx.ready (x : Ctx) (q : Nat) : Nat := x.tok.getD q 0

/-- Places of a queue that are taken: tokens and reservations (R28). A place that a consumer frees counts as free from the
consumer's turn on, so a stream with a later turn in that cycle can reserve it at once and one with an earlier turn in the
next cycle; R28 does not say which (the model's choice, log entry 121). -/
def Ctx.taken (x : Ctx) (q : Nat) : Nat := x.tokens q + x.rsv.getD q 0

/-- Consume tokens. -/
def Ctx.consume (x : Ctx) (q n : Nat) : Ctx := { x with tok := x.tok.put q (x.tok.getD q 0 - n) 0 }

/-- Give tokens back to a queue (R98, R206). -/
def Ctx.giveBack (x : Ctx) (q n : Nat) : Ctx := { x with tok := x.tok.put q (x.tok.getD q 0 + n) 0 }

/-- Deposit tokens: they can be consumed from the next cycle on (R28). -/
def Ctx.deposit (x : Ctx) (q n : Nat) : Ctx := { x with fresh := x.fresh.put q (x.fresh.getD q 0 + n) 0 }

/-- Reserve a place. -/
def Ctx.reserve (x : Ctx) (q : Nat) : Ctx := { x with rsv := x.rsv.put q (x.rsv.getD q 0 + 1) 0 }

/-- Release a reservation (R28). -/
def Ctx.release (x : Ctx) (q : Nat) : Ctx := { x with rsv := x.rsv.put q (x.rsv.getD q 0 - 1) 0 }

/-- Apply a change when a flag is set. -/
def Ctx.iff (x : Ctx) (b : Bool) (f : Ctx → Ctx) : Ctx := if b then f x else x

/-- Deposit the reserved signals of an instruction or command (R27, R28). -/
def Ctx.signal (x : Ctx) (e : Strm) (sp sn : Bool) : Ctx :=
  (x.iff sp fun x => (x.release (outQueue e true)).deposit (outQueue e true) 1).iff sn fun x =>
    (x.release (outQueue e false)).deposit (outQueue e false) 1

/-- Release the reserved signals without a deposit (R28). -/
def Ctx.unsignal (x : Ctx) (e : Strm) (sp sn : Bool) : Ctx :=
  (x.iff sp fun x => x.release (outQueue e true)).iff sn fun x => x.release (outQueue e false)

/-- The first of an instruction's ring conditions that does not hold: a wait bit without a token, WP before WN, or a
signal bit without a place, SP before SN (R26, R28). -/
def Ctx.ringBlock (x : Ctx) (e : Strm) (r : Ring) : Option Nat :=
  if r.wp && x.ready (inQueue e true) == 0 then some (inQueue e true)
  else if r.wn && x.ready (inQueue e false) == 0 then some (inQueue e false)
  else if r.sp && decide (15 ≤ x.taken (outQueue e true)) then some (outQueue e true)
  else if r.sn && decide (15 ≤ x.taken (outQueue e false)) then some (outQueue e false)
  else none

/-! ### Landing (R45 to R50) -/

/-- A vector register's bytes from an address, those with a bit of the mask set, each with its bits that are written (R171,
R186). -/
def vecCells (addr : Nat) (v bits : Vec) : List (Nat × Byte × Byte) :=
  (List.range 128).filterMap fun i =>
    let m : Byte := bits.extractLsb' (8 * i) 8
    if m = 0 then none else some (addr + i, v.extractLsb' (8 * i) 8, m)

/-- A result lands in a local buffer: out-of-range bytes are dropped and recorded, the others counted (R44, R297). -/
def State.landBits (s : State) (c : CoreId) (e : Strm) (sp : Space) (cells : List (Nat × Byte × Byte)) : State :=
  (s.oorNote c e sp true (minOf (s.outOf c sp (cells.map (·.1))))).localStoreBits c e.num sp cells 0

/-- Whole bytes land. -/
def State.landCells (s : State) (c : CoreId) (e : Strm) (sp : Space) (cells : List (Nat × Byte)) : State :=
  s.landBits c e sp (wholeBytes cells)

/-- A result lands in a scalar register; in an exchange register a result of V remains over one of C that lands in the same cycle
(R174). -/
def Ctx.landSr (x : Ctx) (e : Strm) (r : SReg) (v : Word) : Ctx :=
  match e with
  | .v => { x.setSr r v with vLanded := r.toNat :: x.vLanded }
  | .c => if x.vLanded.contains r.toNat then x else x.setSr r v
  | _ => x.setSr r v

/-- Put a result where it belongs (R39, R50, R171). A stream whose turn comes later in the landing cycle reads the new
value of an exchange register, one whose turn has passed read the old one; without a token between them R35 allows either
(the model's choice, log entry 121). -/
def State.applyDest (s : State) (c : CoreId) (e : Strm) (d : Dest) : State :=
  match d with
  | .nothing => s
  | .scalar r v => s.modCtx c fun x => x.landSr e r v
  | .pred r v => s.modCtx c fun x => x.setPr r v
  | .mask r v => s.modCtx c fun x => x.setKr r v
  | .vec r a v bits =>
    (s.landBits c e .ofs (vecCells a v bits)).modCtx c fun x => { x with eph := x.eph.del r.toNat }
  | .eph r v => s.modCtx c fun x => { x with eph := x.eph.set r.toNat (v, 0) }
  | .cells sp bs => s.landCells c e sp bs
  | .csr n op v => s.csrWrite c n.toNat op v
  | .view r b => s.modCtx c fun x =>
      { x with views := x.views.put r.toNat b (BitVec.ofNat 32 (128 * r.toNat)), eph := x.eph.del r.toNat }
  | .tview n v => s.modCtx c fun x =>
      { x with tv := match v with
          | some t => x.tv.set n.toNat t
          | none => x.tv.del n.toNat }
  | .aview n v => s.modCtx c fun x =>
      { x with av := match v with
          | some t => x.av.set n.toNat t
          | none => x.av.del n.toNat }
  | .mma j => (s.landCells c e .acs j.result.1).modCtx c fun x => x.raiseM j.result.2
  | .tile j => (s.landCells c e .ofs j.result.1).modCtx c fun x => x.raiseM j.result.2
  | .mstat clr => s.modCtx c fun x =>
      ({ x with msnap := x.mflags } : Ctx).iff clr fun x => x.clearM (BitVec.allOnes 5)

/-- A landing: the destination, the events, the signals (R27, R172, R210). -/
def State.landEntry (s : State) (c : CoreId) (e : Strm) (l : Landing) : State :=
  (s.applyDest c e l.dest).modCtx c fun x => ((x.raiseV l.vfl).raiseM l.mfl).signal e l.sp l.sn

/-- Everything that lands at the start of a slot, older results first (R45, R49). -/
def State.land (s : State) (c : CoreId) (e : Strm) : State :=
  let q := ((s.ctx c).str e).queue
  let s1 := s.modStr c e fun t => { t with queue := q.filter fun l => l.left != 0 }
  (q.filter fun l => l.left == 0).foldl (fun s l => s.landEntry c e l) s1

/-- One slot nearer to landing. -/
def Landing.tick (l : Landing) : Landing :=
  { l with left := l.left - 1, dest := match l.dest with
      | .mma j => .mma { j with age := j.age + 1 }
      | .tile j => .tile { j with age := j.age + 1 }
      | d => d }

/-- A matrix nest that waits for earlier results of M is one slot nearer to its first instance (R222). -/
def Ctx.nestSlot (x : Ctx) : Ctx := { x with mnest := x.mnest.map fun n => { n with ahead := n.ahead - 1 } }

/-- The end of a slot: every result of the stream is one slot nearer, in V every ephemeral window one slot older, and in M a nest
that waits for them too (R45, R51, R222). -/
def State.endSlot (s : State) (c : CoreId) (e : Strm) : State :=
  let s1 := s.modStr c e fun t => { t with queue := t.queue.map Landing.tick }
  match e with
  | .v => s1.modCtx c fun x => { x with eph := x.eph.map fun p => (p.1, (p.2.1, min 4 (p.2.2 + 1))) }
  | .m => s1.modCtx c Ctx.nestSlot
  | _ => s1

/-- A fault found in a slot's matrix reads: the entry, whether it is the accumulator read, the cause, the address. -/
structure ReadFault where
  entry : Landing
  acc : Bool
  cause : Cause
  addr : Nat
  deriving DecidableEq, Repr

/-- The matrix reads that fall in this slot for entries already issued (R205, R206); the first that fails. -/
def State.slotReads (s : State) (c : CoreId) (q : List Landing) : State × List Landing × Option ReadFault :=
  match q with
  | [] => (s, [], none)
  | l :: t =>
    match l.dest with
    | .mma j =>
      match s.mmaRead c 2 j with
      | .error (k, a, acc) => (s, t, some { entry := l, acc := acc, cause := k, addr := a })
      | .ok j1 =>
        let (s1, t1, f) := (s.mmaNote c j).slotReads c t
        (s1, { l with dest := .mma j1 } :: t1, f)
    | .tile j =>
      match s.tileRead c 2 j with
      | .error (k, a) => (s, t, some { entry := l, acc := false, cause := k, addr := a })
      | .ok j1 =>
        let s0 := s.oorNote c .m j.srcSp false (minOf (s.ldOut c 2 j.srcSp j.spanNow))
        let (s1, t1, f) := s0.slotReads c t
        (s1, { l with dest := .tile j1 } :: t1, f)
    | _ =>
      let (s1, t1, f) := s.slotReads c t
      (s1, l :: t1, f)

/-- The start of a slot: landings, then the matrix reads of the slot. -/
def State.beginSlot (s : State) (c : CoreId) (e : Strm) : State × Option ReadFault :=
  let s1 := s.land c e
  match e with
  | .m =>
    let (s2, q, f) := s1.slotReads c ((s1.ctx c).str .m).queue
    (s2.modStr c .m fun t => { t with queue := q }, f)
  | _ => (s1, none)

/-- Take the fault of a matrix read. A chunk read faults its own instruction, which then has consumed and reserved
nothing, and meets a failed lender's window as any read of its stream does (R420); a failed accumulator read discards its result
and stops the stream before the next instruction (R205, R206). -/
def State.readFault (s : State) (c : CoreId) (f : ReadFault) : State :=
  let l := f.entry
  let s1 := s.modCtx c fun x => x.unsignal .m l.sp l.sn
  if f.acc then s1.takeFault c .m f.cause (BitVec.ofNat 64 f.addr) false
  else
    let s2 := s1.modCtx c fun x =>
      let x := (x.iff l.tookP fun x => x.giveBack (inQueue .m true) 1).iff l.tookN fun x =>
        x.giveBack (inQueue .m false) 1
      x.setStr .m { x.strM with pc := l.pc, occ := 0, held := if l.dict then some (.code 0) else none }
    s2.takeFault c .m f.cause (BitVec.ofNat 64 f.addr) false

/-- A slot in which a stream issues nothing: results land and the slot ends. -/
def State.idleSlot (s : State) (c : CoreId) (e : Strm) : State :=
  match s.beginSlot c e with
  | (s1, some f) => s1.readFault c f
  | (s1, none) => s1.endSlot c e

/-! ### The envelope governor (R251) -/

/-- The envelope governor holds V, M and the matrix nest of a core in every other cycle (R251). -/
def Core.govOdd (k : Core) (cycle : Word) : Bool := k.gov && cycle.getLsbD 0

/-- Whether it holds a stream in this cycle. -/
def Core.govHolds (k : Core) (e : Strm) (cycle : Word) : Bool := (e == .v || e == .m) && k.govOdd cycle

/-! ### Issue (R98) -/

/-- A result on its way: slots to its landing, destination, events. -/
structure New where
  lat : Nat
  dest : Dest
  vfl : BitVec 6
  mfl : BitVec 5
  deriving DecidableEq, Repr

/-- A result without events. -/
def New.plain (lat : Nat) (d : Dest) : New := { lat := lat, dest := d, vfl := 0, mfl := 0 }

/-- An instruction that issues: the state after its immediate effects, its results, its occupancy, its target if it
transfers control, the OF addresses it reads at issue, and whether its signals travel with an engine command. -/
structure Done where
  s : State
  lands : List New
  occ : Nat
  npc : Option VAddr
  reads : List Nat
  cmd : Bool

/-- What an instruction does when it comes up for issue: it issues, faults, or waits (with the kind of wait of R30 and
what it leaves behind). A fault that leaves a mark elsewhere (R265, R299) brings its state; an
instruction that replaces its stream's state whole (R400) brings the final state. -/
inductive Res
  | ok (d : Done)
  | fault (cause : Cause) (addr : Word) (reads : List Nat)
  | faultIn (s : State) (cause : Cause) (addr : Word) (reads : List Nat)
  | final (s : State)
  | wait (key : Nat) (left : State → State)

/-- An instruction without a result. -/
def Done.plain (s : State) : Done := { s := s, lands := [], occ := 1, npc := none, reads := [], cmd := false }

/-- An instruction with one result. -/
def Done.one (s : State) (n : New) : Done :=
  { s := s, lands := [n], occ := 1, npc := none, reads := [], cmd := false }

/-- The key of a wait that no watchdog counts. -/
def otherWait : Nat := 10

/-- The cause that a counted wait ends in (R30, R258). -/
def timeoutCause (key : Nat) : Cause := if key = 9 then .watchdog else .ringTimeout

/-- The TRAPADDR of a wait's timeout: the queue index, 8 for JOIN, the phase counter for PHASE (R30, R258). -/
def State.timeoutAddr (s : State) (c : CoreId) (key : Nat) : Word :=
  if key = 9 then
    match pktPhase (s.pktOf c) with
    | some n => BitVec.ofNat 64 n
    | none => 0
  else BitVec.ofNat 64 key

/-- WDOG.LIMIT as a number of cycles (R59). -/
def Ctx.limit (x : Ctx) : Nat := if x.wdog = 0 then Config.limitZero else x.wdog.toNat

/-- The number of cycles that a wait with this key has lasted, this cycle included (R30). The ring conditions of an
instruction that waits can only come to hold, so one that still fails has failed since the instruction came up: its wait is
as old as the first of them, and the count goes on when another of them has come to hold first. -/
def Stream.waited (t : Stream) (key : Nat) : Nat :=
  match t.wait with
  | some (k, n) => if k = key ∨ k < 8 ∧ key < 8 then n + 1 else 1
  | none => 1

/-- A cycle in which a stream waits: the watchdog counts it, and a counted wait past the limit faults (R30). -/
def State.waitCycle (s : State) (c : CoreId) (e : Strm) (key : Nat) : State :=
  let x := s.ctx c
  let n := (x.str e).waited key
  if key < otherWait ∧ x.limit < n then s.takeFault c e (timeoutCause key) (s.timeoutAddr c key) false
  else s.modStr c e fun t => { t with wait := some (key, n) }

/-- Whether a refresh of this cycle meets one of the local OF addresses read (R52). The bytes of a register above the task's
allotment and those of its inactive elements lie in the bank too and count as read in it (the model's choice, log entry 149). -/
def State.refreshHit (s : State) (reads : List Nat) : Bool :=
  reads.any fun a => decide (a < 0x30000) && s.cycle.toNat % 64 == 4 * (a / 128 % 16)

/-- The landing-queue entries of an instruction; the last carries its signals (R27, R29). -/
def entries (ls : List New) (r : Ring) (sp sn : Bool) (pc : VAddr) (dict : Bool) : List Landing :=
  match ls with
  | [] => []
  | [n] => [{ left := n.lat, dest := n.dest, vfl := n.vfl, mfl := n.mfl, sp := sp, sn := sn,
              tookP := r.wp, tookN := r.wn, pc := pc, dict := dict }]
  | n :: t => { left := n.lat, dest := n.dest, vfl := n.vfl, mfl := n.mfl, sp := false, sn := false,
                tookP := false, tookN := false, pc := pc, dict := dict } :: entries t r sp sn pc dict

/-- Whether the word at issue came from the dictionary. -/
def Stream.fromDict (t : Stream) : Bool :=
  match t.held with
  | some (.code _) => true
  | _ => false

/-- The address of the next sequential instruction (R65, R69): PC arithmetic wraps within bits [63:0] (R111). -/
def nextPc (t : Stream) : VAddr :=
  let lo : BitVec 64 := t.pc.setWidth 64 + (if t.fromDict then 2 else 4)
  BitVec.ofNat 72 (t.pc.toNat / 2 ^ 64 * 2 ^ 64 + lo.toNat)

/-- The issue slot of an instruction that issues: wait tokens are consumed, places reserved, results enter the landing
queue, the PC moves on, and the slot ends (R26 to R28, R47, R65). -/
def State.complete (c : CoreId) (e : Strm) (r : Ring) (d : Done) : State :=
  let s1 := d.s.modCtx c fun x =>
    let x := (x.iff r.wp fun x => x.consume (inQueue e true) 1).iff r.wn fun x => x.consume (inQueue e false) 1
    let x := (x.iff r.sp fun x => x.reserve (outQueue e true)).iff r.sn fun x => x.reserve (outQueue e false)
    if d.lands.isEmpty && !d.cmd then x.signal e r.sp r.sn else x
  let carry := !d.lands.isEmpty
  let s2 := s1.modStr c e fun t =>
    { t with
      queue := t.queue ++ entries d.lands r (r.sp && carry && !d.cmd) (r.sn && carry && !d.cmd) t.pc t.fromDict
      pc := match d.npc with
        | some a => a
        | none => nextPc t
      occ := d.occ - 1, wait := none, held := none, sent := none, join := none, bar := none }
  s2.endSlot c e

/-- The attempt of a stream's instruction to issue: ring conditions, the landings of the slot, then the instruction's
own checks and effect (R30, R45, R48, R52, R98). A stall leaves every result in flight where it was, and one for a refresh the
count of a bounded wait too. A full queue under a
signal bit stalls before the instruction's own faults are judged, as an unmet wait bit does; R98 places only the wait bits
(the model's choice, log entry 122). -/
def State.attempt (s : State) (e : Strm) (r : Ring) (body : CoreId → State → Res) : State :=
  let c := s.cur
  match (s.ctx c).ringBlock e r with
  | some q => s.waitCycle c e q
  | none =>
    let (s1, rf) := s.beginSlot c e
    match body c s1 with
    | .wait key left => (left s).waitCycle c e key
    | .fault cause addr reads =>
      if s.refreshHit reads then s
      else match rf with
        | some f => s1.readFault c f
        | none => s1.takeFault c e cause addr false
    | .faultIn s2 cause addr reads =>
      if s.refreshHit reads then s
      else match rf with
        | some f => s1.readFault c f
        | none => s2.takeFault c e cause addr false
    | .final s2 => s2
    | .ok d =>
      if s.refreshHit d.reads then s
      else match rf with
        | some f => s1.readFault c f
        | none => State.complete c e r d

/-- The outcome of a stream instruction: a next state, whatever its attempt does. -/
def issue (e : Strm) (r : Ring) (body : CoreId → State → Res) (s : State) : Host.Outcome State Fault Refusal :=
  .next (s.attempt e r body)

end Sys2Proof.Machine
end

