-- ==== Sys2Proof/Machine/Branch.lean ====
section
/-!
DEFINITION. Machine/Branch.lean: control transfer, SKIP, NOP, JOIN and EXIT of all four streams, TOKEN and TWAIT (R31 to
R33, R111 to R117, R132, R133, R481).
-/
namespace Sys2Proof.Machine

/-- A PC with new bits [63:0] (R111). -/
def pcAt (pc : VAddr) (lo : Word) : VAddr := BitVec.ofNat 72 (pc.toNat / 2 ^ 64 * 2 ^ 64 + lo.toNat)

/-- The target of a parcel offset: A + 2 × o (R72, R111). -/
def target (pc : VAddr) (off : Word) : VAddr := pcAt pc (pc.setWidth 64 + 2 * off)

/-- The link value of an instruction of C (R111). -/
def linkOf (t : Stream) : Word := (nextPc t).setWidth 64

/-- BR (R112): taken when p XOR neg. -/
def execBr (r : Ring) (p : PReg) (neg : Bool) (off : BitVec 18) (s : State) : Host.Outcome State Fault Refusal :=
  issue .c r (fun c s =>
    let x := s.ctx c
    .ok { Done.plain s with
      npc := if x.pr p != neg then some (target x.strC.pc (off.signExtend 64)) else none }) s

/-- JMP (R113). -/
def execJmp (r : Ring) (off : BitVec 22) (s : State) : Host.Outcome State Fault Refusal :=
  issue .c r (fun c s =>
    .ok { Done.plain s with npc := some (target (s.ctx c).strC.pc (off.signExtend 64)) }) s

/-- CALL (R113): the link goes to s47. -/
def execCall (r : Ring) (off : BitVec 22) (s : State) : Host.Outcome State Fault Refusal :=
  issue .c r (fun c s =>
    let t := (s.ctx c).strC
    .ok { Done.one s (New.plain 1 (.scalar 47 (linkOf t))) with
      npc := some (target t.pc (off.signExtend 64)) }) s

/-- A jump to an address held in a register: three slots, MISALIGNED for an odd target (R66, R114). -/
def jumpReg (c : CoreId) (s : State) (a : Word) (lands : List New) : Res :=
  if a.toNat % 2 = 1 then .fault .misaligned a []
  else .ok { Done.plain s with lands := lands, occ := 3, npc := some (pcAt (s.ctx c).strC.pc a) }

/-- JR (R114). -/
def execJr (r : Ring) (a : SReg) (s : State) : Host.Outcome State Fault Refusal :=
  issue .c r (fun c s => jumpReg c s ((s.ctx c).sr a) []) s

/-- JALR (R114): the link goes to d. -/
def execJalr (r : Ring) (d a : SReg) (s : State) : Host.Outcome State Fault Refusal :=
  issue .c r (fun c s =>
    jumpReg c s ((s.ctx c).sr a) [New.plain 1 (.scalar d (linkOf (s.ctx c).strC))]) s

/-- RET (R114): jumps to s47. -/
def execRet (r : Ring) (s : State) : Host.Outcome State Fault Refusal :=
  issue .c r (fun c s => jumpReg c s ((s.ctx c).sr 47) []) s

/-- LOOP (R115): decrements d and branches while the result is not zero. -/
def execLoop (r : Ring) (d : SReg) (imm : BitVec 16) (s : State) : Host.Outcome State Fault Refusal :=
  issue .c r (fun c s =>
    let x := s.ctx c
    let n := x.sr d - 1
    .ok { Done.one s (New.plain 1 (.scalar d n)) with
      npc := if n = 0 then none else some (target x.strC.pc (imm.signExtend 64)) }) s

/-- An instruction without an effect of its own. -/
def idleOp (e : Strm) (r : Ring) (s : State) : Host.Outcome State Fault Refusal :=
  issue e r (fun _ s => .ok (Done.plain s)) s

/-- NOP (R117). -/
def execNop (r : Ring) (s : State) : Host.Outcome State Fault Refusal := idleOp .c r s

/-- VNOP (R185). -/
def execVnop (r : Ring) (s : State) : Host.Outcome State Fault Refusal := idleOp .v r s

/-- MNOP (R224). -/
def execMnop (r : Ring) (s : State) : Host.Outcome State Fault Refusal := idleOp .m r s

/-- XNOP (R365). -/
def execXnop (r : Ring) (s : State) : Host.Outcome State Fault Refusal := idleOp .x r s

/-- SKIP (R116): annuls the next n instructions when p XOR neg. -/
def execSkip (r : Ring) (p : PReg) (neg : Bool) (n : BitVec 6) (s : State) : Host.Outcome State Fault Refusal :=
  issue .c r (fun c s =>
    if (s.ctx c).pr p != neg then .ok (Done.plain (s.modStr c .c fun t => { t with skip := n.toNat }))
    else .ok (Done.plain s)) s

/-! ### JOIN and EXIT (R32, R33) -/

/-- The four streams. -/
def allStrms : List Strm := [.c, .v, .m, .x]

/-- The ring bits of the word a stream holds for issue. -/
def Ctx.heldRing (x : Ctx) (e : Strm) : Ring :=
  match (x.str e).held with
  | some (.word w) => ringOf w.toNat
  | some (.code i) => ringOf (x.dict.getD i.toNat 0).toNat
  | none => ⟨false, false, false, false⟩

/-- Streams that take part in a rendezvous: the live ones, and only C while a handler runs. -/
def Ctx.liveStrms (x : Ctx) : List Strm := allStrms.filter fun e => (x.str e).live == .live

/-- Whether a stream stands at JOIN k. -/
def Ctx.atJoin (x : Ctx) (k : BitVec 6) (e : Strm) : Bool := (x.str e).join == some k

/-- Another stream issues its JOIN in this cycle, which uses up its turn. -/
def State.joinIssue (s : State) (c : CoreId) (e : Strm) : State :=
  match s.beginSlot c e with
  | (s1, some f) => s1.readFault c f
  | (s1, none) =>
    let s2 := State.complete c e ((s1.ctx c).heldRing e) (Done.plain s1)
    { s2 with sched := s2.sched.filter fun a => a != .strm c e }

/-- All streams of a list issue their JOIN. -/
def State.joinAll (s : State) (c : CoreId) (es : List Strm) : State := es.foldl (fun s e => s.joinIssue c e) s

/-- Whether the envelope governor holds none of some streams in this cycle (R251). -/
def State.allMove (s : State) (c : CoreId) (es : List Strm) : Bool := es.all fun e => !(s.core c).govHolds e s.cycle

/-- The body of JOIN k of a stream: it waits until every live stream stands at a JOIN with the same k and none of them is held by
the envelope governor, then all issue in one cycle (R32, R48). -/
def joinBody (e : Strm) (k : BitVec 6) (c : CoreId) (s : State) : Res :=
  let x := s.ctx c
  let others := x.liveStrms.filter (· != e)
  if others.all (x.atJoin k) && (!x.te || others.isEmpty) && s.allMove c others then .ok (Done.plain (s.joinAll c others))
  else .wait 8 fun s => s.modStr c e fun t => { t with join := some k }

/-- JOIN (R32, R117). -/
def execJoin (r : Ring) (k : BitVec 6) (s : State) : Host.Outcome State Fault Refusal := issue .c r (joinBody .c k) s

/-- JOIN of the V stream (R481). -/
def execVJoin (r : Ring) (k : BitVec 6) (s : State) : Host.Outcome State Fault Refusal := issue .v r (joinBody .v k) s

/-- JOIN of the M stream (R481). -/
def execMJoin (r : Ring) (k : BitVec 6) (s : State) : Host.Outcome State Fault Refusal := issue .m r (joinBody .m k) s

/-- JOIN of the X stream (R481). -/
def execXJoin (r : Ring) (k : BitVec 6) (s : State) : Host.Outcome State Fault Refusal := issue .x r (joinBody .x k) s

/-- The streams that stay live agree on a JOIN: they proceed, in the next cycle where the envelope governor holds one of them in this
one (R32, R48). -/
def State.joinAgree (s : State) (c : CoreId) : State :=
  let x := s.ctx c
  let es := x.liveStrms
  match es with
  | [] => s
  | e :: _ =>
    match (x.str e).join with
    | none => s
    | some k => if es.all (x.atJoin k) && !x.te && s.allMove c es then s.joinAll c es else s

/-- The body of EXIT: the stream leaves the live set (R33). -/
def exitBody (e : Strm) (c : CoreId) (s : State) : Res :=
  .ok (Done.plain ((s.modStr c e fun t => { t with live := .exited }).joinAgree c))

/-- EXIT (R33, R117). -/
def execExit (r : Ring) (s : State) : Host.Outcome State Fault Refusal := issue .c r (exitBody .c) s

/-- EXIT of the V stream (R481). -/
def execVExit (r : Ring) (s : State) : Host.Outcome State Fault Refusal := issue .v r (exitBody .v) s

/-- EXIT of the M stream (R481). -/
def execMExit (r : Ring) (s : State) : Host.Outcome State Fault Refusal := issue .m r (exitBody .m) s

/-- EXIT of the X stream (R481). -/
def execXExit (r : Ring) (s : State) : Host.Outcome State Fault Refusal := issue .x r (exitBody .x) s

/-! ### Explicit tokens (R132, R133) -/

/-- Whether an instruction's signal bit names the queue of a direction (next when dir is set). -/
def ringSignals (r : Ring) (dir : Bool) : Bool := if dir then r.sn else r.sp

/-- Whether an instruction's wait bit names the queue of a direction. -/
def ringWaits (r : Ring) (dir : Bool) : Bool := if dir then r.wn else r.wp

/-- TOKEN (R132): deposits n tokens in its issue slot, once there is room for them and for its own signal bit. -/
def execToken (r : Ring) (dir : Bool) (n : BitVec 4) (s : State) : Host.Outcome State Fault Refusal :=
  issue .c r (fun c s =>
    let q := outQueue .c (!dir)
    if 15 < (s.ctx c).taken q + n.toNat + (ringSignals r dir).toNat then .wait q fun s => s
    else .ok (Done.plain (s.modCtx c fun x => x.deposit q n.toNat))) s

/-- TWAIT (R133): waits for n tokens beside the one its wait bit takes, and consumes them in its issue cycle. -/
def execTwait (r : Ring) (dir : Bool) (n : BitVec 4) (s : State) : Host.Outcome State Fault Refusal :=
  issue .c r (fun c s =>
    let q := inQueue .c (!dir)
    if (s.ctx c).ready q < n.toNat + (ringWaits r dir).toNat then .wait q fun s => s
    else .ok (Done.plain (s.modCtx c fun x => x.consume q n.toNat))) s

end Sys2Proof.Machine
end

