-- ==== Sys2Proof/Machine/Virt.lean ====
section
/-!
DEFINITION. Machine/Virt.lean: footprints, virtual accesses with their checks, and what the home controllers do (R287 to
R294, R303 to R311, R322 to R326).
-/
namespace Sys2Proof.Machine

/-! ### Footprints (R322 to R326) -/

/-- What an access asks of a footprint region (R323); copy is the source of an engine's copy. -/
inductive Acc | load | copy | store | atomic | barw | arm | arrv | await | seal
  deriving DecidableEq, Repr

/-- Whether a kind (0 R, 1 W, 2 A, 3 P, 4 Q) permits an access (R323). -/
def permits (kind : Nat) (a : Acc) : Bool :=
  match a with
  | .load => kind == 0 || kind == 1 || kind == 2 || kind == 4
  | .copy => kind == 0 || kind == 1 || kind == 4
  | .store => kind == 1 || kind == 3
  | .atomic => kind == 1 || kind == 2
  | .barw => kind == 0 || kind == 1 || kind == 2
  | .arm => kind == 1 || kind == 2 || kind == 3 || kind == 4
  | .arrv => kind == 1 || kind == 2 || kind == 3
  | .await => decide (kind ≤ 4)
  | .seal => kind == 1

/-- Whether two kinds conflict (R323). -/
def kindsConflict (a b : Nat) : Bool :=
  match a, b with
  | 0, 0 => false | 0, 4 => false | 4, 0 => false | 4, 4 => false
  | 2, 2 => false | 3, 4 => false | 4, 3 => false
  | _, _ => true

/-- A declared or standing range: space, first byte, size as a power of two or a length, kind. -/
structure Hold where
  sp : Space
  base : Nat
  len : Nat
  kind : Nat
  deriving DecidableEq, Repr

/-- The regions that task i of a launch declares (R322). -/
def Launch.holds (l : Launch) (i : Nat) : List Hold :=
  l.foot.map fun f => { sp := f.spc, base := if f.pert then f.base + i * 2 ^ f.k else f.base, len := 2 ^ f.k, kind := f.kind }

/-- A terminal state (R231). -/
def TaskSt.terminal : TaskSt → Bool
  | .done | .failed | .cancelled => true
  | _ => false

/-- The holds of the other holders of an address space: committed tasks that are not terminal, and standing holders; T2
regions only within the cluster of the task's last commit (R324 to R326). -/
def State.otherHolds (s : State) (c : CoreId) (asid : BitVec 16) : List Hold :=
  let me := (s.core c).run
  let tasks := (s.launches.filter fun e => e.2.asid == asid).map fun e =>
    (e.2.tasks.map fun t =>
      let own := match me with
        | some r => r.lid.toNat == e.1 && r.tidx.toNat == t.1
        | none => false
      if t.2.passed && !t.2.st.terminal && !own then
        (e.2.holds t.1).filter fun h => h.sp != .t2 || t.2.t2home == some (clusterOf c)
      else []).flatten
  let rings : List Hold := (s.ingest.filter fun q => q.2.asid == asid && decide (q.2.k ≠ 0)).map fun q =>
    { sp := .virt, base := q.2.base.toNat, len := 2 ^ q.2.k, kind := 3 }
  let subs : List Hold := (s.subs.filter fun q => q.2.asid == asid && decide (q.2.kind ≠ 0)).map fun q =>
    { sp := .virt, base := q.2.base.toNat, len := 2 ^ q.2.k, kind := 3 }
  let recvs : List Hold := (s.recvs.filter fun r => r.asid == asid).map fun r =>
    { sp := .virt, base := r.dst, len := r.len, kind := 3 }
  tasks.flatten ++ rings ++ subs ++ recvs

/-- One address in every 4 KiB page that n bytes from an address touch: a page lies wholly in a region or not at all. -/
def pageSamples (a n : Nat) : List Nat :=
  if n = 0 then [] else (List.range ((a + n - 1) / 4096 - a / 4096 + 1)).map fun i => max a ((a / 4096 + i) * 4096)

/-- What is left of intervals (first, end) when one is taken away. -/
def cutOut (l : List (Nat × Nat)) (lo hi : Nat) : List (Nat × Nat) :=
  (l.map fun p =>
    (if p.1 < min p.2 lo then [(p.1, min p.2 lo)] else []) ++
    (if max p.1 hi < p.2 then [(max p.1 hi, p.2)] else [])).flatten

/-- The footprint check of R326 for n bytes of a space: the lowest failing address and its cause. -/
def State.footCheck (s : State) (c : CoreId) (acc : Acc) (sp : Space) (a n : Nat) : Option (Cause × Nat) :=
  let mine : List Hold := match (s.core c).run, s.launchOf c with
    | some r, some l => l.holds r.tidx.toNat
    | _, _ => []
  let ok := mine.filter fun h => permits h.kind acc && h.sp == sp
  let bad := ok.foldl (fun l h => cutOut l h.base (h.base + h.len)) (if n = 0 then [] else [(a, a + n)])
  match minOf (bad.map (·.1)) with
  | none => none
  | some p =>
    let others := s.otherHolds c (s.asidOf c)
    let kinds := (List.range 5).filter fun k => permits k acc
    let race := bad.any fun q => others.any fun h =>
      h.sp == sp && decide (h.base < q.2) && decide (q.1 < h.base + h.len) &&
        kinds.all fun k => kindsConflict h.kind k
    some (if race then .race else .undeclaredAccess, p)

/-! ### Virtual accesses (R291) -/

/-- Steps 2 to 5 of R291: the physical pieces of a virtual range, or the cause. -/
def State.vmCheck (s : State) (c : CoreId) (p : Perm) (acc : Acc) (ea n : Nat) : Except Cause (List (Nat × Nat)) :=
  match s.vRange (some c) (s.asidOf c) p ea n with
  | .error (k, _) => .error k
  | .ok l =>
    match s.footCheck c acc .virt ea n with
    | some (k, _) => .error k
    | none => .ok l

/-- A stream's access to a range: its answer when the checks fail. -/
def badAns (k : Cause) (ea : Nat) : Ans := .fault k (BitVec.ofNat 64 ea)

/-- Perform the accepted stores of a core when one of them overlaps a read of its own C stream (R290). -/
def State.settleOwn (s : State) (c : CoreId) (l : List (Nat × Nat)) : State :=
  if (s.core c).pend.any fun p => l.any fun q => decide (p.pa < q.1 + q.2) && decide (q.1 < p.pa + p.bytes.length) then
    s.performStores c
  else s

/-- Steps 6 and 7 of R291 for a stream's write: the refusal, with OVF set at the entry that refuses it. -/
def State.writeRefused (s : State) (l : List (Nat × Nat)) (ea : Nat) : Option (State × Ans) :=
  if s.sealedHit l then some (s, badAns .sealedWrite ea)
  else match s.dieRefusers l with
    | [] => none
    | ids => some (s.setOvf ids, badAns .arrivalOverflow ea)

/-- A virtual load, or the read of a block of bytes (R291, R236, R343). -/
def State.doRead (s : State) (c : CoreId) (ea n : Nat) : State × Ans :=
  match s.vmCheck c .r .load ea n with
  | .error k => (s, badAns k ea)
  | .ok l =>
    let s1 := s.settleOwn c l
    match s1.badPiece l with
    | some i => (s1, badAns .uncorrectableData (ea + i))
    | none => (s1, .bytes (s1.readPieces l))

/-- The generation of a core's address space (R287). -/
def State.genOf (s : State) (c : CoreId) : BitVec 8 :=
  match s.space (s.asidOf c) with
  | some a => a.gen
  | none => 0

/-- Whether the address space of a core's task is retired (R287). -/
def State.retiredFor (s : State) (c : CoreId) : Bool :=
  match s.space (s.asidOf c) with
  | some a => a.retired
  | none => false

/-- A virtual store is accepted (R290). -/
def State.doStore (s : State) (c : CoreId) (ea n : Nat) (v : Word) : State × Ans :=
  match s.vmCheck c .w .store ea n with
  | .error k => (s, badAns k ea)
  | .ok l =>
    match s.writeRefused l ea with
    | some r => r
    | none =>
      let pa := match l with
        | p :: _ => p.1
        | [] => 0
      (s.modCore c fun k => { k with pend := k.pend ++ [{ va := ea, pa := pa, bytes := leBytes n v.toNat, gen := s.genOf c }] }, .done)

/-- The new value of an AMO (R293). -/
def AmoOp.eval (op : AmoOp) (old b : Word) : Word :=
  match op with
  | .add => old + b
  | .and => old &&& b
  | .or => old ||| b
  | .xor => old ^^^ b
  | .min => if old.slt b then old else b
  | .max => if old.slt b then b else old
  | .minn => if old.ult b then old else b
  | .maxn => if old.ult b then b else old
  | .swap => b

/-- A read-modify-write of n bytes at the home: f gives the bytes to write, if any, and the answer. The flag sure says
that it writes whatever it reads, so that the refusals of its write come first (R262, R291, R293, R294). -/
def State.doAtomic (s : State) (c : CoreId) (sure : Bool) (ea n : Nat) (f : List Byte → Option (List Byte) × Ans) :
    State × Ans :=
  match s.vmCheck c .rw .atomic ea n with
  | .error k => (s, badAns k ea)
  | .ok l =>
    let s1 := s.settleOwn c l
    let refused := s1.writeRefused l ea
    match s1.badPiece l with
    | some i =>
      match sure, refused with
      | true, some r => r
      | _, _ => (s1, badAns .uncorrectableData (ea + i))
    | none =>
      match f (s1.readPieces l) with
      | (none, a) => (s1, a)
      | (some bs, a) =>
        match refused with
        | some r => r
        | none => (s1.performWrite (s1.srcOf c 0) (some (s1.asidOf c)) ea l bs, a)

/-- BARA at the home (R265), with the notice of an advance (R266). -/
def State.doBara (s : State) (c : CoreId) (ea n : Nat) (drop : Bool) : State × Ans :=
  let r := s.doAtomic c true ea 16 fun bs =>
    let o := (Barrier.ofBytes bs).arrive n drop s.devTime
    (some o.1.bytes, if o.2 then badAns .barrierOverarrival ea else .done)
  match s.vRange (some c) (s.asidOf c) .rw ea 16 with
  | .error _ => r
  | .ok l => ((s.settleOwn c l).barNotice r.1 (firstPa l), r.2)

/-- A write of a whole object at the home, which reads nothing (R264). -/
def State.doWhole (s : State) (c : CoreId) (ea : Nat) (bs : List Byte) : State × Ans :=
  match s.vmCheck c .rw .atomic ea bs.length with
  | .error k => (s, badAns k ea)
  | .ok l =>
    match s.writeRefused l ea with
    | some r => r
    | none => ((s.settleOwn c l).performWrite (s.srcOf c 0) (some (s.asidOf c)) ea l bs, .done)

/-! ### Arrival instructions at the home (R303 to R307) -/

/-- SPC of a control word (R303). -/
def ctlSpace (b : Word) : Option Space := Space.ofCode (b.toNat / 2 ^ 60)

/-- VAL of a control word (R303). -/
def ctlVal (b : Word) : Nat := b.toNat % 2 ^ 48

/-- Where a region entry is held. -/
inductive Place
  | die (id : Nat)
  | core (slot : Nat)
  deriving DecidableEq, Repr

/-- Whether a space's entries are die entries (R295). -/
def dieSide : Space → Bool
  | .virt | .t3 | .t4 => true
  | _ => false

/-- Find the entry that an arrival instruction names, with faults 1 to 4 of R303, a retired space failing with
STALE_GENERATION whatever the address form (R287); none when an absent local entry may be created (R305), for T2 after the
footprint check of the address (R326). A T2 address is looked up among the entries of the core itself (log entry 125). -/
def State.findEntry (s : State) (c : CoreId) (acc : Acc) (a b : Word) (mayCreate : Bool) :
    Except (Cause × Word) (Option (Place × Region)) :=
  match ctlSpace b with
  | none => .error (.protection, b)
  | some sp =>
    if dieSide sp then
      let va := if sp = .virt then (s.vaOf c a).toNat else a.toNat
      let pre : Option Cause :=
        if sp = .virt then
          match s.vRange (some c) (s.asidOf c) .r va 1 with
          | .error (k, _) => some k
          | .ok _ => none
        else if s.retiredFor c then some .staleGeneration
        else none
      match pre with
      | some k => .error (k, a)
      | none =>
        match s.dieEntry (s.asidOf c) sp va with
        | none => .error (.protection, a)
        | some (id, r) =>
          match s.footCheck c acc sp va 1 with
          | some (k, _) => .error (k, a)
          | none => .ok (some (.die id, r))
    else
      match (s.ctx c).coreEntry sp a.toNat with
      | some (i, r) =>
        if sp = .t2 then
          match s.footCheck c acc sp a.toNat 1 with
          | some (k, _) => .error (k, a)
          | none => .ok (some (.core i, r))
        else .ok (some (.core i, r))
      | none =>
        if !mayCreate then .error (.protection, a)
        else if sp = .t2 then
          match s.footCheck c acc sp a.toNat 1 with
          | some (k, _) => .error (k, a)
          | none => .ok none
        else .ok none

/-- Store an entry at its place. -/
def State.setEntry (s : State) (c : CoreId) (p : Place) (r : Region) : State :=
  match p with
  | .die id => { s with regions := s.regions.set id r }
  | .core i => s.setCoreEntry c i r

/-- Run the consequences of a firing. -/
def State.fired (s : State) (c : CoreId) (p : Place) (r : Region) : State :=
  match p with
  | .die id => s.dieFired id r
  | .core i => s.coreFired c i r

/-- Whether an entry has not fired in this cycle (R300). -/
def State.mayFire (s : State) (c : CoreId) (p : Place) : Bool :=
  match p with
  | .die id => !s.refire.contains id
  | .core i => !s.refire.contains (coreKey c i)

/-- What ARM does to an entry, and whether it fires (R305). -/
def Region.armed (r : Region) (val : Nat) (d : Word) : Region × Bool :=
  let clr := d.getLsbD 60
  let r1 := if clr then { r with count := 0, ovf := false, flt := false } else r
  let r2 := { r1 with target := val, act := BitVec.ofNat 2 (d.toNat / 2 ^ 62), rearm := d.getLsbD 61,
                      arg := d.setWidth 60, fired := false }
  if val = 0 then (r2, false)
  else if r2.rearm then (r2, decide (val ≤ r2.count))
  else if r2.count < val then (r2, false)
  else ({ r2 with count := val, ovf := r2.ovf || decide (val < r2.count), fired := true }, true)

/-- The lowest free slot of the 64 core entries (R295). -/
def Ctx.freeSlot (x : Ctx) : Option Nat := (List.range 64).find? fun i => !x.regs.has i

/-- The entry that ARM with CLR creates on a local space, if it may (R305), under the current generation (R296). Its range
is held against the other entries of this core: two cores of a cluster may each count the same T2 bytes (log entry 125). -/
def State.newEntry (s : State) (c : CoreId) (sp : Space) (a : Nat) (b : Word) : Option (Nat × Region) :=
  let k := b.toNat / 2 ^ 48 % 64
  let base := a / 2 ^ k * 2 ^ k
  if k < 12 ∨ 23 < k then none
  else if !((pageSamples base (2 ^ k)).all fun p => (s.cellOf c sp p).isSome) then none
  else if (s.ctx c).regs.any fun e =>
      e.2.spc == sp && decide (e.2.base < base + 2 ^ k) && decide (base < e.2.base + 2 ^ e.2.k) then none
  else
    match (s.ctx c).freeSlot with
    | none => none
    | some i => some (i, { spc := sp, base := base, asid := s.asidOf c, gen := s.genOf c, k := k, sealed := false, rearm := false,
                           act := 0, flt := false, ovf := false, fired := false, valid := true, fires := 0, count := 0,
                           target := 0, arg := 0 })

/-- ARM of an entry (R305): it fires at once, or in the next cycle where it has fired in this one (R300). -/
def State.armAt (s : State) (c : CoreId) (p : Place) (r : Region) (val : Nat) (d : Word) : State :=
  let k := r.armed val d
  if k.2 && s.mayFire c p then
    let r2 := if k.1.rearm then k.1.fired1 else { k.1 with fires := k.1.fires + 1 }
    (s.setEntry c p r2).fired c p r2
  else s.setEntry c p (if k.2 then { k.1 with fired := false } else k.1)

/-- ARM (R303, R305). -/
def State.doArm (s : State) (c : CoreId) (a b d : Word) : State × Ans :=
  let clr := d.getLsbD 60
  let go := fun (p : Place) (r : Region) =>
    match p with
    | .core i =>
      if clr ∧ ctlVal b = 0 then (s.modCtx c fun x => { x with regs := x.regs.del i }, Ans.done)
      else (s.armAt c p r (ctlVal b) d, Ans.done)
    | .die _ => (s.armAt c p r (ctlVal b) d, Ans.done)
  match s.findEntry c .arm a b clr with
  | .error (k, addr) => (s, .fault k addr)
  | .ok (some (p, r)) => go p r
  | .ok none =>
    match ctlSpace b with
    | none => (s, .fault .protection b)
    | some sp =>
      match s.newEntry c sp a.toNat b with
      | none => (s, .fault .protection a)
      | some (i, r) => go (.core i) r

/-- ARRV (R303, R306). -/
def State.doArrv (s : State) (c : CoreId) (a b : Word) : State × Ans :=
  match s.findEntry c .arrv a b false with
  | .error (k, addr) => (s, .fault k addr)
  | .ok none => (s, .fault .protection a)
  | .ok (some (p, r)) =>
    let ahead := match p with
      | .die id => s.promised id r
      | .core _ => 0
    if r.target ≠ 0 ∧ r.refuses (ctlVal b + ahead) ∧ ctlVal b ≠ 0 then
      (s.setEntry c p { r with ovf := true }, .fault .arrivalOverflow a)
    else
      let k := r.countUp (ctlVal b) (s.mayFire c p)
      let s1 := s.setEntry c p k.r
      let s2 := if k.fires then s1.fired c p k.r else s1
      (s2, .word (BitVec.ofNat 64 (k.r.count % 2 ^ 48 + k.fires.toNat * 2 ^ 63)))

/-- Whether one region of a core's task that permits an access covers n bytes of a space whole (R323). -/
def State.wholeHold (s : State) (c : CoreId) (acc : Acc) (sp : Space) (a n : Nat) : Bool :=
  match (s.core c).run, s.launchOf c with
  | some r, some l => (l.holds r.tidx.toNat).any fun h =>
      permits h.kind acc && h.sp == sp && decide (h.base ≤ a) && decide (a + n ≤ h.base + h.len)
  | _, _ => false

/-- SEAL (R308, R309): one W region covers the whole entry (R323); accepted writes are performed, then the SEAL bit is set. -/
def State.doSeal (s : State) (c : CoreId) (a : Word) (on : Bool) : State × Ans :=
  let va := (s.vaOf c a).toNat
  match s.vRange (some c) (s.asidOf c) .any va 1 with
  | .error (k, _) => (s, .fault k a)
  | .ok _ =>
    match s.dieEntry (s.asidOf c) .virt va with
    | none => (s, .fault .protection a)
    | some (id, r) =>
      match s.footCheck c .seal .virt r.base (2 ^ r.k) with
      | some (k, _) => (s, .fault k a)
      | none =>
        if !s.wholeHold c .seal .virt r.base (2 ^ r.k) then (s, .fault .undeclaredAccess a)
        else if on then
          let s1 := s.cores.foldl (fun s k => s.performStores (BitVec.ofNat 9 k.1)) s
          ({ s1 with regions := s1.regions.set id { (s1.regions.getD id r) with sealed := true } }, .done)
        else
          ({ s with replicas := s.replicas.filter fun p => p.1 != id,
                    regions := s.regions.set id { r with sealed := false } }, .done)

/-! ### Requests and answers -/

/-- The virtual address that a request translates. -/
def Req.va (q : Req) : Option VAddr :=
  match q with
  | .ld va _ => some va
  | .blk va _ => some va
  | .st va _ _ => some va
  | .amo _ va _ => some va
  | .cas va _ _ => some va
  | .bari va _ => some va
  | .bara va _ _ => some va
  | .barw va => some va
  | _ => none

/-- What a controller does with a request of a core's C or X stream, and its answer (R290, R303, R308, R343). LAUNCH,
CANCEL and CLSTEP requests have their own answers. -/
def State.serveReq (s : State) (c : CoreId) (q : Req) : State × Ans :=
  match q with
  | .ld va n => s.doRead c va.toNat n
  | .blk va n => s.doRead c va.toNat n
  | .st va n v => s.doStore c va.toNat n v
  | .amo op va b => s.doAtomic c true va.toNat 8 fun bs =>
      let old := BitVec.ofNat 64 (leNat bs)
      (some (leBytes 8 (op.eval old b).toNat), .word old)
  | .cas va d b => s.doAtomic c false va.toNat 8 fun bs =>
      let old := BitVec.ofNat 64 (leNat bs)
      (if old = d then some (leBytes 8 b.toNat) else none, .word old)
  | .bari va b => s.doWhole c va.toNat (Barrier.init b.toNat s.devTime).bytes
  | .bara va n drop => s.doBara c va.toNat n drop
  | .barw va =>
    match s.vmCheck c .r .barw va.toNat 16 with
    | .error k => (s, badAns k va.toNat)
    | .ok l =>
      let s1 := s.settleOwn c l
      match s1.badPiece l with
      | some i => (s1, badAns .uncorrectableData (va.toNat + i))
      | none => (s1, .word (BitVec.ofNat 64 (Barrier.ofBytes (s1.readPieces l)).bph))
  | .arm a b d => s.doArm c a b d
  | .arrv a b => s.doArrv c a b
  | .seal va => s.doSeal c (va.setWidth 64) true
  | .unseal va => s.doSeal c (va.setWidth 64) false
  | .launch _ _ _ => (s, .done)
  | .cancel _ _ => (s, .done)

/-- Serve a request: its translation is kept in the core's cache (R288). -/
def State.serve (s : State) (c : CoreId) (q : Req) : State × Ans :=
  match q.va with
  | some va => (s.cached c va.toNat).serveReq c q
  | none => s.serveReq c q

/-- Send a request: the stream waits until it is answered. -/
def State.send (s : State) (c : CoreId) (e : Strm) (q : Req) : State :=
  s.modStr c e fun t => { t with sent := some { req := q, gen := s.genOf c, replayed := false, ans := none } }

/-- The body of an instruction that waits for a controller (R48, R290): the answer has come, or is awaited, or comes at
once when the controllers answer at once. -/
def ask (e : Strm) (q : Req) (k : State → Ans → Res) (c : CoreId) (s : State) : Res :=
  match ((s.ctx c).str e).sent with
  | some t =>
    match t.ans with
    | some a => k s a
    | none => .wait otherWait fun s => s
  | none =>
    if s.memHold then .wait otherWait fun s => s.send c e q
    else
      let r := s.serve c q
      k r.1 r.2

/-- The answer of a request that only completes: fault, or issue without a result. -/
def ansDone (s : State) (a : Ans) : Res :=
  match a with
  | .fault k addr => .faultIn s k addr []
  | _ => .ok (Done.plain s)

/-- The answer of a request that returns a scalar: it lands one slot after issue. -/
def ansScalar (d : SReg) (s : State) (a : Ans) : Res :=
  match a with
  | .fault k addr => .faultIn s k addr []
  | .word v => .ok (Done.one s (New.plain 1 (.scalar d v)))
  | .bytes bs => .ok (Done.one s (New.plain 1 (.scalar d (BitVec.ofNat 64 (leNat bs)))))
  | .done => .ok (Done.plain s)

/-- The address a request names, for STALE_GENERATION (R291). -/
def Req.addr (q : Req) : Word :=
  match q with
  | .ld va _ => va.setWidth 64
  | .st va _ _ => va.setWidth 64
  | .amo _ va _ => va.setWidth 64
  | .cas va _ _ => va.setWidth 64
  | .bari va _ => va.setWidth 64
  | .bara va _ _ => va.setWidth 64
  | .barw va => va.setWidth 64
  | .arm a _ _ => a
  | .arrv a _ => a
  | .seal va => va.setWidth 64
  | .unseal va => va.setWidth 64
  | .blk va _ => va.setWidth 64
  | .launch _ _ _ => 0
  | .cancel _ _ => 0

/-- A home controller answers a sent request (R287, R290): a request of the previous generation stays rejected until it
is replayed; one that was replayed already, or that is older, gets STALE_GENERATION. -/
def State.answer (s : State) (c : CoreId) (e : Strm) : State :=
  match ((s.ctx c).str e).sent with
  | none => s
  | some t =>
    match t.ans with
    | some _ => s
    | none =>
      if t.gen = s.genOf c then
        let r := s.serve c t.req
        r.1.modStr c e fun u => { u with sent := some { t with ans := some r.2 } }
      else if t.gen + 1 = s.genOf c && !t.replayed then s
      else s.modStr c e fun u =>
        { u with sent := some { t with ans := some (.fault .staleGeneration t.req.addr) } }

end Sys2Proof.Machine
end

