-- ==== Sys2Proof/Machine/CMem.lean ====
section
/-!
DEFINITION. Machine/CMem.lean: loads, stores, prefetch, atomics, arrival instructions, barriers, seals and fences of the
C stream (R118 to R123, R136, R261 to R267, R290 to R294, R303 to R311, R328).
-/
namespace Sys2Proof.Machine

/-- The space of a local access of C (R73). -/
def lspSpace : LSp → Space
  | .cr => .cr | .xb => .xb | .ofs => .ofs

/-- Bytes of an access size (R73). -/
def szBytes : Sz → Nat
  | .b => 1 | .h => 2 | .w => 4 | .d => 8

/-- log2 of an access size. -/
def szLog : Sz → Nat
  | .b => 0 | .h => 1 | .w => 2 | .d => 3

/-- EA of format L (R119). -/
def eaL (x : Ctx) (a : SReg) (sz : Sz) (off : BitVec 6) : Word := x.sr a + (off.signExtend 64 <<< szLog sz)

/-- EA of format LX (R119). -/
def eaX (x : Ctx) (a b : SReg) (sz : Sz) : Word := x.sr a + (x.sr b <<< szLog sz)

/-- Whether a local address lies in a lent window. -/
def inWindow (sp : Space) (a : Nat) : Bool := (windowOf sp a).isSome

/-- Latency of a local load (R96): the expanded alias adds none (R286). -/
def loadLat (sp : LSp) (ea : Nat) : Nat :=
  match sp with
  | .cr => 3
  | _ => if inWindow (lspSpace sp) ea then 12 else 6

/-- A local load (R119 to R122). -/
def localLoad (d : SReg) (sz : Sz) (sp : LSp) (ea : Word) (c : CoreId) (s : State) : Res :=
  let n := szBytes sz
  let as := span ea.toNat n
  let reads := match sp with
    | .ofs => as
    | _ => []
  if ea.toNat % n ≠ 0 then .fault .misaligned ea []
  else match s.ldBad c 0 (lspSpace sp) as with
    | some b => .fault (s.readCause c (lspSpace sp) b) (BitVec.ofNat 64 b) reads
    | none =>
      let v := leNat (as.map (s.ldByte c 0 (lspSpace sp)))
      let s1 := s.oorNote c .c (lspSpace sp) false (minOf (s.ldOut c 0 (lspSpace sp) as))
      .ok { Done.one s1 (New.plain (loadLat sp ea.toNat) (.scalar d (BitVec.ofNat 64 v))) with reads := reads }

/-- A local store of bytes by a stream in its issue cycle, in parts with the address of each: refused as a whole by a
full region counter, with the address of the first part that it covers, else performed and counted (R44, R121, R198,
R299). -/
def streamStores (s : State) (c : CoreId) (e : Strm) (sp : Space) (parts : List (Word × List (Nat × Byte)))
    (reads : List Nat) (k : State → Res) : Res :=
  let cells := (parts.map (·.2)).flatten
  let as := cells.map (·.1)
  match s.localRefusers c sp as with
  | [] => k ((s.oorNote c e sp true (minOf (s.outOf c sp as))).localStore c e.num sp cells 0)
  | l =>
    let hit := fun (p : Word × List (Nat × Byte)) => l.any fun q =>
      (p.2.map (·.1)).any fun a => match s.cellOf c sp a with
        | some o => o.1 == q.2.2.2 && q.2.2.1.covers o.2.2
        | none => false
    .faultIn (s.setLocalOvf l) .arrivalOverflow (match parts.find? hit with
      | some p => p.1
      | none => 0) reads

/-- A local store of one part. -/
def streamStore (s : State) (c : CoreId) (e : Strm) (sp : Space) (cells : List (Nat × Byte)) (ea : Word)
    (reads : List Nat) (k : State → Res) : Res :=
  streamStores s c e sp [(ea, cells)] reads k

/-- A local store (R119 to R122). -/
def localStoreOp (v : Word) (sz : Sz) (sp : LSp) (ea : Word) (c : CoreId) (s : State) : Res :=
  let n := szBytes sz
  if ea.toNat % n ≠ 0 then .fault .misaligned ea []
  else
    let cells := (leBytes n v.toNat).zipIdx.map fun p => (ea.toNat + p.2, p.1)
    streamStore s c .c (lspSpace sp) cells ea [] fun s => .ok (Done.plain s)

/-- LD of a local space (R118). -/
def execLd (r : Ring) (d a : SReg) (sz : Sz) (sp : LSp) (off : BitVec 6) (s : State) : Host.Outcome State Fault Refusal :=
  issue .c r (fun c s => localLoad d sz sp (eaL (s.ctx c) a sz off) c s) s

/-- ST of a local space (R118). -/
def execSt (r : Ring) (d a : SReg) (sz : Sz) (sp : LSp) (off : BitVec 6) (s : State) : Host.Outcome State Fault Refusal :=
  issue .c r (fun c s => localStoreOp ((s.ctx c).sr d) sz sp (eaL (s.ctx c) a sz off) c s) s

/-- LDX of a local space (R118). -/
def execLdx (r : Ring) (d a b : SReg) (sz : Sz) (sp : LSp) (s : State) : Host.Outcome State Fault Refusal :=
  issue .c r (fun c s => localLoad d sz sp (eaX (s.ctx c) a b sz) c s) s

/-- STX of a local space (R118). -/
def execStx (r : Ring) (d a b : SReg) (sz : Sz) (sp : LSp) (s : State) : Host.Outcome State Fault Refusal :=
  issue .c r (fun c s => localStoreOp ((s.ctx c).sr d) sz sp (eaX (s.ctx c) a b sz) c s) s

/-- PFT of a local space (R123): no effect. -/
def execPft (r : Ring) (_ : SReg) (_ : Sz) (_ : LSp) (_ : BitVec 6) (s : State) : Host.Outcome State Fault Refusal :=
  issue .c r (fun _ s => .ok (Done.plain s)) s

/-! ### Virtual memory (R290 to R294) -/

/-- A virtual load (R290, R291). -/
def vmLoad (d : SReg) (sz : Sz) (ea : Word) (c : CoreId) (s : State) : Res :=
  if ea.toNat % szBytes sz ≠ 0 then .fault .misaligned ea []
  else ask .c (.ld (s.vaOf c ea) (szBytes sz)) (ansScalar d) c s

/-- A virtual store (R290, R291). -/
def vmStore (v : Word) (sz : Sz) (ea : Word) (c : CoreId) (s : State) : Res :=
  if ea.toNat % szBytes sz ≠ 0 then .fault .misaligned ea []
  else ask .c (.st (s.vaOf c ea) (szBytes sz) v) ansDone c s

/-- LD `.vm` (R290). -/
def execLdVm (r : Ring) (d a : SReg) (sz : Sz) (off : BitVec 6) (s : State) : Host.Outcome State Fault Refusal :=
  issue .c r (fun c s => vmLoad d sz (eaL (s.ctx c) a sz off) c s) s

/-- ST `.vm` (R290). -/
def execStVm (r : Ring) (d a : SReg) (sz : Sz) (off : BitVec 6) (s : State) : Host.Outcome State Fault Refusal :=
  issue .c r (fun c s => vmStore ((s.ctx c).sr d) sz (eaL (s.ctx c) a sz off) c s) s

/-- LDX `.vm` (R290). -/
def execLdxVm (r : Ring) (d a b : SReg) (sz : Sz) (s : State) : Host.Outcome State Fault Refusal :=
  issue .c r (fun c s => vmLoad d sz (eaX (s.ctx c) a b sz) c s) s

/-- STX `.vm` (R290). -/
def execStxVm (r : Ring) (d a b : SReg) (sz : Sz) (s : State) : Host.Outcome State Fault Refusal :=
  issue .c r (fun c s => vmStore ((s.ctx c).sr d) sz (eaX (s.ctx c) a b sz) c s) s

/-- PFT `.vm` (R292): never faults. -/
def execPftVm (r : Ring) (a : SReg) (sz : Sz) (off : BitVec 6) (s : State) : Host.Outcome State Fault Refusal :=
  issue .c r (fun c s => .ok (Done.plain (s.prefetch c (s.vaOf c (eaL (s.ctx c) a sz off)).toNat))) s

/-- An AMO (R293). -/
def amoOp (op : AmoOp) (r : Ring) (d a b : SReg) (s : State) : Host.Outcome State Fault Refusal :=
  issue .c r (fun c s =>
    let x := s.ctx c
    if (x.sr a).toNat % 8 ≠ 0 then .fault .misaligned (x.sr a) []
    else ask .c (.amo op (s.vaOf c (x.sr a)) (x.sr b)) (ansScalar d) c s) s

/-- AMO_ADD (R293). -/
def execAmoAdd (r : Ring) (d a b : SReg) (s : State) : Host.Outcome State Fault Refusal := amoOp .add r d a b s

/-- AMO_AND (R293). -/
def execAmoAnd (r : Ring) (d a b : SReg) (s : State) : Host.Outcome State Fault Refusal := amoOp .and r d a b s

/-- AMO_OR (R293). -/
def execAmoOr (r : Ring) (d a b : SReg) (s : State) : Host.Outcome State Fault Refusal := amoOp .or r d a b s

/-- AMO_XOR (R293). -/
def execAmoXor (r : Ring) (d a b : SReg) (s : State) : Host.Outcome State Fault Refusal := amoOp .xor r d a b s

/-- AMO_MIN (R293). -/
def execAmoMin (r : Ring) (d a b : SReg) (s : State) : Host.Outcome State Fault Refusal := amoOp .min r d a b s

/-- AMO_MAX (R293). -/
def execAmoMax (r : Ring) (d a b : SReg) (s : State) : Host.Outcome State Fault Refusal := amoOp .max r d a b s

/-- AMO_MINN (R293). -/
def execAmoMinn (r : Ring) (d a b : SReg) (s : State) : Host.Outcome State Fault Refusal := amoOp .minn r d a b s

/-- AMO_MAXN (R293). -/
def execAmoMaxn (r : Ring) (d a b : SReg) (s : State) : Host.Outcome State Fault Refusal := amoOp .maxn r d a b s

/-- AMO_SWAP (R293). -/
def execAmoSwap (r : Ring) (d a b : SReg) (s : State) : Host.Outcome State Fault Refusal := amoOp .swap r d a b s

/-- CAS (R294): the old d is the expected value. -/
def execCas (r : Ring) (d a b : SReg) (s : State) : Host.Outcome State Fault Refusal :=
  issue .c r (fun c s =>
    let x := s.ctx c
    if (x.sr a).toNat % 8 ≠ 0 then .fault .misaligned (x.sr a) []
    else ask .c (.cas (s.vaOf c (x.sr a)) (x.sr d) (x.sr b)) (ansScalar d) c s) s

/-! ### Arrival instructions (R303 to R307) -/

/-- An arrival instruction on a local entry answers in its issue cycle (R303). -/
def askEntry (b : Word) (q : Req) (k : State → Ans → Res) (c : CoreId) (s : State) : Res :=
  match ctlSpace b with
  | some sp =>
    if dieSide sp then ask .c q k c s
    else
      let r := s.serve c q
      k r.1 r.2
  | none => .fault .protection b []

/-- ARM (R305). -/
def execArm (r : Ring) (d a b : SReg) (s : State) : Host.Outcome State Fault Refusal :=
  issue .c r (fun c s =>
    let x := s.ctx c
    askEntry (x.sr b) (.arm (x.sr a) (x.sr b) (x.sr d)) ansDone c s) s

/-- ARRV (R306). -/
def execArrv (r : Ring) (d a b : SReg) (s : State) : Host.Outcome State Fault Refusal :=
  issue .c r (fun c s =>
    let x := s.ctx c
    askEntry (x.sr b) (.arrv (x.sr a) (x.sr b)) (ansScalar d) c s) s

/-- Cycles that a wait no watchdog counts has lasted. -/
def Stream.bounded (t : Stream) : Nat :=
  match t.wait with
  | some (k, n) => if k = otherWait then n else 0
  | none => 0

/-- A wait that ends with a predicate (R266, R307, R452). -/
def endWait (pd : PReg) (s : State) (v : Bool) : Res := .ok (Done.one s (New.plain 1 (.pred pd v)))

/-- AWAIT (R307): FIRES other than VAL, FLT, or the bound. -/
def execAwait (r : Ring) (pd : PReg) (a b : SReg) (s : State) : Host.Outcome State Fault Refusal :=
  issue .c r (fun c s =>
    let x := s.ctx c
    let w := x.sr b
    match s.findEntry c .await (x.sr a) w false with
    | .error (k, addr) => .fault k addr []
    | .ok none => .fault .protection (x.sr a) []
    | .ok (some (_, e)) =>
      if e.fires.toNat ≠ w.toNat / 2 ^ 32 % 2 ^ 16 then endWait pd s true
      else if e.flt || decide (w.toNat % 2 ^ 32 ≤ x.strC.bounded) then endWait pd s false
      else .wait otherWait fun s => s) s

/-! ### Barriers (R261 to R267) -/

/-- The local space of a barrier code; none is virtual memory (R262). -/
def bspSpace : BSp → Option Space
  | .cr => some .cr | .xb => some .xb | .ofs => some .ofs | .vm => none

/-- Read a local barrier object; its OF bytes are an operand read at issue (R52, R262). -/
def localBarrier (s : State) (c : CoreId) (sp : Space) (a : Nat) : Except Nat Barrier :=
  match s.badOf c 0 sp (span a 16) with
  | some b => .error b
  | none => .ok (Barrier.ofBytes (s.localBytes c 0 sp a 16))

/-- Write a local barrier object. -/
def putBarrier (s : State) (c : CoreId) (sp : Space) (a : Word) (o : Barrier) (reads : List Nat) (k : State → Res) : Res :=
  streamStore s c .c sp (o.bytes.zipIdx.map fun p => (a.toNat + p.2, p.1)) a reads k

/-- OF addresses that a local barrier access reads at issue (R52). -/
def barReads (sp : Space) (a : Nat) : List Nat :=
  match sp with
  | .ofs => span a 16
  | _ => []

/-- BARI (R264). -/
def execBari (r : Ring) (sp : BSp) (a b : SReg) (s : State) : Host.Outcome State Fault Refusal :=
  issue .c r (fun c s =>
    let x := s.ctx c
    let ad := x.sr a
    if ad.toNat % 16 ≠ 0 then .fault .misaligned ad []
    else match bspSpace sp with
      | none => ask .c (.bari (s.vaOf c ad) (x.sr b)) ansDone c s
      | some l => putBarrier s c l ad (Barrier.init (x.sr b).toNat s.devTime) [] fun s => .ok (Done.plain s)) s

/-- BARA (R265): c1 holds c − 1. -/
def execBara (r : Ring) (sp : BSp) (a : SReg) (c1 : BitVec 4) (drop : Bool) (s : State) : Host.Outcome State Fault Refusal :=
  issue .c r (fun c s =>
    let ad := (s.ctx c).sr a
    if ad.toNat % 16 ≠ 0 then .fault .misaligned ad []
    else match bspSpace sp with
      | none => ask .c (.bara (s.vaOf c ad) (c1.toNat + 1) drop) ansDone c s
      | some l =>
        match localBarrier s c l ad.toNat with
        | .error b => .fault (s.readCause c l b) (BitVec.ofNat 64 b) (barReads l ad.toNat)
        | .ok o =>
          let s0 := s.oorNote c .c l false (minOf (s.outOf c l (span ad.toNat 16)))
          let q := o.arrive (c1.toNat + 1) drop s.devTime
          putBarrier s0 c l ad q.1 (barReads l ad.toNat) fun s1 =>
            if q.2 then .faultIn s1 .barrierOverarrival ad (barReads l ad.toNat)
            else .ok { Done.plain s1 with reads := barReads l ad.toNat }) s

/-- SP of BARW's control register (R266). -/
def barwSpace (w : Word) : BSp :=
  match w.toNat / 16 % 4 with
  | 0 => .cr | 1 => .xb | 2 => .ofs | _ => .vm

/-- BARW's decision on the phase it read, or on a notice that has come (R266). A read that only waits leaves nothing, so that the
out-of-range record of a local object that does not exist is made by the last read (R44, R262; log entry 153). -/
def barwTest (pd : PReg) (w : Word) (bph : Nat) (c : CoreId) (s : State) (told : Bool := false) (wait : State → State := id) : Res :=
  if told = true ∨ bph ≠ w.toNat % 16 then endWait pd s true
  else if w.toNat / 2 ^ 32 ≤ (s.ctx c).strC.bounded then endWait pd s false
  else .wait otherWait wait

/-- Whether the notice of an advance has come for the object at a physical address (R266). -/
def Stream.told (t : Stream) (pa : Nat) : Bool := t.bar == some (pa, true)

/-- The physical address of a virtual barrier object. -/
def State.barPa (s : State) (c : CoreId) (va : VAddr) : Nat :=
  match s.translateFor (some c) (s.asidOf c) va.toNat with
  | .ok t => t.pa
  | .error _ => 0

/-- BARW (R266). Every attempt reads its registers anew, so that a result which V lands meanwhile in an exchange register changes the
phase, the bound or the object (log entry 153). -/
def execBarw (r : Ring) (pd : PReg) (a b : SReg) (s : State) : Host.Outcome State Fault Refusal :=
  issue .c r (fun c s =>
    let x := s.ctx c
    let ad := x.sr a
    let w := x.sr b
    if ad.toNat % 16 ≠ 0 then .fault .misaligned ad []
    else match bspSpace (barwSpace w) with
      | none =>
        let pa := s.barPa c (s.vaOf c ad)
        match s.serve c (.barw (s.vaOf c ad)) with
        | (s1, .word v) => barwTest pd w v.toNat c s1 ((s.ctx c).strC.told pa) fun s =>
            s.modStr c .c fun t => { t with bar := some (pa, false) }
        | (s1, .fault k addr) => .faultIn s1 k addr []
        | (s1, _) => barwTest pd w 0 c s1
      | some l =>
        match localBarrier s c l ad.toNat with
        | .error e => .fault (s.readCause c l e) (BitVec.ofNat 64 e) (barReads l ad.toNat)
        | .ok o =>
          match barwTest pd w o.bph c (s.oorNote c .c l false (minOf (s.outOf c l (span ad.toNat 16)))) with
          | .ok d => .ok { d with reads := barReads l ad.toNat }
          | q => q) s

/-! ### Seals and fences -/

/-- SEAL (R308, R309). -/
def execSeal (r : Ring) (a : SReg) (s : State) : Host.Outcome State Fault Refusal :=
  issue .c r (fun c s => ask .c (.seal (((s.ctx c).sr a).setWidth 72)) ansDone c s) s

/-- UNSEAL (R308, R311). -/
def execUnseal (r : Ring) (a : SReg) (s : State) : Host.Outcome State Fault Refusal :=
  issue .c r (fun c s => ask .c (.unseal (((s.ctx c).sr a).setWidth 72)) ansDone c s) s

/-- FENCE (R136, R328): the next C instruction is held until every accepted store is performed; the stream scope waits
for nothing. -/
def execFence (r : Ring) (sc : Scope) (s : State) : Host.Outcome State Fault Refusal :=
  issue .c r (fun c s =>
    match sc with
    | .stream => .ok (Done.plain s)
    | _ => .ok (Done.plain (s.modStr c .c fun t => { t with fence := !(s.core c).pend.isEmpty }))) s

end Sys2Proof.Machine
end

