-- ==== Sys2Proof/Machine/CSys.lean ====
section
/-!
DEFINITION. Machine/CSys.lean: control registers, time, views and descriptors, TRAP and ERET (R54, R124 to R131, R134,
R135, R400).
-/
namespace Sys2Proof.Machine

/-- A number reserved to the management core (R54). -/
def mgmtCsr (n : BitVec 10) : Bool := decide (0x300 ≤ n.toNat)

/-- A read of a control register with a latency (R124, R126). -/
def csrGet (lat : Nat) (g : SReg) (n : BitVec 10) (c : CoreId) (s : State) : Res :=
  if mgmtCsr n then .fault .privileged (n.setWidth 64) []
  else .ok (Done.one s (New.plain lat (.scalar g (s.csrRead c n.toNat))))

/-- A write of a control register takes effect at the start of the next slot (R126). -/
def csrPut (op : CsrOp) (g : SReg) (n : BitVec 10) (c : CoreId) (s : State) : Res :=
  if mgmtCsr n then .fault .privileged (n.setWidth 64) []
  else .ok (Done.one s (New.plain 1 (.csr n op ((s.ctx c).sr g))))

/-- CSRR (R124, R126). -/
def execCsrr (r : Ring) (g : SReg) (csr : BitVec 10) (s : State) : Host.Outcome State Fault Refusal :=
  issue .c r (fun c s => csrGet 3 g csr c s) s

/-- CSRW (R124, R125). -/
def execCsrw (r : Ring) (g : SReg) (csr : BitVec 10) (s : State) : Host.Outcome State Fault Refusal :=
  issue .c r (fun c s => csrPut .w g csr c s) s

/-- CSRS (R124, R125). -/
def execCsrs (r : Ring) (g : SReg) (csr : BitVec 10) (s : State) : Host.Outcome State Fault Refusal :=
  issue .c r (fun c s => csrPut .s g csr c s) s

/-- CSRC (R124, R125). -/
def execCsrc (r : Ring) (g : SReg) (csr : BitVec 10) (s : State) : Host.Outcome State Fault Refusal :=
  issue .c r (fun c s => csrPut .c g csr c s) s

/-- TIME (R127): DEVTIME with latency 1. -/
def execTime (r : Ring) (g : SReg) (s : State) : Host.Outcome State Fault Refusal :=
  issue .c r (fun _ s => .ok (Done.one s (New.plain 1 (.scalar g s.devTime)))) s

/-- Whether n bytes of OF lie in the in-range part or in one granted lent window (R37, R43). -/
def State.ofSpan (s : State) (c : CoreId) (base n : Nat) : Bool :=
  decide (base + n ≤ (s.core c).inRange .ofs) ||
  (match windowOf .ofs base with
    | some (i, o) => (s.ctx c).granted i && decide (o + n ≤ 0x30000)
    | none => false)

/-- VIEW (R128). -/
def execView (r : Ring) (vd : VReg) (a : SReg) (s : State) : Host.Outcome State Fault Refusal :=
  issue .c r (fun c s =>
    let w := (s.ctx c).sr a
    if w.toNat < 2 ^ 32 ∧ w.toNat % 128 = 0 ∧ s.ofSpan c w.toNat 128 = true then
      .ok (Done.one s (New.plain 1 (.view vd (w.setWidth 32))))
    else .fault .viewInvalid w []) s

/-- The view that a TDESC descriptor describes, when its reserved bits are zero and FMT is a format (R129, R130). -/
def tdescView (a b : Word) : Option TView :=
  if a.toNat / 2 ^ 56 ≠ 0 ∨ b.toNat / 2 ^ 27 ≠ 0 then none
  else match fmtOf (b.toNat / 2 ^ 20 % 32) with
    | none => none
    | some f => some { base := a.toNat % 2 ^ 32, pitch := a.toNat / 2 ^ 32 % 2 ^ 24, rows := b.toNat % 2 ^ 10 + 1,
                       cols := b.toNat / 2 ^ 10 % 2 ^ 10 + 1, fmt := f, maj := b.getLsbD 25 }

/-- Step 2 of R130. -/
def TView.accOk (v : TView) : Bool := (v.fmt == .f32 || v.fmt == .f64 || v.fmt == .i32) && !v.maj

/-- Whether a descriptor passes the checks of R130: acc for an accumulator view. -/
def State.tdescOk (s : State) (c : CoreId) (acc : Bool) (v : TView) : Bool :=
  v.shapeOk &&
  (if acc then v.accOk && decide (0x40000 ≤ v.base) && decide (v.base - 0x40000 + v.extent ≤ (s.core c).inRange .acs)
   else s.ofSpan c v.base v.extent)

/-- Where TDESC puts a view (R129). -/
def tdescDest (d : BitVec 5) (v : Option TView) : Dest :=
  if d.toNat < 16 then .tview (BitVec.ofNat 4 d.toNat) v else .aview (BitVec.ofNat 4 (d.toNat - 16)) v

/-- TDESC (R129, R130). -/
def execTdesc (r : Ring) (d : BitVec 5) (a b : SReg) (s : State) : Host.Outcome State Fault Refusal :=
  issue .c r (fun c s =>
    let wa := (s.ctx c).sr a
    let wb := (s.ctx c).sr b
    if wb.getLsbD 26 then .ok (Done.one s (New.plain 1 (tdescDest d none)))
    else match tdescView wa wb with
      | none => .fault .viewInvalid (BitVec.ofNat 64 (wa.toNat % 2 ^ 32)) []
      | some v =>
        if s.tdescOk c (decide (16 ≤ d.toNat)) v then .ok (Done.one s (New.plain 1 (tdescDest d (some v))))
        else .fault .viewInvalid (BitVec.ofNat 64 (wa.toNat % 2 ^ 32)) []) s

/-- TRAP (R134). -/
def execTrap (r : Ring) (code : BitVec 6) (s : State) : Host.Outcome State Fault Refusal :=
  issue .c r (fun _ _ => .fault .trapInstruction (code.setWidth 64) []) s

/-- The address of the trap frame (R397, R401). -/
def Ctx.frameAt (x : Ctx) : Nat := if x.tsp = 0 then 0x10000 else x.tsp.toNat

/-- An odd address to which ERET would return a stream, if any (R66, R400). -/
def State.eretOdd (s : State) (c : CoreId) : Option Word :=
  let x := s.ctx c
  let cpc := leNat (s.localBytes c 0 .cr (x.frameAt + 0x20) 8)
  if x.trapPc.getLsbD 0 then some x.trapPc
  else if x.tstream ≠ 0 ∧ cpc % 2 = 1 ∧ x.ownC.live = .live then some (BitVec.ofNat 64 cpc)
  else none

/-- The issue of ERET: its ring bits act, the handler returns, and the released streams start in the next cycle (R400). -/
def State.eretIssue (s : State) (c : CoreId) (r : Ring) : State :=
  let s1 := s.modCtx c fun x =>
    let x := (x.iff r.wp fun x => x.consume (inQueue .c true) 1).iff r.wn fun x => x.consume (inQueue .c false) 1
    (x.iff r.sp fun x => x.deposit (outQueue .c true) 1).iff r.sn fun x => x.deposit (outQueue .c false) 1
  let s2 := s1.returnFromTrap c
  { s2 with sched := s2.sched.filter fun a => a != .strm c .v && a != .strm c .m && a != .strm c .x }

/-- ERET (R135, R400): waits for the handler's landing queue while it drains, then returns. -/
def execEret (r : Ring) (s : State) : Host.Outcome State Fault Refusal :=
  issue .c r (fun c s =>
    let x := s.ctx c
    if !x.te then .fault .privileged 0 []
    else if !x.strC.queue.isEmpty then .wait otherWait fun s => s.idleSlot c .c
    else match s.badOf c 0 .cr (span x.frameAt 64) with
      | some b => .fault .uncorrectableData (BitVec.ofNat 64 b) []
      | none =>
        match s.eretOdd c with
        | some a => .fault .misaligned a []
        | none => .final (s.eretIssue c r)) s

end Sys2Proof.Machine
end

