-- ==== Sys2Proof/Machine/Copy.lean ====
section
/-!
DEFINITION. Machine/Copy.lean: parameter blocks and the items of the copy engines: reads and writes by an engine, copies,
repacking, accumulation, multicast, gather and weight expansion (R343 to R363).
-/
namespace Sys2Proof.Machine

/-! ### Parameter blocks (R345 to R347) -/

/-- A field of n bytes at an offset of a block. -/
def blkField (b : BitVec 512) (off n : Nat) : Nat := b.toNat / 2 ^ (8 * off) % 2 ^ (8 * n)

/-- SRC. -/
def blkSrc (b : BitVec 512) : Nat := blkField b 0x00 8
/-- DST. -/
def blkDst (b : BitVec 512) : Nat := blkField b 0x08 8
/-- SSTR, signed. -/
def blkSstr (b : BitVec 512) : Int := sgn 32 (blkField b 0x10 4)
/-- DSTR, signed. -/
def blkDstr (b : BitVec 512) : Int := sgn 32 (blkField b 0x14 4)
/-- LEN. -/
def blkLen (b : BitVec 512) : Nat := blkField b 0x18 4
/-- ROWS. -/
def blkRows (b : BitVec 512) : Nat := blkField b 0x1C 4
/-- CTL (R346). -/
def blkCtl (b : BitVec 512) : Nat := blkField b 0x20 8
/-- TGT (R347). -/
def blkTgt (b : BitVec 512) : Nat := blkField b 0x28 8
/-- SEED. -/
def blkSeed (b : BitVec 512) : BitVec 64 := BitVec.ofNat 64 (blkField b 0x30 8)
/-- CTR. -/
def blkCtr (b : BitVec 512) : Nat := blkField b 0x38 8
/-- CTL.SSPC. -/
def blkSspc (b : BitVec 512) : Option Space := Space.ofCode (blkCtl b / 2 ^ 60)
/-- CTL.DSPC. -/
def blkDspc (b : BitVec 512) : Option Space := Space.ofCode (blkCtl b / 2 ^ 56 % 16)
/-- CTL.SHI. -/
def blkShi (b : BitVec 512) : Nat := blkCtl b / 2 ^ 48 % 256
/-- CTL.DHI. -/
def blkDhi (b : BitVec 512) : Nat := blkCtl b / 2 ^ 40 % 256
/-- CTL.RND. -/
def blkRnd (b : BitVec 512) : Nat := blkCtl b / 2 ^ 37 % 8
/-- CTL.SRK. -/
def blkSrk (b : BitVec 512) : Nat := blkCtl b / 2 ^ 32 % 32
/-- CTL.SFMT. -/
def blkSfmt (b : BitVec 512) : Nat := blkCtl b / 2 ^ 27 % 32
/-- CTL.DFMT. -/
def blkDfmt (b : BitVec 512) : Nat := blkCtl b / 2 ^ 22 % 32
/-- CTL.SAT. -/
def blkSat (b : BitVec 512) : Bool := blkCtl b / 2 ^ 21 % 2 == 1
/-- CTL.REPK. -/
def blkRepk (b : BitVec 512) : Nat := blkCtl b / 2 ^ 18 % 8
/-- CTL.SMBASE. -/
def blkSmBase (b : BitVec 512) : Nat := blkCtl b % 2 ^ 17
/-- TGT.TV. -/
def blkTv (b : BitVec 512) : Bool := blkTgt b / 2 ^ 63 == 1
/-- TGT.MC. -/
def blkMc (b : BitVec 512) : Nat := blkTgt b / 2 ^ 56 % 16

/-- The first byte of the source: SHI ++ SRC for a virtual source (R348). -/
def blkFrom (b : BitVec 512) : Nat :=
  match blkSspc b with
  | some .virt => blkShi b * 2 ^ 64 + blkSrc b
  | _ => blkSrc b

/-- The first byte of the destination (R348). -/
def blkTo (b : BitVec 512) : Nat :=
  match blkDspc b with
  | some .virt => blkDhi b * 2 ^ 64 + blkDst b
  | _ => blkDst b

/-! ### Reads and writes of an engine (R44, R326, R348, R351) -/

/-- An exact address as a number; one below zero becomes one above every space. -/
def natAddr (a : Int) : Nat := if a < 0 then (a + 2 ^ 64).toNat else a.toNat

/-- Whether a level address is well-formed (R280). -/
def levelOk (p : Nat) : Bool := decide (p < 2 ^ 34) && decide (p / 2 ^ 30 % 4 = 0)

/-- Whether an address of a level or a T2 slice is in range. -/
def beyondOk (sp : Space) (p : Nat) : Bool :=
  match sp with
  | .t2 => decide (p < 0x2000000)
  | _ => levelOk p

/-- The physical piece behind a level address: TRANSLATION where its layer is shed (R313), STALE_GENERATION for a retired
space (R287); none when it is out of range (R280). -/
def State.levelPiece (s : State) (c : CoreId) (sp : Space) (p n : Nat) : Except (Cause × Nat) (Option (List (Nat × Nat))) :=
  if levelOk p then
    if (s.paKind (paOfLevel sp p)).isNone then .error (.translation, p)
    else if s.retiredFor c then .error (.staleGeneration, p)
    else .ok (some [(paOfLevel sp p, n)])
  else .ok none

/-- The physical pieces behind a range that lies beyond the core, with its checks (R284, R287, R291, R326), translated
through an engine's cache; none for a local space, T2, or a level address out of range. -/
def State.engPieces (s : State) (c : CoreId) (sp : Space) (a : Int) (n : Nat) (perm : Perm) (eng : Nat := 1) :
    Except (Cause × Nat) (Option (List (Nat × Nat))) :=
  let p := natAddr a
  match sp with
  | .virt =>
    match s.vRange (some c) (s.asidOf c) perm p n eng with
    | .error x => .error (if a < 0 then (.translation, p) else x)
    | .ok l => if a < 0 then .error (.translation, p) else .ok (some l)
  | .t3 => s.levelPiece c .t3 p n
  | .t4 => s.levelPiece c .t4 p n
  | _ => .ok none

/-- Whether a space is subject to the footprint (R326). -/
def footSpace (sp : Space) (p : Nat) : Bool :=
  match sp with
  | .virt => true
  | .t2 => beyondOk .t2 p
  | .t3 => levelOk p
  | .t4 => levelOk p
  | _ => false

/-- The footprint check of an item's access. -/
def State.engFoot (s : State) (c : CoreId) (acc : Acc) (sp : Space) (a : Int) (n : Nat) : Option (Cause × Nat) :=
  if footSpace sp (natAddr a) then s.footCheck c acc sp (natAddr a) n else none

/-- What an item reads from n bytes that lie in one aligned 8-byte word, or in one page of a virtual source. The read of a
destination that is updated indivisibly sees every write of the cycle (R352). -/
def State.engRead (s : State) (c : CoreId) (acc : Acc) (sp : Space) (a : Int) (n : Nat) (eng : Nat := 1) :
    Except (Cause × Nat) (List Byte) :=
  let p := natAddr a
  match s.engPieces c sp a n (if acc = .store then .w else .r) eng with
  | .error x => .error x
  | .ok l =>
    match s.engFoot c acc sp a n with
    | some x => .error x
    | none =>
      match l with
      | some l =>
        match s.badPiece l with
        | some i => .error (.uncorrectableData, p + i)
        | none => .ok (s.readPieces l)
      | none =>
        match sp with
        | .t3 => .ok (List.replicate n 0)
        | .t4 => .ok (List.replicate n 0)
        | .virt => .ok (List.replicate n 0)
        | _ =>
          let agent := if acc = .store then 5 else 4
          match s.lostOf c agent sp (span p n) with
          | some b => .error (.uncorrectableData, b)
          | none => .ok (s.localBytes c agent sp p n)

/-- The lowest out-of-range address of an item's access (R44, R280). -/
def State.engOut (s : State) (c : CoreId) (sp : Space) (a : Int) (n : Nat) : Option Nat :=
  let p := natAddr a
  match sp with
  | .virt => none
  | .t3 => if levelOk p then none else some p
  | .t4 => if levelOk p then none else some p
  | _ => minOf (s.outOf c sp (span p n))

/-- Record an item's out-of-range access under stream X (R44, R348). -/
def State.engNote (s : State) (c : CoreId) (sp : Space) (write : Bool) (a : Int) (n : Nat) : State :=
  s.oorNote c .x sp write (s.engOut c sp a n)

/-- Freeze the core if an item's access meets the window of a failed lender (R420). -/
def State.engTouch (s : State) (c : CoreId) (sp : Space) (a : Int) (n : Nat) : State :=
  if dieSide sp then s else s.windowTouch c sp (span (natAddr a) n)

/-- Set FLT at the core entries that cover bytes a failed local write did not perform (R297). -/
def State.localFlt (s : State) (c : CoreId) (sp : Space) (as : List Nat) : State :=
  (s.ownersOf c sp as).foldl (fun s o =>
    (s.counters o.1 sp).foldl (fun s k =>
      s.modCtx k fun x => { x with regs := x.regs.map fun e =>
        if e.2.spc == sp && o.2.any e.2.covers then (e.1, { e.2 with flt := true }) else e }) s) s

/-- Set FLT at the entries that cover bytes an item fails to write (R297), whatever the write failed at. -/
def State.engFlt (s : State) (c : CoreId) (sp : Space) (a : Int) (n : Nat) : State :=
  let p := natAddr a
  match sp with
  | .virt => if a < 0 then s else s.fltVirt (s.asidOf c) p n
  | .t3 => if levelOk p then s.setFlt [(paOfLevel .t3 p, n)] else s
  | .t4 => if levelOk p then s.setFlt [(paOfLevel .t4 p, n)] else s
  | _ => s.localFlt c sp (span p n)

/-- What an item has done so far, and its first failing address with the cause. -/
structure ERun where
  s : State
  fail : Option (Cause × Nat)
  /-- bytes of local spaces performed and not yet counted: owner, space, address -/
  cells : List (CoreId × Space × Nat) := []
  /-- pieces of memory performed: physical address, length -/
  pas : List (Nat × Nat) := []
  /-- the engine that performs it: 1 a T4 engine, 2 the streaming engine, 3 the cluster's T2 engine, 4 a T3 engine (R354) -/
  eng : Nat := 1

/-- Counts of one entry from one source become one message, at the first of their addresses. -/
def mergeCounts (fuel : Nat) (l : List CountMsg) : List CountMsg :=
  match fuel, l with
  | fuel + 1, m :: t =>
    let same := fun (k : CountMsg) => k.entry == m.entry && k.src == m.src
    { m with n := m.n + ((t.filter same).map (·.n)).foldl (· + ·) 0 } ::
      mergeCounts fuel (t.filter fun k => !same k)
  | _, l => l

/-- Words of memory that an item has written whole, in whatever parts, lose their error mark (R315, R321). -/
def State.repairMem (s : State) (l : List (Nat × Nat)) : State :=
  if s.bad.isEmpty then s
  else
    let whole := coveredUnits .virt ((l.map fun p => span p.1 p.2).flatten)
    { s with bad := s.bad.filter fun w => !whole.contains w }

/-- The end of an item: what it has written counts as one write at each entry, under one identity, so that an entry which it
overflows reports it once (R297 to R299, R350), and the words that it has written whole are repaired (R315). When the item
began, n0 messages were waiting and w0 was the next identity. -/
def ERun.settle (r : ERun) (n0 w0 : Nat) (c : CoreId) (kind : Nat) : ERun :=
  let src := r.s.srcOf c kind
  let s1 := ((r.cells.map fun q => (q.1, q.2.1)).eraseDups).foldl (fun (s : State) (k : CoreId × Space) =>
    let as := (r.cells.filter fun q => q.1 == k.1 && q.2.1 == k.2).map (·.2.2)
    (s.repair 4 k.1 k.2 as).countLocal k.1 k.2 as src) (r.s.repairMem r.pas)
  let l := (s1.counts.drop n0).map fun m => { m with wid := min m.wid w0 }
  { r with s := { s1 with counts := s1.counts.take n0 ++ mergeCounts l.length l
                          unacked := s1.unacked.map fun u => { u with wid := min u.wid w0 } }
           cells := [], pas := [] }

/-- Note a failing address: the lowest is kept (R351). -/
def ERun.failAt (r : ERun) (x : Cause × Nat) : ERun :=
  { r with fail := match r.fail with
      | none => some x
      | some y => if x.2 < y.2 then some x else some y }

/-- Whether a write to physical pieces meets a bank that has failed without a spare (R313). -/
def State.bankDead (s : State) (l : List (Nat × Nat)) : Bool :=
  l.any fun p => (span p.1 p.2).any fun a =>
    match s.paKind a with
    | some (.t3 d o) => s.deadBanks.contains (d, 3, bankOf 3 o)
    | some (.t4 d o) => s.deadBanks.contains (d, 4, bankOf 4 o)
    | _ => false

/-- What an access of an engine leaves in its translation cache (R288). -/
def State.engCached (s : State) (c : CoreId) (sp : Space) (a : Int) (eng : Nat) : State :=
  match sp with
  | .virt => s.cached c (natAddr a) eng
  | _ => s

/-- An item writes bytes that lie in one aligned 8-byte word, or fails to (R297, R309, R313, R326, R351). -/
def ERun.write (r : ERun) (c : CoreId) (kind : Nat) (sp : Space) (a : Int) (bs : List Byte) : ERun :=
  let s := r.s.engCached c sp a r.eng
  let p := natAddr a
  let n := bs.length
  let bad := fun (x : Cause × Nat) => ({ r with s := s.engFlt c sp a n } : ERun).failAt x
  match s.engPieces c sp a n .w r.eng with
  | .error x => bad x
  | .ok l =>
    match s.engFoot c .store sp a n with
    | some x => bad x
    | none =>
      match l with
      | some l =>
        if s.sealedHit l then bad (.sealedWrite, p)
        else if s.bankDead l then bad (.uncorrectableData, p)
        else { r with s := s.performWrite (s.srcOf c kind) (if sp = .virt then some (s.asidOf c) else none) p l bs, pas := l ++ r.pas }
      | none =>
        let s1 := s.engNote c sp true a n
        match sp with
        | .t3 => { r with s := s1 }
        | .t4 => { r with s := s1 }
        | .virt => { r with s := s1 }
        | _ =>
          let cells := bs.zipIdx.map fun q => (p + q.2, q.1)
          let own := ((s1.ownersOf c sp (cells.map (·.1))).map fun o => o.2.map fun x => (o.1, sp, x)).flatten
          if own.any s1.cellDead then bad (.uncorrectableData, p)
          else { r with s := s1.localWrite c 4 sp cells, cells := own ++ r.cells }

/-! ### Copies (R356, R360, R363) -/

/-- A row of n bytes cut at the 8-byte boundaries of its destination, whose words are the units of a copy (R321); fuel bounds
the parts. -/
def segs (fuel : Nat) (src dst : Int) (n : Nat) : List (Int × Int × Nat) :=
  match fuel with
  | 0 => []
  | fuel + 1 =>
    if n = 0 then []
    else
      let l := min n (8 - (dst % 8).toNat)
      (src, dst, l) :: segs fuel (src + l) (dst + l) (n - l)

/-- The rows of a copy, with the row of the source that each destination row takes. -/
def rowsOf (b : BitVec 512) (index : Nat → Nat) : List (Int × Int × Nat) :=
  ((List.range (blkRows b)).map fun (r : Nat) =>
    segs (blkLen b) ((blkFrom b : Int) + (index r : Int) * blkSstr b) ((blkTo b : Int) + (r : Int) * blkDstr b)
      (blkLen b)).flatten

/-- At most 8 bytes of a source cut at an 8-byte boundary: so no part crosses a page, a die or the end of a level. -/
def wordParts (a : Int) (n : Nat) : List (Int × Nat) :=
  let l := min n (8 - (a % 8).toNat)
  if l = n then [(a, n)] else [(a, l), (a + l, n - l)]

/-- The bytes of those parts, or the first failure. -/
def State.readParts (s : State) (c : CoreId) (eng : Nat) (sp : Space) (l : List (Int × Nat)) : Except (Cause × Nat) (List Byte) :=
  match l with
  | [] => .ok []
  | p :: t =>
    match s.engRead c .copy sp p.1 p.2 eng with
    | .error x => .error x
    | .ok bs =>
      match s.readParts c eng sp t with
      | .error x => .error x
      | .ok r => .ok (bs ++ r)

/-- The source of one unit of an item: as it stood when the item began or as it stands now, where the two differ (R321,
R353). -/
def ERun.read (r : ERun) (c : CoreId) (s0 : State) (sp : Space) (a : Int) (n : Nat) : ERun × Except (Cause × Nat) (List Byte) :=
  let ps := wordParts a n
  let early := s0.readParts c r.eng sp ps
  let late := r.s.readParts c r.eng sp ps
  let r : ERun := { r with s := ps.foldl (fun s p => s.engCached c sp p.1 r.eng) r.s }
  let s1 := ps.foldl (fun s p => (s.engTouch c sp p.1 p.2).engNote c sp false p.1 p.2) r.s
  match early, late with
  | .ok x, .ok y =>
    if x = y then ({ r with s := s1 }, .ok x)
    else ({ r with s := { s1 with freeCtr := s1.freeCtr + 1 } }, .ok (if Config.overlapLate s1.freeCtr then y else x))
  | _, .error x => (r, .error x)
  | .error x, _ => (r, .error x)

/-- Move one unit of a copy: a unit whose source reads is written whole (R321); of one that does not, the parts that read
are written, and the others fail (R351). flt sets FLT for bytes that are not performed. -/
def ERun.moveUnit (c : CoreId) (s0 : State) (ssp : Space) (flt : State → Int → Nat → State)
    (put : ERun → Int → List Byte → ERun) (r : ERun) (g : Int × Int × Nat) : ERun :=
  match r.read c s0 ssp g.1 g.2.2 with
  | (r1, .ok bs) => put r1 g.2.1 bs
  | (_, .error _) =>
    (wordParts g.1 g.2.2).foldl (fun (r : ERun) (p : Int × Nat) =>
      let dst := g.2.1 + (p.1 - g.1)
      match r.read c s0 ssp p.1 p.2 with
      | (r1, .ok bs) => put r1 dst bs
      | (r1, .error x) => ({ r1 with s := flt r1.s dst p.2 } : ERun).failAt x) r

/-- Copy one unit (R356). -/
def ERun.copySeg (c : CoreId) (kind : Nat) (s0 : State) (ssp dsp : Space) (r : ERun) (g : Int × Int × Nat) : ERun :=
  r.moveUnit c s0 ssp (fun s a n => s.engFlt c dsp a n) (fun r a bs => r.write c kind dsp a bs) g

/-- FMT and GEO of the virtual page behind an address, when GEO is not plain (R285). -/
def State.pageFormat (s : State) (c : CoreId) (eng : Nat) (a : Int) : Option (Fmt × Nat) :=
  match s.translateFor (some c) (s.asidOf c) (natAddr a) eng with
  | .ok t => if pteGeo t.pte = 0 then none else (pteFmt t.pte).map fun f => (f, pteGeo t.pte)
  | .error _ => none

/-- The XB pages that a copy fills from formatted pages of one format, with the format (R358). -/
def State.taggedPages (s : State) (c : CoreId) (eng : Nat) (gs : List (Int × Int × Nat)) : List (Nat × Fmt × Nat) :=
  let pages := ((gs.map fun g => natAddr g.2.1 / 4096).eraseDups).filter fun p => decide (p < 256)
  pages.filterMap fun p =>
    let mine := gs.filter fun g => natAddr g.2.1 / 4096 == p
    let bytes := ((mine.map fun g => span (natAddr g.2.1) g.2.2).flatten).eraseDups
    let fs := ((mine.map fun g => [s.pageFormat c eng g.1, s.pageFormat c eng (g.1 + g.2.2 - 1)]).flatten).eraseDups
    match fs with
    | [some f] => if bytes.length = 4096 ∧ 4096 * (p + 1) ≤ (s.core c).inRange .xb then some (p, f.1, f.2) else none
    | _ => none

/-- Set the tags of the pages that a copy filled (R358). -/
def State.setTags (s : State) (c : CoreId) (smBase : Nat) (l : List (Nat × Fmt × Nat)) : State :=
  s.modCtx c fun x =>
    { x with tagOps := x.tagOps ++ l.map fun p => (4, p.1, some { fmt := p.2.1, geo := p.2.2, smBase := smBase }) }

/-- XCOPY without repacking (R356, R358). -/
def State.itemCopy (s : State) (c : CoreId) (kind : Nat) (b : BitVec 512) (ssp dsp : Space) (eng : Nat := 1) : ERun :=
  let gs := rowsOf b id
  let r := gs.foldl (ERun.copySeg c kind s ssp dsp) { s := s, fail := none, eng := eng }
  if ssp = .virt ∧ dsp = .xb ∧ r.fail = none then
    { r with s := r.s.setTags c (blkSmBase b) (s.taggedPages c eng gs) }
  else r

/-- Index j of a gather's list (R363). -/
def State.gathIndex (s : State) (c : CoreId) (ix j : Nat) : Nat := leNat (s.localBytes c 4 .xb (ix + 4 * j) 4)

/-- XGATH (R363): an index that cannot be read fails its row. -/
def State.itemGath (s : State) (c : CoreId) (b : BitVec 512) (ix : Nat) (ssp dsp : Space) (eng : Nat := 1) : ERun :=
  (List.range (blkRows b)).foldl (fun (r : ERun) (j : Nat) =>
    let dst : Int := (blkTo b : Int) + (j : Int) * blkDstr b
    let at' := ix + 4 * j
    let row := fun (x : Nat) => segs (blkLen b) ((blkFrom b : Int) + (x : Int) * blkSstr b) dst (blkLen b)
    match r.s.lostOf c 4 .xb (span at' 4) with
    | some q => ({ r with s := (row 0).foldl (fun s g => s.engFlt c dsp g.2.1 g.2.2) r.s } : ERun).failAt
        (.uncorrectableData, q)
    | none =>
      let r1 : ERun := { r with s := (r.s.windowTouch c .xb (span at' 4)).oorNote c .x .xb false
                                  (minOf (r.s.outOf c .xb (span at' 4))) }
      (row (r1.s.gathIndex c ix j)).foldl (ERun.copySeg c 1 s ssp dsp) r1) { s := s, fail := none, eng := eng }

/-! ### Repacking (R357) -/

/-- Element width of a repack mode. -/
def repkWidth (m : Nat) : Nat := if m = 1 then 4 else if m = 2 then 6 else 8

/-- XCOPY with a repack mode: the source lines are read, then the transposed lines are written. -/
def State.itemRepack (s : State) (c : CoreId) (kind : Nat) (b : BitVec 512) (ssp dsp : Space) (eng : Nat := 1) : ERun :=
  let w := repkWidth (blkRepk b)
  let n := blkLen b
  let r0 : ERun := { s := s, fail := none, eng := eng }
  let (r1, lines) := (List.range (blkRows b)).foldl (fun (p : ERun × List (List (Option Byte))) (i : Nat) =>
    let (r, bs) := (segs n 0 ((blkFrom b : Int) + (i : Int) * blkSstr b) n).foldl
      (fun (q : ERun × List (Option Byte)) (g : Int × Int × Nat) =>
        match q.1.read c s ssp g.2.1 g.2.2 with
        | (r, .ok bs) => (r, q.2 ++ bs.map some)
        | (r, .error x) => (r.failAt x, q.2 ++ List.replicate g.2.2 none)) (p.1, [])
    (r, p.2 ++ [bs])) (r0, [])
  let code := fun (line : List (Option Byte)) (j : Nat) =>
    let bytes := (List.range (((j + 1) * w + 7) / 8 - j * w / 8)).map fun k => line.getD (j * w / 8 + k) (some 0)
    if bytes.any (·.isNone) then none
    else some (leNat (bytes.map fun o => o.getD 0) / 2 ^ (j * w % 8) % 2 ^ w)
  let out := (blkRows b * w + 7) / 8
  (List.range (8 * n / w)).foldl (fun (r : ERun) (j : Nat) =>
    let codes := lines.map fun l => code l j
    let bs := leBytes out (packCodes w (codes.map fun o => o.getD 0))
    let dst : Int := (blkTo b : Int) + (j : Int) * blkDstr b
    (segs out 0 dst out).foldl (fun (r : ERun) (g : Int × Int × Nat) =>
      let o := g.1.toNat
      let ks := (List.range codes.length).filter fun i => decide (8 * o < (i + 1) * w) && decide (i * w < 8 * (o + g.2.2))
      if ks.any fun i => (codes.getD i none).isNone then { r with s := r.s.engFlt c dsp g.2.1 g.2.2 }
      else r.write c kind dsp g.2.1 ((bs.drop o).take g.2.2)) r) r1

/-! ### Accumulation (R359) -/

/-- The rounding of an XACC element. -/
def accCtl (b : BitVec 512) (ctr i : Nat) : RCtl :=
  { mode := Rnd.ofCode (blkRnd b), sat := blkSat b, ftz := false
    rand := { k := blkSrk b, r := srRand (blkSeed b) (BitVec.ofNat 64 ctr) i (blkSrk b) } }

/-- The new code of an XACC element. -/
def accNew (b : BitVec 512) (ctr i : Nat) (fs fd : Fmt) (src old : Nat) : Nat :=
  let ctl := accCtl b ctr i
  (roundNum fd ctl ((Num.ofCode fs src).add (ctl.mode == .rdn) (Num.ofCode fd old)).1).1

/-- XACC (R359): each element is read, added and written indivisibly. -/
def State.itemAcc (s : State) (c : CoreId) (kind : Nat) (b : BitVec 512) (ssp dsp : Space) (fs fd : Fmt) (eng : Nat := 1) : ERun :=
  let ws := fs.width / 8
  let wd := fd.width / 8
  (List.range (blkRows b)).foldl (fun (r : ERun) (i : Nat) =>
    (List.range (blkLen b)).foldl (fun (r : ERun) (k : Nat) =>
      let sa : Int := (blkFrom b : Int) + (i : Int) * blkSstr b + (k : Int) * (ws : Int)
      let da : Int := (blkTo b : Int) + (i : Int) * blkDstr b + (k : Int) * (wd : Int)
      match r.read c s ssp sa ws with
      | (r1, .error x) => ({ r1 with s := r1.s.engFlt c dsp da wd } : ERun).failAt x
      | (r1, .ok bs) =>
        match r1.s.engRead c .store dsp da wd r1.eng with
        | .error x => ({ r1 with s := r1.s.engFlt c dsp da wd } : ERun).failAt x
        | .ok old =>
          r1.write c kind dsp da (leBytes wd (accNew b (blkCtr b) (i * blkLen b + k) fs fd (leNat bs) (leNat old)))) r)
    { s := s, fail := none, eng := eng }

/-! ### Multicast (R360) -/

/-- Cluster position of a core (R360). -/
def clusterPos (c : CoreId) : Nat := c.toNat % 2 + 2 * (c.toNat / 16 % 2)

/-- The core at a position of a core's cluster. -/
def clusterCore (c : CoreId) (pos : Nat) : CoreId :=
  BitVec.ofNat 9 (c.toNat / 128 * 128 + (c.toNat / 16 % 8 / 2 * 2 + pos / 2) * 16 + (c.toNat % 16 / 2 * 2 + pos % 2))

/-- Whether a target core takes a multicast byte: it runs a task of the same launch with an armed entry over the byte. -/
def State.mcastOk (s : State) (c t : CoreId) (sp : Space) (a : Nat) : Bool :=
  (match (s.core c).run, (s.core t).run with
    | some x, some y => x.lid == y.lid
    | _, _ => false) &&
  (match (s.ctx t).coreEntry sp a with
    | some (_, e) => decide (e.target ≠ 0)
    | none => false)

/-- The in-range length of a multicast's target space: the target's own allotment decides it (R360); a core that runs no task
has none, and its whole space counts, so that the item fails there with UNDECLARED_ACCESS (log entry 127). -/
def Core.mcastRange (k : Core) (sp : Space) : Nat := if k.run.isSome then k.inRange sp else Space.size sp

/-- Write bytes of a multicast into its target (R44, R360). -/
def ERun.mcastWrite (r : ERun) (c t : CoreId) (sp : Space) (a : Int) (bs : List Byte) : ERun :=
  let s := r.s
  let p := natAddr a
  let cells := bs.zipIdx.map fun q => (p + q.2, q.1)
  let lim := (s.core t).mcastRange sp
  let s1 := s.oorNote c .x sp true (minOf ((cells.map (·.1)).filter fun x => decide (lim ≤ x)))
  let here := cells.filter fun q => decide (q.1 < lim)
  let good := here.filter fun q => s.mcastOk c t sp q.1
  let bad := (here.map (·.1)).filter fun x => !s.mcastOk c t sp x
  let r2 : ERun := { r with s := s1.localWrite t 4 sp good, cells := (good.map fun q => (t, sp, q.1)) ++ r.cells }
  match minOf bad with
  | none => r2
  | some x => ({ r2 with s := r2.s.localFlt t sp bad } : ERun).failAt (.undeclaredAccess, x)

/-- One item of an XMCAST: the copy into the target at a cluster position (R360). -/
def State.itemMcast (s : State) (c : CoreId) (b : BitVec 512) (ssp dsp : Space) (pos : Nat) : ERun :=
  let t := clusterCore c pos
  (rowsOf b id).foldl (fun (r : ERun) (g : Int × Int × Nat) =>
    r.moveUnit c s ssp (fun s a n => s.localFlt t dsp (span (natAddr a) n)) (fun r a bs => r.mcastWrite c t dsp a bs) g)
    { s := s, fail := none, eng := 3 }

/-! ### Weight expansion (R361, R362) -/

/-- Blocks and elements of a block of a 64 KiB unit (R361). -/
def unitBlocks (f : Fmt) (geo : Nat) : Nat × Nat :=
  if geo = 0 then (1, 524288 / f.width)
  else (65536 * 8 / (geoLen geo * f.width + 8 * geoScale geo), geoLen geo)

/-- Offsets of the bytes of element j of a unit, the bit within them, and the offsets of its scale. -/
def unitPlace (f : Fmt) (geo j : Nat) : List Nat × Nat × List Nat :=
  let (nb, l) := unitBlocks f geo
  let b := j / l
  let bit := b * (l * f.width / 8) * 8 + j % l * f.width
  let lo := bit / 8
  let hi := (bit + f.width - 1) / 8
  (span lo (hi - lo + 1), bit % 8,
   if geo = 0 then [] else span (nb * (l * f.width / 8) + b * geoScale geo) (geoScale geo))

/-- The code that XSTRM writes for element j of a unit at a physical address. -/
def State.unitCode (s : State) (pa : Nat) (f : Fmt) (geo : Nat) (fd : Fmt) (j : Nat) : Nat :=
  let (es, bit, ss) := unitPlace f geo j
  let code := leNat (es.map fun o => s.memByte (pa + o)) / 2 ^ bit % 2 ^ f.width
  let scale := leNat (ss.map fun o => s.memByte (pa + o))
  (roundNum fd RCtl.rne (scaledElem f geo scale code)).1

/-- Whether a destination of XSTRM lies in T4 (R362): none where that cannot be told because it does not translate. -/
def State.inT4 (s : State) (c : CoreId) (sp : Space) (a : Int) : Option Bool :=
  match sp with
  | .t4 => some true
  | .virt =>
    match s.translateFor (some c) (s.asidOf c) (natAddr a) 2 with
    | .ok t => match s.paKind t.pa with
      | some (.t4 _ _) => some true
      | some _ => some false
      | none => none
    | .error _ => none
  | _ => some false

/-- Write one expanded element. -/
def ERun.strmWrite (r : ERun) (c : CoreId) (kind : Nat) (sp : Space) (a : Int) (bs : List Byte) : ERun :=
  match r.s.inT4 c sp a with
  | some false => ({ r with s := r.s.engFlt c sp a bs.length } : ERun).failAt (.protection, natAddr a)
  | _ => r.write c kind sp a bs

/-- Expand one unit of XSTRM (R361, R362). The unit is read as a whole. R361 gives no meaning to a reserved FMT code of a plain page,
whose FMT the other rules ignore (R285): the item fails with PROTECTION at the unit's first byte (log entry 153). -/
def ERun.strmUnit (c : CoreId) (kind : Nat) (b : BitVec 512) (dsp : Space) (fd : Fmt) (r : ERun) (i : Nat) : ERun :=
  let sa : Int := (blkFrom b : Int) + (i : Int) * blkSstr b
  let da : Int := (blkTo b : Int) + (i : Int) * blkDstr b
  let s := r.s.engCached c .virt sa 2
  let r : ERun := { r with s := s }
  match s.engPieces c .virt sa 65536 .r 2 with
  | .error x => r.failAt x
  | .ok none => r
  | .ok (some l) =>
    match s.engFoot c .copy .virt sa 65536 with
    | some x => r.failAt x
    | none =>
      match l, s.translateFor (some c) (s.asidOf c) (natAddr sa) 2 with
      | (pa, _) :: _, .ok t =>
        match s.paKind pa, (if pteGeo t.pte = 0 then fmtOf (t.pte / 2 ^ 58 % 32) else pteFmt t.pte) with
        | some .lp, some f =>
          let geo := pteGeo t.pte
          let wo := fd.width / 8
          let (nb, n) := unitBlocks f geo
          (List.range (nb * n)).foldl (fun (r : ERun) (j : Nat) =>
            let a : Int := da + (j : Int) * (wo : Int)
            let (es, _, ss) := unitPlace f geo j
            match minOf ((es ++ ss).filter fun o => r.s.paBad (pa + o)) with
            | some o => ({ r with s := r.s.engFlt c dsp a wo } : ERun).failAt (.uncorrectableData, natAddr sa + o)
            | none => r.strmWrite c kind dsp a (leBytes wo (s.unitCode pa f geo fd j))) r
        | _, _ => r.failAt (.protection, natAddr sa)
      | _, _ => r

/-- XSTRM (R361, R362). -/
def State.itemStrm (s : State) (c : CoreId) (kind : Nat) (b : BitVec 512) (dsp : Space) (fd : Fmt) : ERun :=
  (List.range (blkRows b)).foldl (ERun.strmUnit c kind b dsp fd) { s := s, fail := none, eng := 2 }

/-! ### Items (R341) -/

/-- The positions that a multicast names. -/
def mcPositions (b : BitVec 512) : List Nat := (List.range 4).filter fun i => blkMc b / 2 ^ i % 2 == 1

/-- The level that an access touches: 2, 3 or 4, 0 for level 0 and T1. -/
def State.levelOf (s : State) (c : CoreId) (sp : Space) (a : Nat) : Nat :=
  match sp with
  | .t2 => 2
  | .t3 => 3
  | .t4 => 4
  | .virt =>
    (match s.translate (s.asidOf c) a with
      | .ok t => (match s.paKind t.pa with
        | some (.t3 _ _) => 3
        | _ => 4)
      | .error _ => 4)
  | _ => 0

/-- The engine that performs an item (R354), by where its first bytes lie: the cluster's T2 engine, else a T3 engine, else a T4
engine (log entry 57). -/
def State.itemEngine (s : State) (c : CoreId) (b : BitVec 512) (ssp dsp : Space) : Nat :=
  let a := s.levelOf c ssp (blkFrom b)
  let d := s.levelOf c dsp (blkTo b)
  if a = 2 ∨ d = 2 then 3 else if a = 3 ∨ d = 3 then 4 else 1

/-- The accesses of an item of a command (R341): the target index of a multicast; kind is the record KIND (R403). -/
def State.itemRun (s : State) (c : CoreId) (k : CmdKind) (kind : Nat) (b : BitVec 512) (ix tgt : Nat) : ERun :=
  match blkSspc b, blkDspc b with
  | some ssp, some dsp =>
    let eng := s.itemEngine c b ssp dsp
    match k with
    | .copy => if blkRepk b = 0 then s.itemCopy c kind b ssp dsp eng else s.itemRepack c kind b ssp dsp eng
    | .acc =>
      match fmtOf (blkSfmt b), fmtOf (blkDfmt b) with
      | some fs, some fd => s.itemAcc c kind b ssp dsp fs fd eng
      | _, _ => { s := s, fail := none }
    | .mcast => s.itemMcast c b ssp dsp ((mcPositions b).getD tgt 0)
    | .strm =>
      match fmtOf (blkDfmt b) with
      | some fd => s.itemStrm c kind b dsp fd
      | none => { s := s, fail := none }
    | .gath => s.itemGath c b ix ssp dsp eng
    | .fence => { s := s, fail := none }
  | _, _ => { s := s, fail := none }

/-- Perform an item of a command (R341, R350). -/
def State.item (s : State) (c : CoreId) (k : CmdKind) (kind : Nat) (b : BitVec 512) (ix tgt : Nat) : ERun :=
  (s.itemRun c k kind b ix tgt).settle s.counts.length s.wid c kind

end Sys2Proof.Machine
end

