-- ==== Sys2Proof/Machine/Fetch.lean ====
section
/-!
DEFINITION. Machine/Fetch.lean: instruction fetch, dictionary codes, annulment, and the faults of fetch and encoding (R65
to R69, R86 to R88, R116, R351).
-/
namespace Sys2Proof.Machine

/-- A fault in the slot in which an instruction comes up: older results land first (R88, R393). -/
def State.slotFault (s : State) (c : CoreId) (e : Strm) (k : Cause) (addr : Word) (defer : Bool) : State :=
  match s.beginSlot c e with
  | (s1, some f) => s1.readFault c f
  | (s1, none) => s1.takeFault c e k addr defer

/-- Fetch one parcel: it must translate, be executable and lie in a sealed region (R67). -/
def State.fetchParcel (s : State) (c : CoreId) (pc : VAddr) : Except (Cause × Word) Nat :=
  match s.vRange (some c) (s.asidOf c) .x pc.toNat 2 with
  | .error (k, _) => .error (k, pc.setWidth 64)
  | .ok l =>
    let ok := match s.dieEntry (s.asidOf c) .virt pc.toNat with
      | some (_, r) => r.sealed
      | none => false
    if !ok then .error (.protection, pc.setWidth 64)
    else match s.badPiece l with
      | some i => .error (.uncorrectableData, pc.setWidth 64 + BitVec.ofNat 64 i)
      | none => .ok (leNat (s.readPieces l))

/-- Whether the major of a parcel is illegal or reserved in a stream's map, so that the second parcel is not fetched
(R87). -/
def badMajor (e : Strm) (p : Nat) : Bool :=
  match decodeWord e p with
  | .error .illegalMajor => true
  | .error .reservedMajor => true
  | _ => false

/-- The word at a stream's PC, as it is held for issue (R65, R87). -/
def State.fetch (s : State) (c : CoreId) (e : Strm) : Except (Cause × Word) Held :=
  let pc := ((s.ctx c).str e).pc
  match s.fetchParcel c pc with
  | .error x => .error x
  | .ok p =>
    if p % 64 = 62 then .ok (.code (BitVec.ofNat 10 (p / 64)))
    else if badMajor e p then .ok (.word (BitVec.ofNat 32 p))
    else
      match s.fetchParcel c (pcAt pc (pc.setWidth 64 + 2)) with
      | .error x => .error x
      | .ok h => .ok (.word (BitVec.ofNat 32 (p + h * 2 ^ 16)))

/-- The word that a held word or code stands for (R69). -/
def Ctx.heldWord (x : Ctx) (h : Held) : BitVec 32 :=
  match h with
  | .word w => w
  | .code i => x.dict.getD i.toNat 0

/-- TRAPADDR of an encoding fault (R87). -/
def encodingAddr (h : Held) (w : BitVec 32) : Word :=
  match h with
  | .word _ => w.setWidth 64
  | .code i => BitVec.ofNat 64 (2 ^ 42 + i.toNat * 2 ^ 32 + w.toNat)

/-- Hold a word for issue. -/
def State.hold (s : State) (c : CoreId) (e : Strm) (h : Held) : State := s.modStr c e fun t => { t with held := some h }

/-- Take the encoding fault of the word that a stream holds or finds at its PC, if it has one (R86 to R88). -/
def State.faultEncoding (s : State) (c : CoreId) (e : Strm) : State :=
  let h := match ((s.ctx c).str e).held with
    | some h => some h
    | none =>
      match s.fetch c e with
      | .ok h => some h
      | .error _ => none
  match h with
  | none => s
  | some h =>
    let w := (s.ctx c).heldWord h
    match decodeWord e w.toNat with
    | .ok _ => s
    | .error x => (s.hold c e h).slotFault c e x.cause (encodingAddr h w) false

/-- Take the fetch fault of the instruction at a stream's PC, if it has one (R67). -/
def State.faultFetch (s : State) (c : CoreId) (e : Strm) : State :=
  match ((s.ctx c).str e).held with
  | some _ => s
  | none =>
    match s.fetch c e with
    | .ok _ => s
    | .error (k, a) => s.slotFault c e k a false

/-- Whether a save lets a stream act: STOP waits for ERET (R411), and a CKPT whose save has finished issues (R417). -/
def Core.saveLets (k : Core) (e : Strm) : Bool :=
  match k.save with
  | none => true
  | some v => k.ctx.te || (e == .c && v.done.isSome)

/-- Whether a core is free to run: it has a task and is not frozen, stopped or being restored. -/
def Core.free (k : Core) : Bool := k.run.isSome && k.frz.isNone && k.stop.isNone && k.restore.isNone

/-- A stop of the core that waits for a C instruction whose request has been sent (R393). -/
def Core.settling (k : Core) : Bool :=
  k.run.isSome && k.restore.isNone &&
  (match k.ctx.strC.sent with
    | some q => q.req.mustComplete
    | none => false) &&
  (match k.frz, k.save with
    | some f, _ => !f.settled
    | none, some v => !v.settled && v.done.isNone
    | none, none => k.stop == some .kill)

/-- Whether a stream of a core may act: its task runs, the core is not frozen, stopped or being saved, and no handler
has set the stream aside; a C instruction whose request has been sent completes first (R393, R398, R411). -/
def State.runs (s : State) (c : CoreId) (e : Strm) : Bool :=
  let k := s.core c
  ((k.free && k.saveLets e) || (e == .c && k.settling)) && ((k.ctx.str e).live == .live) && (!k.ctx.te || e == .c)

/-- Whether the next instruction of a stream comes up for issue: no earlier one occupies its slot, and it is not annulled
(R47, R116). -/
def Stream.comesUp (t : Stream) : Bool := t.skip == 0 && t.occ == 0

/-- ENCODING_FAULT (R88): takes effect when the stream's next word comes up and has such a fault. -/
def execEncodingFault (core : CoreId) (e : Strm) (s : State) : Host.Outcome State Fault Refusal :=
  .next (if s.runs core e && ((s.ctx core).str e).comesUp then s.faultEncoding core e else s)

/-- INSTRUCTION_FETCH_FAULT (R67): takes effect when a parcel of the stream's next instruction has such a fault, an annulled one
included (R116). -/
def execInstructionFetchFault (core : CoreId) (e : Strm) (s : State) : Host.Outcome State Fault Refusal :=
  .next (if s.runs core e && ((s.ctx core).str e).occ == 0 then s.faultFetch core e else s)

/-- A dictionary code (R69): the stream now holds the entry in place of a word, and its turn goes on with it. -/
def execDictionaryCode (e : Strm) (i : BitVec 10) (s : State) : Host.Outcome State Fault Refusal :=
  .next { s.hold s.cur e (.code i) with sched := .strm s.cur e :: s.sched }

/-- One annulled instruction (R116): its parcels are fetched, it takes one slot and has no effect. The second parcel of a
word with an illegal or reserved major is never fetched (R87). -/
def State.annul (s : State) (c : CoreId) (e : Strm) : State :=
  let t := (s.ctx c).str e
  let step := fun (n : Word) =>
    match s.beginSlot c e with
    | (s1, some f) => s1.readFault c f
    | (s1, none) => (s1.modStr c e fun t =>
        { t with pc := pcAt t.pc (t.pc.setWidth 64 + n), skip := t.skip - 1, held := none }).endSlot c e
  match s.fetchParcel c t.pc with
  | .error (k, a) => s.slotFault c e k a false
  | .ok p =>
    if p % 64 = 62 then step 2
    else if badMajor e p then step 4
    else match s.fetchParcel c (pcAt t.pc (t.pc.setWidth 64 + 2)) with
      | .error (k, a) => s.slotFault c e k a false
      | .ok _ => step 4

/-- Deliver a deferred fault at the instruction that comes up, unless a handler runs (R351, R395). A matrix read that fails in that
slot is reported first, and the deferred fault keeps waiting. -/
def State.deliver (s : State) (c : CoreId) (e : Strm) : State :=
  match ((s.ctx c).str e).dfault with
  | none => s
  | some (k, a) =>
    if (s.ctx c).te then s
    else match s.beginSlot c e with
      | (s1, some f) => s1.readFault c f
      | (s1, none) => (s1.modStr c e fun t => { t with dfault := none }).takeFault c e k a true

/-- DEFERRED_FAULT_DELIVERY (R351): takes effect when the stream has a deferred fault and its next instruction is not
annulled. -/
def execDeferredFaultDelivery (core : CoreId) (e : Strm) (s : State) : Host.Outcome State Fault Refusal :=
  .next (if s.runs core e && (s.core core).free && (s.core core).saveLets e && ((s.ctx core).str e).comesUp then s.deliver core e
    else s)

/-- Whether the counted wait of a stream still lasts: the ring conditions of its word, then those of TOKEN, TWAIT, JOIN
and PHASE (R28, R30, R32, R132, R133, R258). -/
def State.stillWaits (s : State) (c : CoreId) (e : Strm) (key : Nat) : Bool :=
  let x := s.ctx c
  match (x.str e).held with
  | none => false
  | some h =>
    match x.ringBlock e (x.heldRing e) with
    | some _ => decide (key < 8)
    | none =>
      match decodeWord e (x.heldWord h).toNat with
      | .ok (.token r dir n) => decide (key < 8) && decide (15 < x.taken (outQueue .c (!dir)) + n.toNat + (ringSignals r dir).toNat)
      | .ok (.twait r dir n) => decide (key < 8) && decide (x.ready (inQueue .c (!dir)) < n.toNat + (ringWaits r dir).toNat)
      | .ok (.phase _ _) => key == 9 && (x.str e).phaseGo.isNone
      | .ok _ =>
        match (x.str e).join with
        | some k =>
          let others := x.liveStrms.filter (· != e)
          key == 8 && !(others.all (x.atJoin k) && (!x.te || others.isEmpty) && s.allMove c others)
        | none => false
      | .error _ => false

/-- A wait in a cycle in which the envelope governor holds the stream: the cycle counts, since the wait is continuous
(R30, R251). -/
def State.heldWait (s : State) (c : CoreId) (e : Strm) : State :=
  match ((s.ctx c).str e).wait with
  | none => s
  | some (k, _) => if decide (k < otherWait) && s.stillWaits c e k then s.waitCycle c e k else s

/-- Whether the turn of a stream has come, in which a wait with a count of at least WDOG.LIMIT would be one cycle longer (R30). -/
def State.waitsOver (s : State) (c : CoreId) (e : Strm) (n : Nat) : Bool :=
  s.sched.head? == some (.strm c e) && s.runs c e && decide ((s.ctx c).limit ≤ n)

/-- The turn in which a counted wait times out: it is the stream's turn (R30). -/
def State.timesOut (s : State) (c : CoreId) (e : Strm) (k : Nat) : State :=
  ({ s with sched := s.sched.drop 1, cur := c } : State).takeFault c e (timeoutCause k) (s.timeoutAddr c k) false

/-- RING_TIMEOUT (R30): takes effect in the stream's turn of the cycle after a counted ring, TWAIT, reservation or JOIN wait has
lasted WDOG.LIMIT cycles. -/
def execRingTimeout (core : CoreId) (e : Strm) (s : State) : Host.Outcome State Fault Refusal :=
  .next (
    match ((s.ctx core).str e).wait with
    | some (k, n) => if s.waitsOver core e n && decide (k ≤ 8) && s.stillWaits core e k then s.timesOut core e k else s
    | none => s)

/-- PHASE_WATCHDOG (R258): takes effect in the C stream's turn of the cycle after a PHASE wait has lasted WDOG.LIMIT cycles. -/
def execPhaseWatchdog (core : CoreId) (s : State) : Host.Outcome State Fault Refusal :=
  .next (
    match (s.ctx core).strC.wait with
    | some (k, n) => if s.waitsOver core .c n && k == 9 && s.stillWaits core .c 9 then s.timesOut core .c 9 else s
    | none => s)

/-- Whether a stream's turn has come and it issues nothing in it: its last instruction still occupies slots, or it has
exited (R33, R47); the envelope governor does not hold it (R48, R251). -/
def State.idleTurn (s : State) (c : CoreId) (e : Strm) : Bool :=
  let k := s.core c
  let t := k.ctx.str e
  s.sched.head? == some (.strm c e) && !k.govHolds e s.cycle && k.free && k.saveLets e &&
    (t.live == .exited || (t.live == .live && t.occ != 0)) && (!k.ctx.te || e == .c)

/-- Such a turn: one slot, in which due results land. A slot with a matrix read that fails runs again after the handler, and its
occupancy with it (R205, R393). -/
def State.landingTurn (s : State) (c : CoreId) (e : Strm) : State :=
  match ({ s with sched := s.sched.drop 1, cur := c } : State).beginSlot c e with
  | (s1, some f) => s1.readFault c f
  | (s1, none) => (s1.modStr c e fun t => { t with occ := t.occ - 1 }).endSlot c e

/-- RESULT_LANDING (R45): a stream whose turn has come and that issues nothing takes a slot, in which its due results
land. -/
def execResultLanding (core : CoreId) (e : Strm) (s : State) : Host.Outcome State Fault Refusal :=
  .next (if s.idleTurn core e then s.landingTurn core e else s)

/-- Whether a landing-queue entry reads its accumulator in the coming slot (R205). -/
def Landing.readsAcc (l : Landing) : Bool :=
  match l.dest with
  | .mma j => !j.zero && j.age == j.readAt
  | _ => false

/-- ACCUMULATOR_READ (R205): the M stream takes a slot without issue in which an entry reads its accumulator. -/
def execAccumulatorRead (core : CoreId) (s : State) : Host.Outcome State Fault Refusal :=
  .next (if s.idleTurn core .m && (s.ctx core).strM.queue.any Landing.readsAcc then s.landingTurn core .m else s)

end Sys2Proof.Machine
end

