-- ==== Sys2Proof/Machine/Vec.lean ====
section
/-!
DEFINITION. Machine/Vec.lean: the operands, faults, results and latencies of the V stream (R36, R51, R52, R166 to R175).
-/
namespace Sys2Proof.Machine

/-! ### Elements -/

/-- Element j of w bits (R169). -/
def elem (v : Vec) (w j : Nat) : Nat := (v.extractLsb' (w * j) w).toNat

/-- A register of elements of w bits, the first lowest (R169). -/
def vecOf (w : Nat) (cs : List Nat) : Vec := BitVec.ofNat 1024 (packCodes w cs)

/-- The bits of the chosen ones of n elements of w bits. -/
def elemBits (w n : Nat) (f : Nat → Bool) : Vec :=
  vecOf w ((List.range n).map fun j => if f j then 2 ^ w - 1 else 0)

/-- The active mask (R168). -/
def Ctx.actMask (x : Ctx) : BitVec 128 := x.kr x.actm

/-- Whether element j of w bits is active: the mask bit of its lowest byte (R36). -/
def Ctx.active (x : Ctx) (w j : Nat) : Bool := x.actMask.getLsbD (w * j / 8)

/-- How arithmetic rounds: ARM, RoundTo, FTZ (R170). -/
def Ctx.armCtl (x : Ctx) : RCtl := { RCtl.rne with mode := Rnd.ofCode x.arm.toNat, ftz := x.ftz }

/-- How conversions round: CRM, SAT, FTZ, with the random bits given (R170). -/
def Ctx.crmCtl (x : Ctx) (r : Nat) : RCtl :=
  { mode := Rnd.ofCode x.crm.toNat, sat := x.sat, ftz := x.ftz, rand := { k := x.srk.toNat, r := r } }

/-- A source element read as a number (R170). -/
def Ctx.num (x : Ctx) (f : Fmt) (c : Nat) : Num := Num.ofCode f (dazCode x.daz f c)

/-- Union of the events of some elements (R172). -/
def evUnion (l : List (Nat × Ev)) : Ev := l.foldl (fun a p => a ||| p.2) 0

/-! ### Operands (R51, R173) -/

/-- A view whose base lies in a lent OF window (R175). -/
def Ctx.viewLent (x : Ctx) (r : VReg) : Bool := inWindow .ofs (x.view r)

/-- A view whose base lies in a lent OF window that is not granted (R173). -/
def Ctx.viewBad (x : Ctx) (r : VReg) : Bool :=
  match windowOf .ofs (x.view r) with
  | some (i, _) => !x.granted i
  | none => false

/-- The tag of a register (R51). -/
def Ctx.tag (x : Ctx) (r : VReg) : Option (Vec × Nat) := x.eph.get? r.toNat

/-- A register whose ephemeral window is over (R51). -/
def Ctx.expired (x : Ctx) (r : VReg) : Bool :=
  match x.tag r with
  | some (_, age) => decide (4 ≤ age)
  | none => false

/-- The OF addresses that the read of a register touches: none for a bypass read (R51). -/
def Ctx.regSpan (x : Ctx) (r : VReg) : List Nat :=
  match x.tag r with
  | some _ => []
  | none => span (x.view r) 128

/-- A vector register as it reads at issue (R51). -/
def State.vecAt (s : State) (c : CoreId) (r : VReg) : Vec :=
  match (s.ctx c).tag r with
  | some (v, _) => v
  | none => BitVec.ofNat 1024 (leNat (s.localBytes c 1 .ofs ((s.ctx c).view r) 128))

/-- Which bytes of its source registers an instruction takes: byte i of a register. The read of another byte meets no fault
(R171). -/
abbrev Use := VReg → Nat → Bool

/-- Every byte. -/
def useAll : Use := fun _ _ => true

/-- The bytes of active elements of w bits (R36). -/
def Ctx.useActive (x : Ctx) (w : Nat) : Use := fun _ i => x.active w (8 * i / w)

/-- The addresses of the bytes of a register that an instruction takes and cannot read (R171, R173). -/
def State.regBad (s : State) (c : CoreId) (use : Use) (r : VReg) : List Nat :=
  ((s.ctx c).regSpan r).filter fun a => s.badAt c 1 .ofs a && use r (a - (s.ctx c).view r)

/-- The first of the operands, in order, whose read meets an error: its lowest bad byte among those taken (R171, R173). -/
def State.vecBad (s : State) (c : CoreId) (use : Use) (srcs : List VReg) : Option Nat :=
  srcs.findSome? fun r => minOf (s.regBad c use r)

/-- Whether an operand is read from a lent window (R175). -/
def Ctx.lentRead (x : Ctx) (srcs : List VReg) : Bool := srcs.any fun r => (x.tag r).isNone && x.viewLent r

/-- Checks 1 to 3 of R173 over the sources and destinations in operand order, with the instruction's own misaligned
address. -/
def Ctx.vecFault (x : Ctx) (srcs dsts : List VReg) (mis : Option Word) : Option (Cause × Word) :=
  match (srcs ++ dsts).find? x.viewBad with
  | some r => some (.viewInvalid, BitVec.ofNat 64 (x.view r))
  | none =>
    match srcs.find? x.expired with
    | some r => some (.ephemeralExpired, BitVec.ofNat 64 (x.view r))
    | none => mis.map fun a => (.misaligned, a)

/-- Read the source registers of a V instruction after its checks; what follows gets the state with out-of-range reads
recorded, and the addresses read (R44, R52, R173). Only bytes that the instruction takes can fault; for the refresh of a bank and
for the record of out-of-range reads the whole register is read (R171 speaks of faults, events and memory accesses; the model's
choice, log entry 149). -/
def vecRead (use : Use) (srcs dsts : List VReg) (mis : Option Word) (c : CoreId) (s : State)
    (k : State → List Nat → Res) : Res :=
  let x := s.ctx c
  let reads := (srcs.map x.regSpan).flatten
  match x.vecFault srcs dsts mis with
  | some (q, a) => .fault q a []
  | none =>
    match s.vecBad c use srcs with
    | some b => .fault (s.readCause c .ofs b) (BitVec.ofNat 64 b) reads
    | none => k (s.oorNote c .v .ofs false (minOf (s.outOf c .ofs reads))) reads

/-! ### Results (R171, R175) -/

/-- Where a vector result goes; the inactive lanes of an ephemeral value are zero (R51, R171). -/
def Ctx.vecDest (x : Ctx) (vd : VReg) (e : Bool) (v bits : Vec) : Dest :=
  if e then .eph vd (v &&& bits) else .vec vd (x.view vd) v bits

/-- The latency with the addition for lent windows, once (R175). -/
def Ctx.vecLat (x : Ctx) (base : Nat) (srcs : List VReg) (vd : VReg) (e lent : Bool) : Nat :=
  if lent || x.lentRead srcs || (!e && x.viewLent vd) then base + 6 else base

/-- A vector result with its written bits and events, as a completed instruction. -/
def vecDone (s : State) (c : CoreId) (base : Nat) (srcs : List VReg) (vd : VReg) (e : Bool) (reads : List Nat)
    (v bits : Vec) (ev : Ev) : Done :=
  let x := s.ctx c
  { Done.one s { lat := x.vecLat base srcs vd e false, dest := x.vecDest vd e v bits, vfl := ev, mfl := 0 } with
    reads := reads }

/-- An elementwise instruction: f gives the code and events of element j from the source registers; inactive elements are
not written and raise nothing (R170 to R172). -/
def vecMap (w base : Nat) (srcs : List VReg) (vd : VReg) (e : Bool) (f : Ctx → List Nat → Nat × Ev) (c : CoreId)
    (s : State) : Res :=
  vecRead ((s.ctx c).useActive w) srcs [vd] none c s fun s reads =>
    let x := s.ctx c
    let vs := srcs.map (s.vecAt c)
    let n := 1024 / w
    let rs := (List.range n).map fun j => if x.active w j then f x (vs.map fun v => elem v w j) else (0, 0)
    .ok (vecDone s c base srcs vd e reads (vecOf w (rs.map (·.1))) (elemBits w n (x.active w)) (evUnion rs))

/-- The bytes that a lane movement takes: those of the elements that some active element of the result comes from; from lists
them for element j of the result, as register and element (R171, R193). -/
def State.useMoved (s : State) (c : CoreId) (w : Nat) (srcs : List VReg)
    (src : Ctx → List (Nat → Nat) → Nat → List (VReg × Nat)) : Use :=
  let x := s.ctx c
  let vs := srcs.map fun r => elem (s.vecAt c r) w
  fun r i => (List.range (1024 / w)).any fun j => x.active w j && (src x vs j).contains (r, 8 * i / w)

/-- A lane movement: f gives element j of the result from the sources' elements, and src says which elements it takes (R193). -/
def vecMove (w base : Nat) (srcs : List VReg) (vd : VReg) (e : Bool) (src : Ctx → List (Nat → Nat) → Nat → List (VReg × Nat))
    (f : Ctx → List (Nat → Nat) → Nat → Nat) (c : CoreId) (s : State) : Res :=
  vecRead (s.useMoved c w srcs src) srcs [vd] none c s fun s reads =>
    let x := s.ctx c
    let vs := srcs.map fun r => elem (s.vecAt c r) w
    let n := 1024 / w
    .ok (vecDone s c base srcs vd e reads (vecOf w ((List.range n).map (f x vs))) (elemBits w n (x.active w)) 0)

/-- A comparison of elements into a mask: all bits that govern an active element's bytes take its truth, the others are
cleared (R171, R182). -/
def vecTest (w : Nat) (md : KReg) (srcs : List VReg) (f : Ctx → List Nat → Bool) (c : CoreId) (s : State) : Res :=
  vecRead ((s.ctx c).useActive w) srcs [] none c s fun s reads =>
    let x := s.ctx c
    let vs := srcs.map (s.vecAt c)
    let bits := (List.range (1024 / w)).map fun j =>
      if x.active w j && f x (vs.map fun v => elem v w j) then 2 ^ (w / 8) - 1 else 0
    let lat := if x.lentRead srcs then 9 else 3
    .ok { Done.one s (New.plain lat (.mask md (BitVec.ofNat 128 (packCodes (w / 8) bits)))) with reads := reads }

/-- A whole register written whatever the mask; its sources are read whole where the mask does not choose their elements. -/
def vecWhole (use : Ctx → Use) (base : Nat) (srcs : List VReg) (vd : VReg) (e : Bool) (f : Ctx → List Vec → Vec × Ev) (c : CoreId)
    (s : State) : Res :=
  vecRead (use (s.ctx c)) srcs [vd] none c s fun s reads =>
    let r := f (s.ctx c) (srcs.map (s.vecAt c))
    .ok (vecDone s c base srcs vd e reads r.1 (BitVec.allOnes 1024) r.2)

end Sys2Proof.Machine
end

