-- ==== Sys2Proof/Machine/Mat.lean ====
section
/-!
DEFINITION. Machine/Mat.lean: the instructions of the M stream but for the nest (R199 to R221, R224).
-/
namespace Sys2Proof.Machine

/-! ### Operands and checks (R199, R202, R216) -/

/-- A tile view at issue: invalid views fault with their number, ungranted lent ones with their base (R38, R202). -/
def Ctx.tileOp (x : Ctx) (n : TReg) : Except Word TView :=
  match x.tv.get? n.toNat with
  | none => .error (BitVec.ofNat 64 n.toNat)
  | some v =>
    match windowOf .ofs v.base with
    | some (i, _) => if x.granted i then .ok v else .error (BitVec.ofNat 64 v.base)
    | none => .ok v

/-- An accumulator view at issue, by AS addresses (R38, R41). -/
def Ctx.accOp (x : Ctx) (n : TReg) : Except Word TView :=
  match x.av.get? n.toNat with
  | none => .error (BitVec.ofNat 64 n.toNat)
  | some v => .ok v.inAs

/-- A weight view at issue: VALID clear faults with its CSR number (R202, R213). -/
def Ctx.weightOp (x : Ctx) (n : Nat) : Except Word TView :=
  let w := x.wv.getD n 0
  match w.getLsbD 63, wvView w with
  | true, some v => .ok v
  | _, _ => .error (BitVec.ofNat 64 (0x054 + n))

/-- TRAPADDR of a failed format or shape check (R202). -/
def reasonWord (r v2 v1 v0 : Nat) : Word := BitVec.ofNat 64 (r * 2 ^ 12 + v2 * 2 ^ 8 + v1 * 2 ^ 4 + v0)

/-- Whether a tile lies in a lent window (R204). -/
def TView.lent (v : TView) : Bool := inWindow .ofs v.base

/-- An MMA-family body as its word gives it: kind, geometry code, views, flags (R214). -/
structure MmaForm where
  kind : MmaKind
  geo : Nat
  acc : TReg
  ta : TReg
  tb : TReg
  z : Bool
  w : Bool
  deriving DecidableEq, Repr

/-- The three views of an MMA-family instruction (R199, R202). -/
def Ctx.mmaViews (x : Ctx) (f : MmaForm) : Except Word (TView × TView × TView) :=
  match x.tileOp f.ta with
  | .error a => .error a
  | .ok a =>
    match if f.w then x.weightOp (f.tb.toNat % 4) else x.tileOp f.tb with
    | .error q => .error q
    | .ok b =>
      match x.accOp f.acc with
      | .error q => .error q
      | .ok v => .ok (a, b, v)

/-- Whether an instruction on some views is f64 matrix work without the F64M feature: REASON 0x4 (R202). -/
def noF64 (f64m : Bool) (l : List TView) : Bool := !f64m && l.any fun v => v.fmt == .f64

/-- The format and shape checks of R216 in order: the REASON that fails (R201, R202). -/
def mmaReason (f64m : Bool) (f : MmaForm) (a b acc : TView) : Option Nat :=
  if noF64 f64m [a, b, acc] then some 4
  else if !mmaPair f.kind f.geo a.fmt b.fmt then some 2
  else if acc.fmt ≠ mmaAcc f.kind a.fmt then some 3
  else
    let m := mmaMax f.kind a.fmt
    if acc.rows = a.rows ∧ acc.cols = b.cols ∧ a.cols = b.rows ∧ a.rows ≤ m.1 ∧ b.cols ≤ m.2 then none else some 1

/-- Views and checks 1 to 3 of R216; the fault is VIEW_INVALID with the word given. -/
def State.mmaOperands (s : State) (c : CoreId) (f : MmaForm) : Except Word (TView × TView × TView) :=
  match (s.ctx c).mmaViews f with
  | .error a => .error a
  | .ok (a, b, v) =>
    match mmaReason (s.mgmt.usable.getLsbD 0) f a b v with
    | some r => .error (reasonWord r f.acc.toNat (if f.w then f.tb.toNat % 4 else f.tb.toNat) f.ta.toNat)
    | none => .ok (a, b, v)

/-- The fields of a scale word (R203). -/
structure Scales where
  sa : Nat
  saPitch : Nat
  sb : Nat
  sbPitch : Nat
  deriving DecidableEq, Repr

/-- Read a scale word (R203). -/
def Scales.ofWord (w : Word) : Scales :=
  let n := w.toNat
  { sa := n % 2 ^ 17, saPitch := n / 2 ^ 20 % 2 ^ 12, sb := n / 2 ^ 32 % 2 ^ 17, sbPitch := n / 2 ^ 52 }

/-- Whether the fields of an MMAI scale word are multiples of 4 (R203). -/
def Scales.aligned (k : Scales) : Bool := k.sa % 4 == 0 && k.saPitch % 4 == 0 && k.sb % 4 == 0 && k.sbPitch % 4 == 0

/-- A job before its first read. -/
def MmaForm.job (f : MmaForm) (a b acc : TView) (st : BitVec 32) (lent : Bool) : MmaJob :=
  { kind := f.kind, geo := f.geo, a := a, b := b, bIsWb := f.w, acc := acc, zero := f.z, st := st, sa := [], sb := [],
    ra := [], rb := [], chunks := 0, age := 0, readAt := if lent then 30 else 24, accv := none }

/-- The scale addresses of a job (R203). -/
def MmaJob.scaleSpans (j : MmaJob) (k : Scales) : List Nat :=
  if j.kind = .plain then []
  else
    let z := geoScale j.geo
    scaleSpan k.sa k.saPitch j.a.rows j.ng z ++ scaleSpan k.sb k.sbPitch j.b.cols j.ng z

/-- The job with its scales read (R203, R215). -/
def State.withScales (s : State) (c : CoreId) (agent : Nat) (j : MmaJob) (k : Scales) : MmaJob :=
  if j.kind = .plain then j
  else
    let z := geoScale j.geo
    { j with sa := s.scaleTable c agent k.sa k.saPitch j.a.rows j.ng z
             sb := s.scaleTable c agent k.sb k.sbPitch j.b.cols j.ng z }

/-- Whether a matrix nest of the task runs (R223, R224). -/
def Ctx.nestRuns (x : Ctx) : Bool := x.mnest.isSome

/-- MMA, MMAI and MMAX (R201 to R206, R214 to R216, R223); sc is the scale word, st the tensor scale. -/
def mmaIssue (f : MmaForm) (sc : Ctx → Word) (st : Ctx → Word) (c : CoreId) (s : State) : Res :=
  let x := s.ctx c
  if x.nestRuns then .wait otherWait id
  else match s.mmaOperands c f with
    | .error w => .fault .viewInvalid w []
    | .ok (a, b, v) =>
      let k := Scales.ofWord (sc x)
      if f.kind = .group ∧ !k.aligned then .fault .misaligned (sc x) []
      else
        let lent := a.lent || (!f.w && b.lent)
        let j := f.job a b v ((st x).setWidth 32) lent
        match s.mmaRead c 2 j with
        | .error (w, q, _) => .fault w (BitVec.ofNat 64 q) []
        | .ok j1 =>
          let sp := j.scaleSpans k
          match s.badOf c 2 .sm sp with
          | some q => .fault .uncorrectableData (BitVec.ofNat 64 q) []
          | none =>
            let s1 := (s.mmaNote c j).oorNote c .m .sm false (minOf (s.outOf c .sm sp))
            .ok { Done.one s1 (New.plain (24 + j.ng + (if lent then 6 else 0)) (.mma (s.withScales c 2 j1 k))) with
              occ := j.occ }

/-- The geometry code of MMAI (R214). -/
def igeoCode (g : IGeo) : Nat :=
  match g with
  | .g32 => 4 | .g64 => 5 | .g128 => 6

/-- The geometry code of MMAX (R214). -/
def xgeoCode (g : XGeo) : Nat :=
  match g with
  | .mx => 1 | .s16 => 2 | .s32 => 3

/-- MMA (R215). -/
def execMma (r : Ring) (acc ta tb : TReg) (z w : Bool) (s : State) : Host.Outcome State Fault Refusal :=
  issue .m r (mmaIssue { kind := .plain, geo := 0, acc := acc, ta := ta, tb := tb, z := z, w := w } (fun _ => 0)
    fun _ => 0) s

/-- MMAI (R215). -/
def execMmai (r : Ring) (acc ta tb : TReg) (z w : Bool) (g : IGeo) (sx : XReg) (s : State) :
    Host.Outcome State Fault Refusal :=
  issue .m r (mmaIssue { kind := .group, geo := igeoCode g, acc := acc, ta := ta, tb := tb, z := z, w := w }
    (fun x => x.xr sx) fun _ => 0) s

/-- MMAX: the tensor scale in sx, the scale word in the register after it (R214, R215). -/
def execMmax (r : Ring) (acc ta tb : TReg) (z w : Bool) (g : XGeo) (sx : XReg) (s : State) :
    Host.Outcome State Fault Refusal :=
  issue .m r (mmaIssue { kind := .block, geo := xgeoCode g, acc := acc, ta := ta, tb := tb, z := z, w := w }
    (fun x => x.xr (sx + 1)) fun x => x.xr sx) s

/-! ### Accumulator operations and ACVT (R217, R218) -/

/-- A view that an MG instruction names. -/
inductive MgOp
  | tile (n : TReg)
  | acc (n : TReg)
  deriving DecidableEq, Repr

/-- The view behind an operand. -/
def Ctx.mgView (x : Ctx) (o : MgOp) : Except Word TView :=
  match o with
  | .tile n => x.tileOp n
  | .acc n => x.accOp n

/-- The views of a list of operands; the first that fails. -/
def Ctx.mgViews (x : Ctx) (l : List MgOp) : Except Word (List TView) :=
  match l with
  | [] => .ok []
  | o :: t =>
    match x.mgView o with
    | .error a => .error a
    | .ok v =>
      match x.mgViews t with
      | .error a => .error a
      | .ok vs => .ok (v :: vs)

/-- The space of an operand. -/
def MgOp.space (o : MgOp) : Space :=
  match o with
  | .tile _ => .ofs
  | .acc _ => .acs

/-- Elements of a view. -/
def TView.count (v : TView) : Nat := v.rows * v.cols

/-- Equal shapes. -/
def TView.sameShape (v w : TView) : Bool := v.rows == w.rows && v.cols == w.cols

/-- Shapes with rows and columns exchanged. -/
def TView.flipShape (v w : TView) : Bool := v.rows == w.cols && v.cols == w.rows

/-- The reads of whole views in slot s: the lowest bad byte of the first operand in error (R206). -/
def State.mgBad (s : State) (c : CoreId) (l : List (Space × TView)) : Option (Cause × Nat) :=
  l.findSome? fun p => (s.badOf c 2 p.1 p.2.lineSpans).map fun a => (s.readCause c p.1 a, a)

/-- Record out-of-range reads of whole views (R44). -/
def State.mgNote (s : State) (c : CoreId) (l : List (Space × TView)) : State :=
  l.foldl (fun s p => s.oorNote c .m p.1 false (minOf (s.outOf c p.1 p.2.lineSpans))) s

/-- An instruction of format MG that reads its sources at issue and lands one view (R202, R204, R206, R217, R218).
The sources stand in the order y, z; reason gives the failing check from the sources and the destination; code gives
each element from the sources' codes. -/
def mgIssue (lat : Nat) (srcs : List MgOp) (dst : MgOp) (nums : Nat × Nat × Nat)
    (reason : List TView → TView → Option Nat)
    (code : Ctx → List (TView × (Nat → Nat → Nat)) → TView → Nat → Nat → Nat × BitVec 5) (c : CoreId) (s : State) : Res :=
  let x := s.ctx c
  match x.mgViews (srcs ++ [dst]) with
  | .error a => .fault .viewInvalid a []
  | .ok vs =>
    let ss := vs.take srcs.length
    let d := vs.getD srcs.length default
    match if noF64 (s.mgmt.usable.getLsbD 0) vs then some 4 else reason ss d with
    | some r => .fault .viewInvalid (reasonWord r nums.1 nums.2.1 nums.2.2) []
    | none =>
      let rd := (srcs.map MgOp.space).zip ss
      match s.mgBad c rd with
      | some q => .fault q.1 (BitVec.ofNat 64 q.2) []
      | none =>
        let gets := rd.map fun p => (p.2, s.code c 2 p.1 p.2)
        let out := layEvents d (code x gets d)
        let lent := ((srcs ++ [dst]).zip vs).any fun p => p.1.space == .ofs && p.2.lent
        .ok (Done.one (s.mgNote c rd)
          { lat := if lent then lat + 6 else lat, dest := .cells dst.space out.1, vfl := 0, mfl := out.2 })

/-- Source i of an MG instruction. -/
def srcAt (l : List (TView × (Nat → Nat → Nat))) (i : Nat) : TView × (Nat → Nat → Nat) :=
  l.getD i (default, fun _ _ => 0)

/-- Whether some view holds more than 192 elements (R217). -/
def tooBig (l : List TView) : Bool := l.any fun v => decide (192 < v.count)

/-- ACLR (R217). -/
def execAclr (r : Ring) (x : TReg) (s : State) : Host.Outcome State Fault Refusal :=
  issue .m r (mgIssue 2 [] (.acc x) (x.toNat, 0, 0) (fun _ d => if tooBig [d] then some 1 else none)
    fun _ _ _ _ _ => (0, 0)) s

/-- Sum of two accumulator elements (R217). -/
def accSum (f : Fmt) (a b : Nat) : Nat × BitVec 5 :=
  if f = .i32 then ((a + b) % 2 ^ 32, 0)
  else
    let q := (Num.ofCode f a).add false (Num.ofCode f b)
    let r := roundNum f RCtl.rne q.1
    (r.1, mEv (r.2 ||| if q.2 then evInv else 0))

/-- The checks of AADD (R217). -/
def aaddReason (ss : List TView) (d : TView) : Option Nat :=
  if ss.any fun v => v.fmt != d.fmt then some 2
  else if tooBig (d :: ss) || ss.any (fun v => !v.sameShape d) then some 1 else none

/-- AADD (R217). -/
def execAadd (r : Ring) (x y z : TReg) (s : State) : Host.Outcome State Fault Refusal :=
  issue .m r (mgIssue 4 [.acc y, .acc z] (.acc x) (x.toNat, z.toNat, y.toNat) aaddReason
    fun _ l d i j => accSum d.fmt ((srcAt l 0).2 i j) ((srcAt l 1).2 i j)) s

/-- The shape check of one source (R217, R218). -/
def shapeReason (tr : Bool) (ss : List TView) (d : TView) : Option Nat :=
  if tooBig (d :: ss) || ss.any (fun v => !(if tr then v.flipShape d else v.sameShape d)) then some 1 else none

/-- ALD (R217). -/
def execAld (r : Ring) (x y : TReg) (s : State) : Host.Outcome State Fault Refusal :=
  issue .m r (mgIssue 6 [.tile y] (.acc x) (x.toNat, 0, y.toNat)
    (fun ss d => if ss.any (fun v => v.fmt == .e8m0) then some 2 else shapeReason false ss d)
    fun _ l d i j => accRound (srcAt l 0).1.fmt d.fmt ((srcAt l 0).2 i j)) s

/-- AST (R217). -/
def execAst (r : Ring) (x y : TReg) (tr : Bool) (s : State) : Host.Outcome State Fault Refusal :=
  issue .m r (mgIssue 4 [.acc y] (.acc x) (x.toNat, 0, y.toNat) (shapeReason tr)
    fun _ l d i j => accRound (srcAt l 0).1.fmt d.fmt (if tr then (srcAt l 0).2 j i else (srcAt l 0).2 i j)) s

/-- ACVT: an element under MCTL.CRM, scaled with SCL (R218). -/
def acvtCode (sat scl : Bool) (sx : XReg) (x : Ctx) (src dst : Fmt) (code : Nat) : Nat × BitVec 5 :=
  let v := Num.ofCode src code
  let v := if scl then (v.mul (Num.ofCode .f32 ((x.xr sx).toNat % 2 ^ 32))).1 else v
  let r := roundNum dst { RCtl.rne with mode := Rnd.ofCode x.mcrm.toNat, sat := sat } v
  (r.1, mEv r.2)

/-- ACVT (R218). -/
def execAcvt (r : Ring) (x y : TReg) (sat scl : Bool) (sx : XReg) (s : State) : Host.Outcome State Fault Refusal :=
  issue .m r (mgIssue 6 [.acc y] (.tile x) (x.toNat, 0, y.toNat)
    (fun ss d => if d.fmt = .e8m0 then some 2 else shapeReason false ss d)
    fun k l d i j => acvtCode sat scl sx k (srcAt l 0).1.fmt d.fmt ((srcAt l 0).2 i j)) s

/-! ### Tile movement (R219, R220) -/

/-- Bytes of a view's lines. -/
def TView.bytes (v : TView) : Nat := v.lines * v.lineLen

/-- The slots of a tile move: the larger of source and destination, 128 bytes a slot (R204). -/
def tileOcc (src dst : TView) : Nat := max 1 ((max src.bytes dst.bytes + 127) / 128)

/-- Issue a tile move whose views have passed their checks (R204, R206). -/
def tileIssue (op : TileOp) (sp : Space) (src dst : TView) (c : CoreId) (s : State) : Res :=
  let j : TileJob := { op := op, srcSp := sp, src := src, dst := dst, rnd := Rnd.ofCode (s.ctx c).mcrm.toNat, bytes := [],
                       chunks := 0, age := 0 }
  match s.tileRead c 2 j with
  | .error q => .fault q.1 (BitVec.ofNat 64 q.2) []
  | .ok j1 =>
    let o := tileOcc src dst
    let lent := dst.lent || src.lineSpans.any (inWindow sp)
    let s1 := s.oorNote c .m sp false (minOf (s.ldOut c 2 sp j.spanNow))
    .ok { Done.one s1 (New.plain (o + 5 + (if lent then 6 else 0)) (.tile j1)) with occ := o }

/-- TLD (R202, R219). -/
def tldIssue (x : TReg) (sx : XReg) (c : CoreId) (s : State) : Res :=
  let k := s.ctx c
  match k.tileOp x with
  | .error a => .fault .viewInvalid a []
  | .ok d =>
    let w := (k.xr sx)
    let addr := w.toNat % 2 ^ 32
    let pitch := w.toNat / 2 ^ 32 % 2 ^ 24
    if noF64 (s.mgmt.usable.getLsbD 0) [d] then .fault .viewInvalid (reasonWord 4 x.toNat 0 0) []
    else if addr % 64 ≠ 0 ∨ pitch % 16 ≠ 0 then .fault .misaligned w []
    else tileIssue .tld .xb { d with base := addr, pitch := pitch } d c s

/-- A move from tile to tile under its checks (R202, R219, R220). -/
def moveIssue (op : TileOp) (x y : TReg) (reason : TView → TView → Option Nat) (c : CoreId) (s : State) : Res :=
  match (s.ctx c).mgViews [.tile y, .tile x] with
  | .error a => .fault .viewInvalid a []
  | .ok vs =>
    let src := vs.getD 0 default
    let dst := vs.getD 1 default
    match if noF64 (s.mgmt.usable.getLsbD 0) vs then some 4 else reason src dst with
    | some r => .fault .viewInvalid (reasonWord r x.toNat 0 y.toNat) []
    | none => tileIssue op .ofs src dst c s

/-- TLD (R219). -/
def execTld (r : Ring) (x : TReg) (sx : XReg) (s : State) : Host.Outcome State Fault Refusal :=
  issue .m r (tldIssue x sx) s

/-- TST (R219). -/
def execTst (r : Ring) (x y : TReg) (sat : Bool) (s : State) : Host.Outcome State Fault Refusal :=
  issue .m r (moveIssue (.tst sat) x y fun a b =>
    if a.fmt = .e8m0 ∨ b.fmt = .e8m0 then some 2 else if a.sameShape b then none else some 1) s

/-- TTR (R219). -/
def execTtr (r : Ring) (x y : TReg) (s : State) : Host.Outcome State Fault Refusal :=
  issue .m r (moveIssue .ttr x y fun a b =>
    if a.fmt ≠ b.fmt then some 2 else if a.flipShape b then none else some 1) s

/-- TREPK (R219). -/
def execTrepk (r : Ring) (x y : TReg) (s : State) : Host.Outcome State Fault Refusal :=
  issue .m r (moveIssue .trepk x y fun a b =>
    if a.fmt ≠ b.fmt then some 2 else if a.sameShape b then none else some 1) s

/-- The requirements of `trepk.pk` (R220). -/
def pkReason (a b : TView) : Option Nat :=
  let w := b.fmt.width
  if (w ≠ 4 ∧ w ≠ 6) ∨ b.maj ∨ a.fmt ≠ .n8 ∨ !a.maj then some 2
  else if a.cols = b.cols ∧ a.rows = (b.rows * w + 7) / 8 then none else some 1

/-- TREPK with PK (R220). -/
def execTrepkPk (r : Ring) (x y : TReg) (s : State) : Host.Outcome State Fault Refusal :=
  issue .m r (moveIssue .trepkPk x y pkReason) s

/-! ### Status (R221, R224) -/

/-- MSTAT: occupies until every result in flight has landed, then takes the snapshot (R221). -/
def mstatIssue (clr : Bool) (c : CoreId) (s : State) : Res :=
  let r := (s.ctx c).strM.queue.foldl (fun a l => max a l.left) 0
  if r = 0 then .ok (Done.plain (s.applyDest c .m (.mstat clr)))
  else .ok { Done.one s (New.plain r (.mstat clr)) with occ := r + 1 }

/-- MSTAT (R221). -/
def execMstat (r : Ring) (s : State) : Host.Outcome State Fault Refusal := issue .m r (mstatIssue false) s

/-- MSTAT with CLR (R221). -/
def execMstatClr (r : Ring) (s : State) : Host.Outcome State Fault Refusal := issue .m r (mstatIssue true) s

/-- MWAIT (R224). -/
def execMwait (r : Ring) (s : State) : Host.Outcome State Fault Refusal :=
  issue .m r (fun c s => if (s.ctx c).nestRuns then .wait otherWait id else .ok (Done.plain s)) s

end Sys2Proof.Machine
end

