-- ==== Sys2Proof/Machine/Engine.lean ====
section
/-!
DEFINITION. Machine/Engine.lean: nest tables, the life of an engine command, the running matrix nest, and the events of
both (R222, R341, R347, R350, R351, R364, R366 to R376).
-/
namespace Sys2Proof.Machine

/-! ### Nest tables (R366, R370, R371) -/

/-- Doubleword i of a nest table. -/
def nd (t : BitVec 512) (i : Nat) : Nat := t.toNat / 2 ^ (64 * i) % 2 ^ 64

/-- GV. -/
def tabGated (t : BitVec 512) : Bool := nd t 0 / 2 ^ 15 % 2 == 1
/-- GE. -/
def tabEntry (t : BitVec 512) : Nat := nd t 0 % 64
/-- BASEA, BASEB, BASEC as operand 0, 1, 2 in bytes. -/
def tabBase (t : BitVec 512) (x : Nat) : Nat := nd t 0 / 2 ^ (48 - 16 * x) % 2 ^ 16 * 64
/-- U0, U1, U2. -/
def tabUnit (t : BitVec 512) (x : Nat) : Nat := nd t 1 / 2 ^ (8 + 4 * x) % 16
/-- CNT of a level: the count less 1. -/
def tabCnt (t : BitVec 512) (l : Nat) : Nat := nd t (2 + l) / 2 ^ 52
/-- STRx of a level, signed. -/
def tabStr (t : BitVec 512) (l x : Nat) : Int := sgn 13 (nd t (2 + l) / 2 ^ (39 - 13 * x) % 2 ^ 13)
/-- Whether SSEL adds STR3 of a level to SABASE (0) or SBBASE (1). -/
def tabSel (t : BitVec 512) (l b : Nat) : Bool := nd t 1 / 2 ^ (20 + 2 * l + b) % 2 == 1

/-- Steps of a nest (R371). -/
def tabSteps (t : BitVec 512) : Nat := (tabCnt t 4 + 1) * (tabCnt t 5 + 1)

/-- Instances of a step. -/
def tabInsts (t : BitVec 512) : Nat := (tabCnt t 0 + 1) * (tabCnt t 1 + 1) * (tabCnt t 2 + 1) * (tabCnt t 3 + 1)

/-- The point of an instance of a step, in nest order (R370, R371). -/
def tabPoint (t : BitVec 512) (step inst : Nat) : List Nat :=
  let c := fun l => tabCnt t l + 1
  [inst % c 0, inst / c 0 % c 1, inst / (c 0 * c 1) % c 2, inst / (c 0 * c 1 * c 2) % c 3, step % c 4, step / c 4]

/-- off(x) at a point (R370). -/
def tabOff (t : BitVec 512) (pt : List Nat) (x : Nat) : Int :=
  (List.range 6).foldl (fun (a : Int) (l : Nat) => a + (pt.getD l 0 : Int) * tabStr t l x) 0

/-- The offset of SABASE (0) or SBBASE (1) at a point (R370). -/
def tabScaleOff (t : BitVec 512) (pt : List Nat) (b : Nat) : Int :=
  (List.range 6).foldl (fun (a : Int) (l : Nat) =>
    if tabSel t l b then a + (pt.getD l 0 : Int) * tabStr t l 3 else a) 0

/-- The least (false) or greatest (true) of off(x) over all instances. -/
def tabExtreme (t : BitVec 512) (x : Nat) (top : Bool) : Int :=
  (List.range 6).foldl (fun (a : Int) (l : Nat) =>
    a + (tabCnt t l : Int) * (if top then max 0 (tabStr t l x) else min 0 (tabStr t l x))) 0

/-- LVL of a reported extreme (R373). -/
def tabLevel (t : BitVec 512) (x : Nat) (top : Bool) : Nat :=
  ((List.range 6).find? fun l => decide (0 < tabCnt t l) &&
    (if top then decide (0 < tabStr t l x) else decide (tabStr t l x < 0))).getD 15

/-- TRAPADDR of NEST_BOUNDS (R373). -/
def nestWord (opnd lvl reason : Nat) : Word := BitVec.ofNat 64 (opnd * 2 ^ 12 + lvl * 2 ^ 8 + reason)

/-- Whether the gate of a nest lets a step start (R372): a firing opens it once the bytes that it counted stand in the
buffer, which they do from the next cycle on (R318, R329). -/
def Ctx.gateOpen (x : Ctx) (t : BitVec 512) (f0 : BitVec 16) (step : Nat) : Bool :=
  !tabGated t ||
    (match x.regs.get? (tabEntry t) with
      | some e => decide (step + 1 + (x.firedNow.filter (· == tabEntry t)).length ≤ (e.fires - f0).toNat)
      | none => false)

/-- F0: FIRES of the gating entry (R372). -/
def Ctx.firesNow (x : Ctx) (t : BitVec 512) : BitVec 16 :=
  match x.regs.get? (tabEntry t) with
  | some e => e.fires
  | none => 0

/-! ### Failures (R351, R402) -/

/-- The record buffer of a core's die has room (R402). -/
def State.recRoom (s : State) (c : CoreId) : Bool := decide (s.dieRecs (c.toNat / 128) < 256)

/-- A deferred fault for a stream, C's own stream while a handler runs; for an exited stream the task will end FAILED. The
first failure is kept (R351, R395). -/
def Ctx.deferTo (x : Ctx) (e : Strm) (k : Cause) (a : Word) : Ctx :=
  let put := fun (t : Stream) => if t.dfault.isSome then t else { t with dfault := some (k, a) }
  let gone := fun (t : Stream) => t.live != .live
  let fail := fun (x : Ctx) => if x.failed.isSome then x else { x with failed := some (k, a) }
  match e, x.shadow with
  | .c, some t => if gone t then fail x else { x with shadow := some (put t) }
  | e, _ => if gone (x.str e) then fail x else x.setStr e (put (x.str e))

/-- Report a failed item (R351 steps 1 and 3, R403). -/
def State.itemReport (s : State) (c : CoreId) (e : Strm) (cause : Cause) (addr kind step : Nat) : State :=
  let x := s.ctx c
  let s1 := match (s.core c).run with
    | some r => s.reportTask r.lid.toNat r.tidx.toNat
        { typ := 0x01, cause := cause.code, kind := kind, core := some c, lid := 0, tidx := 0, tag := 0, addr := addr,
          pc := step, aux0 := x.nestCause.toNat, aux1 := x.nestAddr.toNat }
    | none => s
  s1.modCtx c fun x => x.deferTo e cause (BitVec.ofNat 64 addr)

/-! ### Completion arrivals (R347) -/

/-- A completion arrival at a die entry: the failure, if it fails (R347). R347 has it count exactly as an ARRV and its overflow reported
under R299: an overflow is capped and reported as that of an engine write, since no stream can be refused (log entry 153). -/
def State.tgtArrival (s : State) (c : CoreId) (tgt kind : Nat) : State × Option (Cause × Nat) :=
  let id := tgt / 2 ^ 48 % 4 * 65536 + tgt / 2 ^ 32 % 65536
  match s.regions.get? id with
  | none => (s, some (.protection, tgt))
  | some r =>
    if !r.valid || r.asid != s.asidOf c then (s, some (.protection, tgt))
    else match s.footCheck c .arrv r.spc r.base 1 with
      | some (k, _) => (s, some (k, r.base))
      | none =>
        ({ s with counts := s.counts ++
            [{ entry := id, n := tgt % 2 ^ 32, addr := r.base, src := s.srcOf c kind, wid := s.wid }], wid := s.wid + 1 }, none)

/-! ### X commands -/

/-- Change an outstanding command. -/
def State.setCmd (s : State) (c : CoreId) (i : Nat) (k : XCmd) : State :=
  s.modCtx c fun x => { x with cmds := x.cmds.set i k }

/-- A command of the queue. -/
def State.cmdAt (s : State) (c : CoreId) (i : Nat) : Option XCmd := (s.ctx c).cmds[i]?

/-- Items of a command, or of one step of a nest (R341). -/
def XCmd.items (k : XCmd) : Nat :=
  (match k.kind with
    | .mcast => (mcPositions k.blk).length
    | .fence => 0
    | _ => 1) *
  (match k.nest with
    | some p => tabInsts p.tab
    | none => 1)

/-- A block with other SRC, DST and CTR (R370). -/
def blkAt (b : BitVec 512) (src dst ctr : Nat) : BitVec 512 :=
  BitVec.ofNat 512 (src % 2 ^ 64 + dst % 2 ^ 64 * 2 ^ 64 + b.toNat / 2 ^ 128 % 2 ^ 320 * 2 ^ 128 + ctr % 2 ^ 64 * 2 ^ 448)

/-- The block of the item performed next, and its target index (R341, R370, R375). The alignment of a body's SRC and DST is checked in
its block alone: an instance that strides move off it runs unaligned, and a unit of XSTRM that crosses a page is read on from the
first page's physical address (log entry 153). -/
def XCmd.itemBlock (k : XCmd) : BitVec 512 × Nat :=
  let n := match k.kind with
    | .mcast => (mcPositions k.blk).length
    | _ => 1
  match k.nest with
  | none => (k.blk, k.item)
  | some p =>
    let pt := tabPoint p.tab p.step (k.item / n)
    let move := fun (v x : Nat) => ((v : Int) + tabOff p.tab pt x * (2 ^ tabUnit p.tab x : Nat)).toNat
    (blkAt k.blk (move (blkSrc k.blk) 0) (move (blkDst k.blk) 1) (move (blkCtr k.blk) 2), k.item % n)

/-- KIND of the records of a command's items (R403). -/
def XCmd.recKind (k : XCmd) : Nat := if k.nest.isSome then 2 else 1

/-- The step index that a record of a command's item holds (R403). -/
def XCmd.recStep (k : XCmd) : Nat :=
  match k.nest with
  | some p => p.step
  | none => 0

/-- What follows the last item of a command or of a nest's step (R350, R371, R375). -/
def XCmd.itemsDone (k : XCmd) : XCmd :=
  if k.item < k.items then k
  else
    let tv := blkTv k.blk && !k.failed
    match k.nest with
    | none => { k with finished := true, arrive := tv }
    | some p =>
      if k.failed then { k with finished := true, arrive := false, nest := some { p with opened := false } }
      else { k with item := 0, arrive := tv, finished := decide (p.step + 1 = tabSteps p.tab),
                    nest := some { p with step := p.step + 1, opened := false, waited := 0 } }

/-- Perform the next item of a started command (R350); a failure is kept for its record (R351). -/
def State.itemPerform (s : State) (c : CoreId) (i : Nat) : State :=
  match s.cmdAt c i with
  | none => s
  | some k =>
    let (b, tgt) := k.itemBlock
    let r := s.item c k.kind k.recKind b k.ix tgt
    let k1 : XCmd := { k with item := k.item + 1, failed := k.failed || r.fail.isSome,
                              owed := r.fail.map fun f => (f.1, f.2, k.recKind, k.recStep) }
    r.s.setCmd c i k1.itemsDone

/-- Write the record of a failed item and defer its fault (R351). -/
def State.itemFailure (s : State) (c : CoreId) (i : Nat) : State :=
  match s.cmdAt c i with
  | none => s
  | some k =>
    match k.owed with
    | none => s
    | some (cause, addr, kind, step) => (s.setCmd c i { k with owed := none }).itemReport c .x cause addr kind step

/-- Make the arrival that a command owes (R347). -/
def State.cmdArrive (s : State) (c : CoreId) (i : Nat) : State :=
  match s.cmdAt c i with
  | none => s
  | some k =>
    match s.tgtArrival c (blkTgt k.blk) k.recKind with
    | (s1, none) => s1.setCmd c i { k with arrive := false }
    | (s1, some f) =>
      s1.setCmd c i { k with arrive := false, failed := true, finished := true,
                             owed := some (f.1, f.2, k.recKind, k.recStep - 1) }

/-- A command starts: a nest samples FIRES (R341, R372). -/
def State.cmdStart (s : State) (c : CoreId) (i : Nat) : State :=
  match s.cmdAt c i with
  | none => s
  | some k =>
    s.setCmd c i { k with started := true, nest := k.nest.map fun p => { p with f0 := (s.ctx c).firesNow p.tab } }

/-- A nest's next step starts (R371). -/
def State.stepStart (s : State) (c : CoreId) (i : Nat) : State :=
  match s.cmdAt c i with
  | none => s
  | some k => s.setCmd c i { k with nest := k.nest.map fun p => { p with opened := true, waited := 0 } }

/-- A command completes: it leaves the queue and deposits its token, or releases its place if it failed (R342, R350,
R351). -/
def State.cmdComplete (s : State) (c : CoreId) (i : Nat) : State :=
  match s.cmdAt c i with
  | none => s
  | some k =>
    s.modCtx c fun x =>
      let x := { x with cmds := x.cmds.eraseIdx i }
      if k.failed then x.unsignal .x k.sp k.sn else x.signal .x k.sp k.sn

/-- Whether running nests must stop at their next step boundary (R376, R399, R410, R411). -/
def Core.halting (k : Core) : Bool :=
  (k.save.isSome && !k.ctx.te) || k.stop.isSome ||
    (match k.frz with
      | some f => f.report
      | none => false)

/-- A command that may start: the first that has not, with no fence before it (R341, R364). -/
def Ctx.startable (x : Ctx) (i : Nat) : Bool :=
  (x.cmds.take i).all (fun k => k.started && k.kind != .fence) &&
    (match x.cmds[i]? with
      | some k => !k.started && k.kind != .fence
      | none => false)

/-- A started nest whose next step has still to start. -/
def XCmd.between (k : XCmd) : Bool :=
  k.started && !k.finished && !k.failed && !k.arrive && k.owed.isNone &&
    (match k.nest with
      | some p => !p.opened
      | none => false)

/-- A nest whose next step may start (R371, R372, R376). -/
def Ctx.stepReady (x : Ctx) (halt : Bool) (k : XCmd) : Bool :=
  k.between && !halt &&
    (match k.nest with
      | some p => x.gateOpen p.tab p.f0 p.step
      | none => false)

/-- A command with an item to perform. -/
def XCmd.itemReady (k : XCmd) : Bool :=
  k.started && !k.finished && k.owed.isNone && !k.arrive && decide (k.item < k.items) &&
    (match k.nest with
      | some p => p.opened
      | none => true)

/-- Whether the next item writes into a site that has failed and whose task has still to be moved to a spare: it is held at
its engine (R419); once that task has ended, the item goes on (R360, R423). -/
def State.siteHeld (s : State) (c : CoreId) (k : XCmd) : Bool :=
  match k.kind with
  | .mcast =>
    let (b, tgt) := k.itemBlock
    (match (mcPositions b)[tgt]? with
      | some p => (s.core (clusterCore c p)).dead && (s.core (clusterCore c p)).run.isSome
      | none => false)
  | _ => false

/-- A command that can complete: everything done and reported, and a fence at the head (R350, R364). -/
def XCmd.completable (k : XCmd) (i : Nat) : Bool :=
  if k.kind = .fence then i == 0 else k.finished && !k.arrive && k.owed.isNone

/-- What an engine can do next for an X command. -/
inductive EngAct
  | fail (i : Nat)
  | arrive (i : Nat)
  | complete (i : Nat)
  | start (i : Nat)
  | step (i : Nat)
  | item (i : Nat)
  deriving DecidableEq, Repr

/-- The index of the first command with a property of it and its index. -/
def Ctx.findCmd (x : Ctx) (f : Nat → XCmd → Bool) : Option Nat :=
  (List.range x.cmds.length).find? fun i =>
    match x.cmds[i]? with
    | some k => f i k
    | none => false

/-- The next engine action for a core's X commands: reports, arrivals and completions first, then starts in enqueue order,
then steps and items, oldest command first (R341, R350, R351, R364, R371). -/
def State.engNext (s : State) (c : CoreId) : Option EngAct :=
  let x := s.ctx c
  let halt := (s.core c).halting
  match x.findCmd fun _ k => k.owed.isSome && s.recRoom c with
  | some i => some (.fail i)
  | none => match x.findCmd fun _ k => k.arrive with
    | some i => some (.arrive i)
    | none => match x.findCmd fun i k => k.completable i with
      | some i => some (.complete i)
      | none => match x.findCmd fun i _ => x.startable i with
        | some i => some (.start i)
        | none => match x.findCmd fun _ k => x.stepReady halt k with
          | some i => some (.step i)
          | none => match x.findCmd fun _ k => k.itemReady && !s.siteHeld c k with
            | some i => some (.item i)
            | none => none

/-- Perform an engine action. -/
def State.engDo (s : State) (c : CoreId) (a : EngAct) : State :=
  match a with
  | .fail i => s.itemFailure c i
  | .arrive i => s.cmdArrive c i
  | .complete i => s.cmdComplete c i
  | .start i => s.cmdStart c i
  | .step i => s.stepStart c i
  | .item i => s.itemPerform c i

/-- A step wait that passes the limit fails its step (R372). -/
def XCmd.wdogFail (k : XCmd) : XCmd :=
  { k with failed := true, finished := true, owed := some (.watchdog, k.recStep, 2, k.recStep) }

/-- Count the cycle for every copy nest whose next step waits at its gate (R30, R372). -/
def State.countWaits (s : State) (c : CoreId) : State :=
  let halt := (s.core c).halting
  s.modCtx c fun x =>
    { x with cmds := x.cmds.map fun k =>
        if k.between && !halt && !x.stepReady halt k then
          match k.nest with
          | some p =>
            if x.limit < p.waited + 1 then k.wdogFail else { k with nest := some { p with waited := p.waited + 1 } }
          | none => k
        else k }

/-! ### The matrix nest (R222, R371 to R374) -/

/-- The job of an instance (R370, R374). -/
def MNest.inst (n : MNest) (i : Nat) : MmaJob × Scales :=
  let pt := tabPoint n.tab n.step i
  let base := fun (x : Nat) => natAddr ((tabBase n.tab x : Int) + tabOff n.tab pt x * (64 * 2 ^ tabUnit n.tab x : Nat))
  let j := n.job
  ({ j with a := { j.a with base := base 0 }, b := { j.b with base := base 1 },
            acc := { j.acc with base := base 2 - 0x40000 }, zero := n.z && pt.getD 0 0 == 0 },
   { sa := natAddr ((n.saBase : Int) + tabScaleOff n.tab pt 0), saPitch := n.saPitch,
     sb := natAddr ((n.sbBase : Int) + tabScaleOff n.tab pt 1), sbPitch := n.sbPitch })

/-- All the reads of an instance at once; the left answer is the lowest bad byte of the first operand in error. -/
def State.mmaWhole (s : State) (c : CoreId) (j : MmaJob) (k : Scales) : Except Nat MmaJob :=
  let spans := [(Space.ofs, j.a.lineSpans), (j.bSp, j.b.lineSpans), (.acs, if j.zero then [] else j.acc.lineSpans),
                (.sm, j.scaleSpans k)]
  match spans.findSome? fun p => s.lostOf c 2 p.1 p.2 with
  | some a => .error a
  | none =>
    let table := fun (sp : Space) (v : TView) (n m : Nat) (t : Bool) =>
      (List.range n).map fun i => (List.range m).map fun q => if t then s.code c 2 sp v q i else s.code c 2 sp v i q
    let j1 : MmaJob :=
      { j with ra := table .ofs j.a j.a.rows j.a.cols false, rb := table j.bSp j.b j.b.cols j.b.rows true,
               accv := if j.zero then none else some (table .acs j.acc j.acc.rows j.acc.cols false) }
    .ok (s.withScales c 2 j1 k)

/-- One instance: its reads, its landing and its events (R222, R374). -/
def State.mnestInst (s : State) (c : CoreId) (n : MNest) (i : Nat) : Except (Cause × Nat) State :=
  let (j, k) := n.inst i
  match s.mmaWhole c j k with
  | .error a => .error (.uncorrectableData, a)
  | .ok j1 =>
    let s0 := (s.windowTouch c .ofs j.a.lineSpans).windowTouch c j.bSp j.b.lineSpans
    let s1 := s0.oorNote c .m .sm false (minOf (s.outOf c .sm (j.scaleSpans k)))
    let out := j1.result
    .ok ((s1.localStore c 2 .acs out.1 2).modCtx c fun x => x.raiseM out.2)

/-- The instances of a step one after another; after a failure no further one starts. -/
def State.mnestInsts (s : State) (c : CoreId) (n : MNest) (l : List Nat) : State × Option (Cause × Nat) :=
  match l with
  | [] => (s, none)
  | i :: t =>
    match s.mnestInst c n i with
    | .error x => (s, some x)
    | .ok s1 => s1.mnestInsts c n t

/-- Store the running nest. -/
def State.setNest (s : State) (c : CoreId) (n : Option MNest) : State := s.modCtx c fun x => { x with mnest := n }

/-- Run one step of the matrix nest (R371). -/
def State.mnestStep (s : State) (c : CoreId) (n : MNest) : State :=
  match s.mnestInsts c n (List.range (tabInsts n.tab)) with
  | (s1, none) => s1.setNest c (some { n with step := n.step + 1, waited := 0 })
  | (s1, some f) => s1.setNest c (some { n with fail := some f })

/-- The matrix nest ends: its last instance has landed, or a step has failed (R222, R351). -/
def State.mnestEnd (s : State) (c : CoreId) (n : MNest) : State :=
  let s1 := s.setNest c none
  match n.fail with
  | none => s1.modCtx c fun x => x.signal .m n.sp n.sn
  | some (cause, addr) => (s1.modCtx c fun x => x.unsignal .m n.sp n.sn).itemReport c .m cause addr 2 n.step

/-- The walk waits for the results that were in flight at the MNEST (R222, R318): they land as M's slots pass. A stall of M does not
freeze the nest, so while the walk waits, a cycle in which M has no slot counts as one in which older results land (log entry 150).
-/
def State.nestWaits (s : State) (c : CoreId) (n : MNest) (held : Bool) : State :=
  let s1 := if !held && n.seen == n.ahead && s.runs c .m then s.idleSlot c .m else s
  s1.modCtx c fun x => { x with mnest := x.mnest.map fun n => { n with seen := n.ahead } }

/-- What the address generators of the M stream do in a cycle: in a cycle that the envelope governor holds them only the
gate's wait goes on (R30, R251). -/
def State.mnestTurn (s : State) (c : CoreId) (held : Bool) : State :=
  match (s.ctx c).mnest with
  | none => s
  | some n =>
    if n.fail.isSome then (if s.recRoom c && !held then s.mnestEnd c n else s)
    else if n.step = tabSteps n.tab then (if held then s else s.mnestEnd c n)
    else if (s.core c).halting then s
    else if n.ahead ≠ 0 then s.nestWaits c n held
    else if (s.ctx c).gateOpen n.tab n.f0 n.step then (if held then s else s.mnestStep c n)
    else if (s.ctx c).limit < n.waited + 1 then s.setNest c (some { n with fail := some (.watchdog, n.step) })
    else s.setNest c (some { n with waited := n.waited + 1 })

/-- What a core's engines do in a cycle: gated waits are counted, the matrix nest runs a step unless the envelope governor
holds it (R251), and one action of the X commands is performed. -/
def State.engineTurn (s : State) (c : CoreId) : State :=
  if (s.core c).restore.isSome then s
  else
    let held := (s.core c).govOdd s.cycle
    let s1 := (s.countWaits c).mnestTurn c held
    match s1.engNext c with
    | some a => s1.engDo c a
    | none => s1

/-- Whether nothing is left for the engines of a core to do before a stop: nests stand between steps, and every other
command that can has completed (R376, R411). R376 wants every other command completed, and R364 forbids starting one behind
an XFENCE that waits for the stopped nest: the model saves those commands, and that XFENCE, unstarted (log entry 126). -/
def State.enginesQuiet (s : State) (c : CoreId) : Bool :=
  (s.engNext c).isNone && ((s.ctx c).cmds.all fun k => k.owed.isNone && (!k.started || k.between || k.kind == .fence)) &&
    (match (s.ctx c).mnest with
      | some n => n.fail.isNone && n.step != tabSteps n.tab
      | none => true)

/-- Whether the task has no engine work left at all (R33, R330). -/
def Ctx.enginesIdle (x : Ctx) : Bool := x.cmds.isEmpty && x.mnest.isNone

/-! ### Events -/

/-- Perform an engine action when it is possible. -/
def State.engIf (s : State) (c : CoreId) (ok : Bool) (a : EngAct) : State :=
  if ok && (s.core c).run.isSome && (s.core c).restore.isNone then s.engDo c a else s

/-- COMMAND_START (R341). -/
def execCommandStart (core : CoreId) (s : State) : Host.Outcome State Fault Refusal :=
  .next (match (s.ctx core).findCmd fun i _ => (s.ctx core).startable i with
    | some i => s.engIf core true (.start i)
    | none => s)

/-- Whether a turn of the cycle is one of a stream of a core. -/
def Agent.isStream (a : Agent) (c : CoreId) : Bool :=
  match a with
  | .strm k _ => k == c
  | .engine _ => false

/-- ITEM_PERFORMED (R350). An update of XACC is indivisible and comes after the writes of the cycle's streams (R53, R352), so it
waits until they have had their turns. -/
def execItemPerformed (core : CoreId) (slot : BitVec 4) (s : State) : Host.Outcome State Fault Refusal :=
  .next (match s.cmdAt core slot.toNat with
    | some k =>
      s.engIf core (k.itemReady && !s.siteHeld core k && !(k.kind == .acc && s.sched.any (·.isStream core))) (.item slot.toNat)
    | none => s)

/-- COMMAND_COMPLETE (R350): the arrival that is owed, then the completion. -/
def execCommandComplete (core : CoreId) (slot : BitVec 4) (s : State) : Host.Outcome State Fault Refusal :=
  .next (match s.cmdAt core slot.toNat with
    | some k =>
      if k.arrive then s.engIf core k.finished (.arrive slot.toNat)
      else s.engIf core (k.completable slot.toNat) (.complete slot.toNat)
    | none => s)

/-- ITEM_FAILURE (R351). -/
def execItemFailure (core : CoreId) (slot : BitVec 4) (s : State) : Host.Outcome State Fault Refusal :=
  .next (match s.cmdAt core slot.toNat with
    | some k => s.engIf core (k.owed.isSome && s.recRoom core) (.fail slot.toNat)
    | none => s)

/-- NEST_STEP_START (R371): the first copy nest whose next step may start, after the arrival of the step before it; else
the matrix nest. -/
def execNestStepStart (core : CoreId) (s : State) : Host.Outcome State Fault Refusal :=
  .next (
    let x := s.ctx core
    match x.findCmd fun _ k => k.arrive && k.nest.isSome with
    | some i => s.engIf core true (.arrive i)
    | none =>
      match x.findCmd fun _ k => x.stepReady (s.core core).halting k with
      | some i => s.engIf core true (.step i)
      | none =>
        match x.mnest with
        | some n =>
          if n.fail.isNone && n.step != tabSteps n.tab && !(s.core core).halting && n.ahead == 0 && x.gateOpen n.tab n.f0 n.step &&
              (s.core core).run.isSome && (s.core core).restore.isNone && !(s.core core).govOdd s.cycle then
            s.mnestStep core n
          else s
        | none => s)

/-- NEST_STEP_WATCHDOG (R372): takes effect in the engines' turn of the cycle after a gated step wait has lasted WDOG.LIMIT cycles
(R30). -/
def execNestStepWatchdog (core : CoreId) (s : State) : Host.Outcome State Fault Refusal :=
  .next (
    if s.sched.head? ≠ some (.engine core) then s else
    let x := s.ctx core
    let halt := (s.core core).halting
    let late := fun (k : XCmd) => k.between && !halt && !x.stepReady halt k &&
      (match k.nest with
        | some p => decide (x.limit ≤ p.waited)
        | none => false)
    match x.findCmd fun _ k => late k with
    | some i =>
      (match s.cmdAt core i with
        | some k => s.setCmd core i k.wdogFail
        | none => s)
    | none =>
      match x.mnest with
      | some n =>
        if n.fail.isNone && n.step != tabSteps n.tab && !halt && n.ahead == 0 && !x.gateOpen n.tab n.f0 n.step &&
            decide (x.limit ≤ n.waited) then
          s.setNest core (some { n with fail := some (.watchdog, n.step) })
        else s
      | none => s)

/-- NEST_COMPLETE (R222): the matrix nest ends, or a finished copy nest completes. -/
def execNestComplete (core : CoreId) (s : State) : Host.Outcome State Fault Refusal :=
  .next (
    match (s.ctx core).mnest with
    | some n =>
      if ((n.fail.isSome && s.recRoom core) || (n.fail.isNone && n.step == tabSteps n.tab)) &&
          !(s.core core).govOdd s.cycle then
        s.mnestEnd core n
      else s
    | none =>
      match (s.ctx core).findCmd fun i k => k.nest.isSome && k.completable i with
      | some i => s.engIf core true (.complete i)
      | none => s)

end Sys2Proof.Machine
end

