-- ==== Sys2Proof/Machine/Tasks.lean ====
section
/-!
DEFINITION. Machine/Tasks.lean: launches and their acceptance, gates, terminal states and counters, CANCEL, phases (R230
to R237, R241, R244, R249, R251, R256 to R260, R404, R418, R467).
-/
namespace Sys2Proof.Machine

/-! ### Footprint lists (R322) -/

/-- One entry of a footprint list; none if a field is out of order for a launch of n tasks. -/
def footEntry (n w0 w1 : Nat) : Option Foot :=
  let base := w0 % 2 ^ 60 * 4096
  let k := w1 / 2 ^ 58
  let kind := w1 / 2 ^ 55 % 8
  let pert := w1 / 2 ^ 54 % 2 == 1
  let sp := match w0 / 2 ^ 60 with
    | 15 => some Space.virt | 7 => some .t2 | 8 => some .t3 | 9 => some .t4 | _ => none
  match sp with
  | none => none
  | some sp =>
    if w1 % 2 ^ 54 ≠ 0 ∨ 4 < kind ∨ k < 12 ∨ (if sp = .t2 then 25 else 40) < k ∨ base % 2 ^ k ≠ 0 ∨
        (pert = true ∧ 2 ^ 72 < base + n * 2 ^ k) then none
    else some { spc := sp, base := base, k := k, kind := kind, pert := pert }

/-- Read the entries of a footprint list from its bytes. -/
def footEntries (n cnt : Nat) (bs : List Byte) : Option (List Foot) :=
  match cnt with
  | 0 => some []
  | cnt + 1 =>
    match footEntry n (leNat (bs.take 8)) (leNat ((bs.drop 8).take 8)), footEntries n cnt (bs.drop 16) with
    | some f, some l => some (f :: l)
    | _, _ => none

/-- The footprint list of a packet in an address space (R322). -/
def State.footRead (s : State) (asid : BitVec 16) (p : BitVec 1024) : Option (List Foot) :=
  if pktField p 0x30 8 = 0 then some []
  else
    let va := pktAddr p 0x30
    match s.devRead none asid va 8 with
    | .error _ => none
    | .ok h =>
      let n := leNat h
      if 64 < n then none
      else match s.devRead none asid (va + 8) (16 * n) with
        | .error _ => none
        | .ok bs => footEntries (pktTasks p) n bs

/-! ### Gates (R235, R244) -/

/-- MODE of a gate word. -/
def gateMode (w : Nat) : Nat := w / 2 ^ 29
/-- The region entry that a gate word names, as die × 65,536 + index. -/
def gateId (w : Nat) : Nat := w / 2 ^ 26 % 4 * 65536 + w % 65536

/-- Whether an entry is at its target. -/
def State.atTarget (s : State) (id : Nat) : Bool :=
  match s.regions.get? id with
  | some r => r.valid && decide (r.target ≠ 0) && (r.fired || decide (r.target ≤ r.count))
  | none => false

/-- Whether a graph counter has fired. -/
def State.graphFired (s : State) (n : Nat) : Bool :=
  match s.graphs.get? n with
  | some g => g.fired
  | none => false

/-- The mark of a launch for a gate at acceptance. -/
def State.markAt (s : State) (w : Nat) : Bool :=
  match gateMode w with
  | 1 => s.atTarget (gateId w)
  | 4 => s.graphFired (w % 4096)
  | _ => false

/-- The tasks whose SEQ mark is set at acceptance. -/
def State.seqAt (s : State) (w n : Nat) : List Nat :=
  if gateMode w = 3 then
    s.regions.filterMap fun e =>
      if s.atTarget e.1 && decide (gateId w ≤ e.1) && decide (e.1 < gateId w + n) then some (e.1 - gateId w) else none
  else []

/-- Whether a gate is open for task i of a launch (R244). -/
def Launch.gateOpen (l : Launch) (g i : Nat) : Bool :=
  let w := pktGate l.pkt g
  match gateMode w with
  | 0 => true
  | 2 => decide (i < (if g = 0 then l.cred0 else l.cred1))
  | 3 => if g = 0 then (l.task i).mark0 else (l.task i).mark1
  | _ => if g = 0 then l.mark0 else l.mark1

/-- Whether both gates are open for a task, or behind it. -/
def Launch.gatesOpen (l : Launch) (i : Nat) : Bool := (l.task i).passed || (l.gateOpen 0 i && l.gateOpen 1 i)

/-- Whether a launch has an EACH gate (R245). -/
def Launch.each (l : Launch) : Bool := gateMode (pktGate l.pkt 0) == 2 || gateMode (pktGate l.pkt 1) == 2

/-- A graph counter fires: every gate that names it opens (R232, R244). -/
def State.graphSees (s : State) (n : Nat) : State :=
  let hit := fun (p : BitVec 1024) (g : Nat) => gateMode (pktGate p g) == 4 && pktGate p g % 4096 == n
  { s with launches := s.launches.map fun e =>
      (e.1, { e.2 with mark0 := e.2.mark0 || hit e.2.pkt 0, mark1 := e.2.mark1 || hit e.2.pkt 1 }) }

/-! ### Acceptance (R237) -/

/-- Streams that a packet gives an entry (R233). -/
def pktStreams (p : BitVec 1024) : List Strm := [Strm.c, .v, .m, .x].filter fun e => pktEntry p e != 0xFFFFFFFF

/-- The heat class of the kernel that holds an entry, if one does (R94). -/
def Image.heatOf (g : Image) (e : Strm) (n : Nat) : Option Nat :=
  (g.spans.find? fun p => p.strm == e && decide (p.first ≤ n) && decide (n ≤ p.last)).map (·.heat)

/-- Whether a gate word's reserved fields are zero, for a launch of n tasks (R235). -/
def gateOk (w n : Nat) : Bool :=
  decide (gateMode w ≤ 4) && w / 2 ^ 28 % 2 == 0 && w / 2 ^ 16 % 2 ^ 10 == 0 &&
  (gateMode w != 3 || decide (w % 65536 + n - 1 ≤ 0xFFFF)) &&
  (gateMode w != 4 || (w / 2 ^ 26 % 4 == 0 && w / 2 ^ 12 % 16 == 0))

/-- The check BAD_FIELD but for the footprint list (R234, R237). -/
def pktOk (g : Image) (p : BitVec 1024) : Bool :=
  pktField p 0x00 8 / 2 ^ 24 == 0 && pktField p 0x38 4 / 2 ^ 24 == 0 &&
  pktField p 0x3C 4 / 2 ^ 21 % 2 ^ 7 == 0 && pktField p 0x3C 4 / 2 ^ 8 % 2 ^ 8 == 0 &&
  pktField p 0x5C 4 / 2 ^ 19 == 0 && pktField p 0x5C 4 / 2 ^ 9 % 2 ^ 7 == 0 && pktMode p != 7 &&
  pktTargets p / 2 ^ 48 == 0 && pktTargets p / 2 ^ 38 % 2 ^ 9 == 0 && pktTargets p / 2 ^ 24 % 2 ^ 7 == 0 &&
  pktTargets p / 2 ^ 12 % 2 ^ 3 == 0 &&
  gateOk (pktGate p 0) (pktTasks p) && gateOk (pktGate p 1) (pktTasks p) &&
  pktField p 0x18 8 % 64 == 0 && pktField p 0x20 8 % 64 == 0 && pktField p 0x28 8 % 32 == 0 &&
  pktField p 0x30 8 % 8 == 0 && !(pktStreams p).isEmpty &&
  (pktStreams p).all (fun e => (g.heatOf e (pktEntry p e)).isSome) && pktDrain p &&
  (decide (4 ≤ pktMode p) || pktPcore p == 0)

/-- The allotments of a packet in bytes (R233). -/
def pktAllot (p : BitVec 1024) : Allot :=
  { ofs := pktField p 0x40 4, acs := pktField p 0x44 4, wb := pktField p 0x48 4, xb := pktField p 0x4C 4,
    sm := pktField p 0x50 4, t1 := pktField p 0x54 4 }

/-- Whether every allotment keeps its limit (R233). -/
def Allot.ok (a : Allot) : Bool :=
  decide (a.ofs ≤ 0x30000) && decide (a.acs ≤ 0x80000) && decide (a.wb ≤ 0x200000) && decide (a.xb ≤ 0x100000) &&
  decide (a.sm ≤ 0x20000) && decide (a.t1 ≤ 0x800000)

/-- Round up to 4 KiB (R43). -/
def roundPage (n : Nat) : Nat := (n + 4095) / 4096 * 4096

/-- The in-range sizes of allotments (R43). -/
def Allot.rounded (a : Allot) : Allot :=
  { ofs := roundPage a.ofs, acs := roundPage a.acs, wb := roundPage a.wb, xb := roundPage a.xb, sm := roundPage a.sm,
    t1 := roundPage a.t1 }

/-- Whether a position belongs to a heat class's pattern (R250). -/
def heatPosition (heat : Nat) (c : CoreId) : Bool :=
  let col := c.toNat % 16
  let row := c.toNat / 16 % 8
  match heat with
  | 2 => (col + row) % 2 == 0 && col != 15
  | 3 => col % 2 == 0 && row % 2 == 0
  | _ => true

/-- The windows that a heat class is granted (R250). -/
def heatGrants (heat : Nat) : BitVec 3 :=
  match heat with
  | 2 => 1
  | 3 => 7
  | _ => 0

/-- The check FEATURE (R237). -/
def State.featureOk (s : State) (g : Image) (p : BitVec 1024) : Bool :=
  let need := (pktStreams p).foldl (fun n e => max n ((g.heatOf e (pktEntry p e)).getD 0)) 0
  decide (need ≤ pktHeat p) && (decide (pktHeat p < 2) || s.mgmt.usable.getLsbD 1) &&
  (g.features &&& ~~~s.mgmt.usable) == 0 &&
  (pktMode p != 4 || heatPosition (pktHeat p) (BitVec.ofNat 9 (pktPcore p)))

/-- Whether a die offers the levels that an allotment needs (R237, R313). -/
def State.levelsOn (s : State) (p : BitVec 1024) (die : Nat) : Bool :=
  (pktAllot p).t1 == 0 || s.layers.getD (die * 4) .normal == .normal

/-- Whether a launch is in its queue: some task has no bind record (R241). A launch whose task has gone back to QUEUED, by a
withdrawal or a kill, is in its queue again; the spec is silent on it (log entry 128). -/
def Launch.inQueue (l : Launch) : Bool := decide ((l.tasks.filter fun t => t.2.st != .queued).length < pktTasks l.pkt)

/-- Launches of a queue that have not been fully placed (R237, R241), those that count again among them (log entry 128). -/
def State.waitingIn (s : State) (q : BitVec 6) : Nat := (s.launches.filter fun e => e.2.q == q && e.2.inQueue).length

/-- The status of an offer from an address space to a queue, and the footprint list (R237). The flag says that the packet lies
out of range in CR, which arrives as zeros and is rejected with BAD_FIELD (R236). -/
def State.launchCheck (s : State) (q : BitVec 6) (p : BitVec 1024) (asid : BitVec 16) (oor : Bool := false) : Nat × List Foot :=
  if 32 ≤ s.waitingIn q then (1, [])
  else match s.queues.get? q.toNat with
    | none => (2, [])
    | some u =>
      if u.asid ≠ asid then (2, [])
      else if oor then (4, [])
      else match s.images.get? (pktField p 0x00 8 % 65536) with
        | none => (3, [])
        | some g =>
          if g.asid ≠ u.asid ∨ g.gen.toNat ≠ pktField p 0x00 8 / 2 ^ 16 % 256 then (3, [])
          else if !pktOk g p then (4, [])
          else match s.footRead u.asid p with
            | none => (4, [])
            | some foot =>
              if !(pktAllot p).ok then (5, [])
              else if !s.featureOk g p then (6, [])
              else if !((List.range 4).any (s.levelsOn p)) then (7, [])
              else (0, foot)

/-- A launch as it stands at acceptance (R236, R244). -/
def State.newLaunch (s : State) (q : BitVec 6) (p : BitVec 1024) (asid : BitVec 16) (foot : List Foot) : Launch :=
  let credit := fun (w : Nat) => if gateMode w = 2 ∧ s.atTarget (gateId w) = true then 1 else 0
  let n := pktTasks p
  let t0 : FMap Task := (s.seqAt (pktGate p 0) n).foldl (fun m i => m.set i { Task.fresh with mark0 := true }) []
  let t1 : FMap Task := (s.seqAt (pktGate p 1) n).foldl
    (fun m i => m.set i { (m.getD i Task.fresh) with mark1 := true }) t0
  { pkt := p, q := q, asid := asid, foot := foot, done := 0, failed := 0, mark0 := s.markAt (pktGate p 0),
    mark1 := s.markAt (pktGate p 1), cred0 := credit (pktGate p 0), cred1 := credit (pktGate p 1), lastCore := none,
    reported := false, top := [], tasks := t1 }

/-- Offer a packet to a queue: the status word that LAUNCH lands (R236, R237). -/
def State.offer (s : State) (q : BitVec 6) (p : BitVec 1024) (asid : BitVec 16) (oor : Bool := false) : State × Word :=
  match s.launchCheck q p asid oor with
  | (0, foot) =>
    ({ s with launches := s.launches.set s.nextLid.toNat (s.newLaunch q p asid foot), nextLid := s.nextLid + 1 },
     BitVec.ofNat 64 (s.nextLid.toNat * 2 ^ 32))
  | (st, _) => (s, BitVec.ofNat 64 st)

/-! ### Terminal states and counters (R231, R232, R404) -/

/-- An arrival at a graph or job counter: the counter, and whether it fires (R232). -/
def Ctr.arrive (k : Ctr) (done : Bool) : Ctr × Bool :=
  let k1 := if done then { k with done := k.done + 1 } else { k with failed := k.failed + 1 }
  let fires := !k1.fired && k1.target != 0 && k1.done + k1.failed == k1.target
  ({ k1 with fired := k1.fired || fires }, fires)

/-- A counter before COUNTER_SET. -/
def Ctr.fresh : Ctr := { done := 0, failed := 0, target := 0, fired := false }

/-- A phase counter before COUNTER_SET. -/
def PhCtr.fresh : PhCtr := { count := 0, target := 0, phno := 0, clk := false, boundary := false, heldArr := 0 }

/-- An arrival at a phase counter: held back once the counter has reached its target (R256, R257). -/
def State.phaseArrive (s : State) (n : Nat) : State :=
  let k := s.phases.getD n PhCtr.fresh
  let k1 := if k.boundary || (k.target != 0 && decide (k.target.toNat ≤ k.count.toNat)) then { k with heldArr := k.heldArr + 1 } else { k with count := k.count + 1 }
  { s with phases := s.phases.set n k1 }

/-- The completion record of a launch whose counter fires (R404). -/
def State.completionRecord (s : State) (lid : Nat) : State :=
  match s.launches.get? lid with
  | none => s
  | some l =>
    if l.done + l.failed = pktTasks l.pkt ∧ l.reported = false then
      (s.modLaunch lid fun l => { l with reported := true, mark0 := false, mark1 := false, cred0 := 0, cred1 := 0 }).reportTask
        lid 0
        { typ := 0x20, cause := 0, kind := 6, core := l.lastCore, lid := 0, tidx := 0, tag := 0, addr := 0, pc := 0,
          aux0 := l.done + l.failed * 2 ^ 32, aux1 := pktTasks l.pkt % 2 ^ 24 }
    else s

/-- The lenders that grant bits name stop lending to a core: AS, WB, SM and CR are cleared (R252), which repairs them (R315). -/
def State.freeLenders (s : State) (c : CoreId) (g : BitVec 3) : State :=
  (List.range 3).foldl (fun s i =>
    if g.getLsbD i then s.modCore (lenderCore c i) fun k =>
      if k.lender = some c then
        { k with lender := none, acs := [], wb := [], sm := [], cr := []
                 bad := k.bad.filter fun u => !([Space.acs, .wb, .sm, .cr].contains u.1) }
      else k
    else s) s

/-- A task reaches a terminal state: its arrivals (R231). -/
def State.taskEnds (s : State) (lid i : Nat) (st : TaskSt) : State :=
  match s.launches.get? lid with
  | none => s
  | some l =>
    if (l.task i).st.terminal then s
    else
      let ok := st == .done
      let s0 := match (l.task i).area with
        | some a =>
          (match a.emerg with
            | some (site, c, v) => { s.freeLenders c v.grants with emergUsed := s.emergUsed.filter fun n => n != site }
            | none => s)
        | none => s
      let s1 := (s0.modTask lid i fun t => { t with st := st, area := none }).modLaunch lid fun l =>
        if ok then { l with done := l.done + 1 } else { l with failed := l.failed + 1 }
      let s2 := match pktGraph l.pkt with
        | none => s1
        | some n =>
          let k := (s1.graphs.getD n Ctr.fresh).arrive ok
          let s2 := { s1 with graphs := s1.graphs.set n k.1 }
          if k.2 then s2.graphSees n else s2
      let s3 := match pktJob l.pkt with
        | none => s2
        | some n => { s2 with jobs := s2.jobs.set n ((s2.jobs.getD n Ctr.fresh).arrive ok).1 }
      let s4 := match pktPhase l.pkt with
        | none => s3
        | some n => s3.phaseArrive n
      s4.completionRecord lid

/-- A task ends: its terminal state and its arrivals, once every record of it is written (R402). -/
def State.taskCloses (s : State) (lid i : Nat) (st : TaskSt) : State :=
  if s.recsWait lid i then s.modTask lid i fun t => if t.closing.isSome then t else { t with closing := some st }
  else s.taskEnds lid i st

/-- The record of a task that ends without success (R403), then its terminal state. -/
def State.taskFails (s : State) (lid i : Nat) (st : TaskSt) (cause : Cause) (core : Option CoreId)
    (addr pc aux0 aux1 : Nat) : State :=
  (s.reportTask lid i
    { typ := 0x01, cause := cause.code, kind := 0, core := core, lid := 0, tidx := 0, tag := 0, addr := addr, pc := pc,
      aux0 := aux0, aux1 := aux1 }).taskCloses lid i st

/-- A stream of a task that has left its core: nothing of it is in flight. -/
def Stream.left (t : Stream) : Stream := { Stream.reset with live := t.live, pc := t.pc }

/-- A context whose task has left its core: its registers stand until a bind loads them (R397), its tokens, its allotments, its
commands and its region entries are gone (R33, R296, R300; log entry 129). -/
def Ctx.left (x : Ctx) : Ctx :=
  { x with
    strC := x.ownC.left, strV := x.strV.left, strM := x.strM.left, strX := x.strX.left, shadow := none
    tok := [], fresh := [], rsv := [], oorFresh := false, oorNow := none, vNow := 0, mNow := 0, lend := 0, dict := []
    regs := [], firedNow := [], tags := [], tagOps := [], vLanded := [], cmds := [], mnest := none, tables := []
    allot := Ctx.reset.allot, failed := none }

/-- A core's running slot becomes empty; its lenders stay. -/
def State.vacate (s : State) (c : CoreId) : State :=
  s.modCore c fun k =>
    { k with run := none, ctx := k.ctx.left, frz := none, gov := false, save := none, restore := none, stop := none }

/-- A core's running slot becomes empty: allotments and lenders are released, tokens discarded (R33, R247, R252). -/
def State.freeCore (s : State) (c : CoreId) : State :=
  match (s.core c).run with
  | some r => (s.freeLenders c r.grants).vacate c
  | none => s.vacate c

/-- The collective receives of a core's task are closed with it. -/
def State.dropRecvs (s : State) (c : CoreId) : State := { s with recvs := s.recvs.filter fun r => r.core != c }

/-- The core of a task that has ended is freed: at once if it is DONE; one that ends CANCELLED or FAILED keeps it until its
records are written (R252, R402). -/
def State.leaveCore (s : State) (c : CoreId) (lid i : Nat) (st : TaskSt) : State :=
  if st ≠ .done ∧ s.recsWait lid i = true then
    s.modCore c fun k => { k with stop := some .ended, save := none, restore := none }
  else (s.dropRecvs c).freeCore c

/-- Whether the task on a core has ended there, and is task i of a launch. -/
def Core.endedHere (k : Core) (lid i : Nat) : Bool :=
  k.stop == some .ended && (match k.run with
    | some r => r.lid.toNat == lid && r.tidx.toNat == i
    | none => false)

/-- A task whose terminal state waits for its records reaches it once they are written (R402). -/
def State.closeTask (s : State) (lid i : Nat) (t : Task) : State :=
  match t.closing with
  | none => s
  | some st =>
    if s.recsWait lid i then s
    else
      let s1 := s.taskEnds lid i st
      match t.core with
      | some c => if (s.core c).endedHere lid i then (s1.dropRecvs c).freeCore c else s1
      | none => s1

/-- Every task whose terminal state waits for its records. -/
def State.closeTasks (s : State) : State :=
  s.launches.foldl (fun s e => e.2.tasks.foldl (fun s t => s.closeTask e.1 t.1 t.2) s) s

/-- The task on a core ends there in a terminal state, with its record if it is not DONE. -/
def State.endOnCore (s : State) (c : CoreId) (st : TaskSt) (cause : Option (Cause × Nat × Nat)) : State :=
  match (s.core c).run with
  | none => s
  | some r =>
    if (s.core c).stop = some .ended then s else
    let x := s.ctx c
    let s1 := s.modLaunch r.lid.toNat fun l => { l with lastCore := some c }
    let s2 := match cause with
      | some (k, addr, pc) =>
        s1.taskFails r.lid.toNat r.tidx.toNat st k (some c) addr pc x.nestCause.toNat x.nestAddr.toNat
      | none => s1.taskCloses r.lid.toNat r.tidx.toNat st
    s2.leaveCore c r.lid.toNat r.tidx.toNat st

/-! ### LAUNCH (R236) -/

/-- What LAUNCH does with the packet it has read: it is offered to the queue, and the status lands after the answer. -/
def launchOffer (d : SReg) (q : BitVec 6) (p : BitVec 1024) (c : CoreId) (s : State) (oor : Bool := false)
    (note : State → State := id) : Res :=
  if s.memHold then .wait otherWait fun s => (note s).send c .c (.launch q p oor)
  else
    let r := s.offer q p (s.asidOf c) oor
    .ok (Done.one r.1 (New.plain 1 (.scalar d r.2)))

/-- The packet behind bytes. -/
def pktOfBytes (bs : List Byte) : BitVec 1024 := BitVec.ofNat 1024 (leNat bs)

/-- A LAUNCH whose offer has been sent: the status once the queue has answered. -/
def launchSent (d : SReg) (c : CoreId) (s : State) (k : CoreId → State → Res) : Res :=
  match (s.ctx c).strC.sent with
  | some t =>
    match t.req with
    | .launch _ _ _ =>
      match t.ans with
      | some (.word w) => .ok (Done.one s (New.plain 1 (.scalar d w)))
      | _ => .wait otherWait fun s => s
    | _ => k c s
  | none => k c s

/-- LAUNCH (R236). -/
def execLaunch (r : Ring) (d a b : SReg) (s : State) : Host.Outcome State Fault Refusal :=
  issue .c r (fun c s =>
    launchSent d c s fun c s =>
      let x := s.ctx c
      if (x.sr a).toNat % 64 ≠ 0 then .fault .misaligned (x.sr a) []
      else ask .c (.blk (s.vaOf c (x.sr a)) 128) (fun s an =>
        match an with
        | .fault k addr => .faultIn s k addr []
        | .bytes bs => launchOffer d ((x.sr b).setWidth 6) (pktOfBytes bs) c s
        | _ => .ok (Done.plain s)) c s) s

/-- LAUNCH of a packet in CR (R236). Of a packet that CR holds only in part the bytes beyond read as zeros (R44), and the packet is
checked as it then stands; one that CR holds no byte of is refused (log entry 153). -/
def execLaunchCr (r : Ring) (d a b : SReg) (s : State) : Host.Outcome State Fault Refusal :=
  issue .c r (fun c s =>
    launchSent d c s fun c s =>
      let x := s.ctx c
      let as := span (x.sr a).toNat 128
      if (x.sr a).toNat % 64 ≠ 0 then .fault .misaligned (x.sr a) []
      else match s.badOf c 0 .cr as with
        | some q => .fault .uncorrectableData (BitVec.ofNat 64 q) []
        | none =>
          let note := fun (s : State) => s.oorNote c .c .cr false (minOf (s.outOf c .cr as))
          launchOffer d ((x.sr b).setWidth 6) (pktOfBytes (s.localBytes c 0 .cr (x.sr a).toNat 128)) c
            (note s) ((s.outOf c .cr as).length == 128) note) s

/-- LAUNCH_ACCEPTANCE (R237): the queue answers a LAUNCH that a C stream has sent. -/
def execLaunchAcceptance (core : CoreId) (s : State) : Host.Outcome State Fault Refusal :=
  .next (match (s.ctx core).strC.sent with
    | some t =>
      match t.req, t.ans with
      | .launch q p oor, none =>
        let r := s.offer q p (s.asidOf core) oor
        r.1.modStr core .c fun u => { u with sent := some { t with ans := some (.word r.2) } }
      | _, _ => s
    | none => s)

/-! ### CANCEL (R259, R260) -/

/-- Take a task's record out of the next slot that holds it. -/
def State.dropNext (s : State) (lid i : Nat) : State :=
  { s with cores := s.cores.map fun e =>
      match e.2.next with
      | some b =>
        if b.lid.toNat = lid ∧ b.tidx.toNat = i then (e.1, { e.2 with next := none, preload := false }) else e
      | none => e }

/-- CANCEL reaches one task: whether it was still alive, and whether its core has to stop first. -/
def State.cancelTask (s : State) (lid i : Nat) (t : Task) : State × Bool × Bool :=
  if t.closing.isSome then (s, false, false) else
  match t.st with
  | .done => (s, false, false)
  | .failed => (s, false, false)
  | .cancelled => (s, false, false)
  | .running =>
    match t.core with
    | some c => (s.modCore c fun k => { k with stop := some .cancel }, true, true)
    | none => (s, false, false)
  | .frozen =>
    match t.core with
    | some c => (s.modCore c fun k => { k with stop := some .cancel }, true, true)
    | none => (s, false, false)
  | _ => ((s.dropNext lid i).taskFails lid i .cancelled .cancelled none 0 0 0 0, true, false)

/-- CANCEL reaches a list of tasks: how many are affected, and which have to stop first. -/
def State.cancelTasks (s : State) (l : List (Nat × Nat)) : State × Nat × List (Nat × Nat) :=
  l.foldl (fun (a : State × Nat × List (Nat × Nat)) p =>
    let (s, n, w) := a
    match s.launches.get? p.1 with
    | none => a
    | some q =>
      let (s1, hit, wait) := s.cancelTask p.1 p.2 (q.task p.2)
      (s1, if hit then n + 1 else n, if wait then w ++ [p] else w)) (s, 0, [])

/-- The tasks of a launch, but for one. -/
def Launch.indices (l : Launch) (lid : Nat) (but : Option (Nat × Nat)) : List (Nat × Nat) :=
  ((List.range (pktTasks l.pkt)).map fun i => (lid, i)).filter fun p => some p != but

/-- The tasks that a CANCEL of an address space names, or its status (R230, R259). -/
def State.cancelNames (s : State) (asid : BitVec 16) (lvl : Nat) (id tidx : Word) (me : Option (Nat × Nat)) :
    Except Nat (List (Nat × Nat)) :=
  let unit := fun (lim : Nat) (f : BitVec 1024 → Option Nat) =>
    if lim ≤ id.toNat then Except.error 8
    else .ok (((s.launches.filter fun e => e.2.asid == asid && f e.2.pkt == some id.toNat).map fun e =>
      e.2.indices e.1 me).flatten)
  match lvl with
  | 0 =>
    match s.launches.get? id.toNat with
    | none => .error 8
    | some l =>
      if pktTasks l.pkt ≤ tidx.toNat then .error 8
      else if l.asid ≠ asid then .error 2
      else .ok ([(id.toNat, tidx.toNat)].filter fun p => some p != me)
  | 1 =>
    match s.launches.get? id.toNat with
    | none => .error 8
    | some l => if l.asid ≠ asid then .error 2 else .ok (l.indices id.toNat me)
  | 2 => unit 4096 pktGraph
  | 3 => unit 256 pktPhase
  | _ => unit 64 pktJob

/-- Whether a task has reached a terminal state. -/
def State.taskOver (s : State) (p : Nat × Nat) : Bool :=
  match s.launches.get? p.1 with
  | some l => (l.task p.2).st.terminal
  | none => true

/-- The task that a core runs. -/
def State.taskOf (s : State) (c : CoreId) : Option (Nat × Nat) := (s.core c).run.map fun r => (r.lid.toNat, r.tidx.toNat)

/-- CANCEL (R259): the stream is held until every affected task has been handled. -/
def cancelIssue (lvl : Nat) (d : SReg) (id tidx : Ctx → Word) (c : CoreId) (s : State) : Res :=
  let land := fun (s : State) (n st : Nat) =>
    Res.ok (Done.one s (New.plain 1 (.scalar d (BitVec.ofNat 64 (n % 2 ^ 32 * 2 ^ 32 + st)))))
  match (s.ctx c).strC.sent with
  | some t =>
    match t.req with
    | .cancel n w => if w.all s.taskOver then land s n 0 else .wait otherWait fun s => s
    | _ => .wait otherWait fun s => s
  | none =>
    match s.cancelNames (s.asidOf c) lvl (id (s.ctx c)) (tidx (s.ctx c)) (s.taskOf c) with
    | .error st => land s 0 st
    | .ok l =>
      let (s1, n, w) := s.cancelTasks l
      if w.isEmpty then land s1 n 0
      else .wait otherWait fun s =>
        let (s1, n, w) := s.cancelTasks l
        s1.send c .c (.cancel n w)

/-- CANCEL of a task (R259). -/
def execCancelTask (r : Ring) (d a b : SReg) (s : State) : Host.Outcome State Fault Refusal :=
  issue .c r (cancelIssue 0 d (fun x => x.sr a) fun x => x.sr b) s

/-- CANCEL of a launch (R259). -/
def execCancelLaunch (r : Ring) (d a : SReg) (s : State) : Host.Outcome State Fault Refusal :=
  issue .c r (cancelIssue 1 d (fun x => x.sr a) fun _ => 0) s

/-- CANCEL of a graph (R259). -/
def execCancelGraph (r : Ring) (d a : SReg) (s : State) : Host.Outcome State Fault Refusal :=
  issue .c r (cancelIssue 2 d (fun x => x.sr a) fun _ => 0) s

/-- CANCEL of a phase (R259). -/
def execCancelPhase (r : Ring) (d a : SReg) (s : State) : Host.Outcome State Fault Refusal :=
  issue .c r (cancelIssue 3 d (fun x => x.sr a) fun _ => 0) s

/-- CANCEL of a job (R259). -/
def execCancelJob (r : Ring) (d a : SReg) (s : State) : Host.Outcome State Fault Refusal :=
  issue .c r (cancelIssue 4 d (fun x => x.sr a) fun _ => 0) s

/-- Whether the task on a core has nothing left in flight beyond its streams (R330). -/
def State.drained (s : State) (c : CoreId) : Bool :=
  let k := s.core c
  k.pend.isEmpty && k.ctx.tables.isEmpty && !(s.outPkts.any fun p => p.core == c) &&
    (match k.ctx.strC.sent with
      | some t =>
        (match t.req with
          | .cancel _ _ => true
          | q => !q.mustComplete || t.ans.isSome)
      | none => true)

/-- A cancelled task ends once its engines have come to rest; a save in progress finishes first (R259, R423). -/
def State.cancelEnds (s : State) (c : CoreId) : State :=
  let saving := match (s.core c).save with
    | some v => v.done.isNone && (v.settled || !(s.ctx c).te)
    | none => false
  if (s.core c).stop = some .cancel ∧ saving = false ∧ s.enginesQuiet c = true ∧
      s.drained c = true then
    s.endOnCore c .cancelled (some (.cancelled, 0, 0))
  else s

/-- CANCEL_RELEASE (R259): a core that a CANCEL has stopped ends its task once its engine items are done. -/
def execCancelRelease (core : CoreId) (s : State) : Host.Outcome State Fault Refusal := .next (s.cancelEnds core)

/-! ### Phases (R256 to R258, R467) -/

/-- Mark what a task has issued before its arrival in the phase (R257). -/
def Ctx.markOld (x : Ctx) : Ctx :=
  { x with cmds := x.cmds.map fun k => { k with old := true }
           mnest := x.mnest.map fun n => { n with old := true }
           tables := x.tables.map fun t => { t with old := true } }

/-- PHASE (R258): one arrival, then the wait for the boundary. -/
def phaseIssue (d : SReg) (c : CoreId) (s : State) : Res :=
  match pktPhase (s.pktOf c) with
  | none => .fault .protection 0 []
  | some n =>
    let t := (s.ctx c).strC
    match t.phaseArr, t.phaseGo with
    | true, some v =>
      .ok (Done.one (s.modStr c .c fun t => { t with phaseArr := false, phaseGo := none })
        (New.plain 1 (.scalar d (v.setWidth 64))))
    | true, none => .wait 9 fun s => s
    | false, _ =>
      .wait 9 fun s =>
        ((s.phaseArrive n).modCtx c Ctx.markOld).modStr c .c fun t => { t with phaseArr := true, phaseGo := none }

/-- PHASE (R258). -/
def execPhase (r : Ring) (d : SReg) (s : State) : Host.Outcome State Fault Refusal := issue .c r (phaseIssue d) s

/-- Whether a launch names a phase counter. -/
def Launch.inPhase (l : Launch) (n : Nat) : Bool := pktPhase l.pkt == some n

/-- Whether a context has no engine command outstanding that it issued before its arrival (R257 step 2). -/
def Ctx.phaseQuiet (x : Ctx) : Bool :=
  !(x.cmds.any (·.old)) && !(x.tables.any (·.old)) &&
    (match x.mnest with
      | some n => !n.old
      | none => true)

/-- The context that a restore in progress reads from a task's slot (R416). -/
def Core.restoring (k : Core) (t : Task) : Option Ctx :=
  match k.restore, t.area with
  | some v, some a => (a.slots.get? v.slot).map (·.ctx)
  | _, _ => none

/-- Whether a core has nothing outstanding that its task issued before its arrival (R257 step 2). -/
def Core.phaseQuiet (k : Core) : Bool :=
  (!(k.ctx.ownC.phaseArr || k.ctx.strC.phaseArr) || k.pend.isEmpty) && k.ctx.phaseQuiet

/-- The context that a saved task resumes from, if it has one: in its save slot, or still in an emergency area. -/
def Task.savedCtx (t : Task) : Option Ctx :=
  if t.st = .saved ∨ (t.st = .placed ∧ t.resume = true) then
    match t.area with
    | none => none
    | some a =>
      match a.emerg, a.latest with
      | some e, _ => some e.2.2.ctx
      | none, some n => (a.slots.get? n).map (·.ctx)
      | none, none => none
  else none

/-- Whether the accesses of a phase are complete (R257 step 2), those of saved tasks and of tasks whose restore is in progress
among them. -/
def State.phaseQuiet (s : State) (n : Nat) : Bool :=
  (s.launches.all fun e => !e.2.inPhase n || e.2.tasks.all fun t => match t.2.savedCtx with
    | some x => x.phaseQuiet
    | none => true) &&
  s.counts.isEmpty && s.cores.all fun e =>
    match e.2.run with
    | some r =>
      match s.launches.get? r.lid.toNat with
      | some l => !l.inPhase n || (e.2.phaseQuiet && (match e.2.restoring (l.task r.tidx.toNat) with
        | some x => x.phaseQuiet
        | none => true))
      | none => true
    | none => true

/-- The waiting PHASEs of a context, that of a trap handler among them, are released with the new number. -/
def Ctx.phaseRelease (v : BitVec 16) (x : Ctx) : Ctx :=
  let go := fun (t : Stream) => if t.phaseArr && t.phaseGo.isNone then { t with phaseGo := some v } else t
  { x with shadow := x.shadow.map go, strC := go x.strC }

/-- Release every waiting PHASE on a counter, saved contexts included (R257, R258). A PHASE whose arrival was held back during
the boundary counts for the next phase; R257 releases every waiting PHASE, so the boundary releases it as well (log entry
80). -/
def State.phaseReleaseAll (s : State) (n : Nat) (v : BitVec 16) : State :=
  let mine := fun (k : Core) => match k.run with
    | some r => match s.launches.get? r.lid.toNat with
      | some l => l.inPhase n
      | none => false
    | none => false
  let area := fun (a : SaveArea) =>
    { a with slots := a.slots.map fun p => (p.1, { p.2 with ctx := p.2.ctx.phaseRelease v })
             emerg := a.emerg.map fun p => (p.1, p.2.1, { p.2.2 with ctx := p.2.2.ctx.phaseRelease v }) }
  { s with
    cores := s.cores.map fun e => if mine e.2 then (e.1, { e.2 with ctx := e.2.ctx.phaseRelease v }) else e
    launches := s.launches.map fun e =>
      if e.2.inPhase n then (e.1, { e.2 with tasks := e.2.tasks.map fun t => (t.1, { t.2 with area := t.2.area.map area }) })
      else e }

/-- Whether every island holds the trim that a frequency needs (R467). -/
def State.trimsHold (s : State) (f : BitVec 8) : Bool :=
  (List.range 544).all fun i => decide ((Config.trimNeed f i).toNat ≤ (s.trims.getD i 0).toNat)

/-- The clock change of a boundary with CLK set, or DEFER (R467, R479). -/
def State.clockStep (s : State) : State :=
  if s.mgmt.clkReq = s.mgmt.clkCur then s
  else if s.fwStage = .idle ∧ s.trimsHold s.mgmt.clkReq = true then
    { s with mgmt := { s.mgmt with clkCur := s.mgmt.clkReq } }
  else { s with mgmt := { s.mgmt with clkDefer := true, clkNow := true } }

/-- Place of a level's USED field in CAPS (R314). -/
def usedAt (lvl : Nat) : Nat :=
  match lvl with
  | 1 => 31 | 2 => 23 | 3 => 17 | _ => 12

/-- The number under which a bank, or a through-silicon-via lane, is marked and replaced (R312). -/
def spareNum (u : SpareUnit) : Nat :=
  match u with
  | .bank n => n.toNat
  | .lane n => 2 ^ 14 + n.toNat

/-- The group of a unit: 32 banks, or 16 lanes, share a spare (R312). -/
def spareGroup (u : Nat) : Nat := if u < 2 ^ 14 then u / 32 else 2 ^ 14 + (u - 2 ^ 14) / 16

/-- The failing banks and lanes of the dies with a task in a phase are copied into their spares and switched over (R312, R313). -/
def State.switchSpares (s : State) (n : Nat) : State :=
  let dies := s.cores.filterMap fun (e : Nat × Core) =>
    match e.2.run with
    | some r =>
      match s.launches.get? r.lid.toNat with
      | some l => if l.inPhase n then some (e.1 / 128) else none
      | none => none
    | none => none
  let go := s.failing.filter fun b => dies.contains b.1
  { s with
    failing := s.failing.filter fun b => !dies.contains b.1
    sparedGroups := s.sparedGroups ++ go.map fun b => (b.1, b.2.1, spareGroup b.2.2)
    mgmt := { s.mgmt with caps := (go.filter fun b => b.2.2 < 2 ^ 14).foldl (fun (m : FMap Word) b =>
      m.put b.1 (m.getD b.1 0 + BitVec.ofNat 64 (2 ^ usedAt b.2.1)) 0) s.mgmt.caps } }

/-- A phase boundary starts when COUNT reaches TARGET, and completes once the accesses of the phase are complete (R257). -/
def State.phaseBoundary (s : State) (n : Nat) : State :=
  match s.phases.get? n with
  | none => s
  | some k =>
    if k.target = 0 ∨ (k.boundary = false ∧ k.count.toNat < k.target.toNat) then s
    else
      let s0 := { s with phases := s.phases.set n { k with boundary := true } }
      if !s0.phaseQuiet n then s0
      else
        let s1 := (if k.clk then s0.clockStep else s0).switchSpares n
        let v := k.phno + 1
        ({ s1 with phases := s1.phases.set n { k with count := k.heldArr, heldArr := 0, phno := v, boundary := false } }
          ).phaseReleaseAll n v

/-- PHASE_BOUNDARY (R257): takes effect when the counter has reached its target. -/
def execPhaseBoundary (ctr : BitVec 8) (s : State) : Host.Outcome State Fault Refusal := .next (s.phaseBoundary ctr.toNat)

/-! ### Other task events -/

/-- ESTIM (R418). -/
def execEstim (r : Ring) (a : SReg) (s : State) : Host.Outcome State Fault Refusal :=
  issue .c r (fun c s => .ok (Done.plain (s.modCtx c fun x =>
    { x with est := (x.sr a).setWidth 32, estNs := s.devTime }))) s

/-- The queue level of a launch. -/
def State.queueLevel (s : State) (l : Launch) : Nat :=
  match s.queues.get? l.q.toNat with
  | some q => q.level.toNat
  | none => 0

/-- Whether a task is ready (R241): it has no bind record, its gates are open, and START has passed. -/
def State.ready (s : State) (l : Launch) (i : Nat) : Bool :=
  let t := l.task i
  decide (i < pktTasks l.pkt) && (t.st == .queued || t.st == .saved) && t.closing.isNone && l.gatesOpen i &&
    decide (pktStart l.pkt ≤ s.devTime.toNat)

/-- The levels by which age raises a task of a queue of a level: one for each 10 ms, up to level 7 (R241). -/
def ageRise (level age : Nat) : Nat := min (7 - level) (age / 10000000)

/-- AGE_LEVEL_RISE (R241): a task is considered at the level that its age gives it. -/
def execAgeLevelRise (lid : BitVec 32) (tidx : BitVec 24) (s : State) : Host.Outcome State Fault Refusal :=
  .next (match s.launches.get? lid.toNat with
    | none => s
    | some l => s.modTask lid.toNat tidx.toNat fun t => { t with ageLevel := ageRise (s.queueLevel l) t.age })

/-- A launch whose ready tasks have become older by d ns (R241). -/
def State.agedLaunch (s : State) (d : Nat) (l : Launch) : Launch :=
  { l with tasks := (List.range (pktTasks l.pkt)).foldl (fun (m : FMap Task) i =>
      if s.ready l i then
        m.set i { l.task i with age := (l.task i).age + d, ageLevel := ageRise (s.queueLevel l) ((l.task i).age + d) }
      else m) l.tasks }

/-- Ready tasks grow older by d ns (R241). -/
def State.ageTasks (s : State) (d : Nat) : State :=
  { s with launches := s.launches.map fun e => if e.2.reported then e else (e.1, s.agedLaunch d e.2) }

/-- Envelope of a heat class, in mW (R250). -/
def envelope (heat : Nat) : Nat :=
  match heat with
  | 0 => 4000 | 1 => 5500 | 2 => 11000 | _ => 14000

/-- GOVERNOR_WINDOW (R251): the governor ends the µs that has passed, once; its average, in mW, holds M and V in the µs that
runs, or releases them. A window that it has not ended holds nothing (log entry 81). -/
def execGovernorWindow (core : CoreId) (mw : BitVec 32) (s : State) : Host.Outcome State Fault Refusal :=
  let us := s.devTime.toNat / 1000
  .next (if (s.core core).run.isSome && (s.core core).govUs != us + 1 then
      s.modCore core fun k =>
        { k with gov := decide (envelope (pktHeat (s.pktOf core)) < mw.toNat), govUs := us + 1, govMw := mw.toNat }
    else s)

/-- A window of the governor begins: nothing is held before the one that has passed is ended (R251). -/
def State.freeGovernors (s : State) : State := { s with cores := s.cores.map fun e => (e.1, { e.2 with gov := false }) }

/-- The task fails LATE_START (R249). -/
def State.lateTask (s : State) (lid i : Nat) : State :=
  match s.launches.get? lid with
  | none => s
  | some l =>
    let st := (l.task i).st
    if pktStart l.pkt ≠ 0 ∧ pktStart l.pkt ≤ s.devTime.toNat ∧ (st = .queued ∨ st = .placed) ∧ (l.task i).closing = none ∧
        l.gatesOpen i = false ∧ i < pktTasks l.pkt then
      (s.dropNext lid i).taskFails lid i .failed .lateStart none (pktStart l.pkt) 0 0 0
    else s

/-- Every task of a timed launch that START has found with a gate closed (R249). -/
def State.lateTasks (s : State) : State :=
  (s.launches.filter fun e => pktStart e.2.pkt != 0 && decide (pktStart e.2.pkt ≤ s.devTime.toNat) && !e.2.reported).foldl
    (fun s e => (List.range (pktTasks e.2.pkt)).foldl (fun s i => s.lateTask e.1 i) s) s

/-- LATE_START (R249). -/
def execLateStart (lid : BitVec 32) (tidx : BitVec 24) (s : State) : Host.Outcome State Fault Refusal :=
  .next (s.lateTask lid.toNat tidx.toNat)

end Sys2Proof.Machine
end

