-- ==== Sys2Proof/Machine/Place.lean ====
section
/-!
DEFINITION. Machine/Place.lean: placement, preload, withdrawal, bind commit and the end of a task (R24, R33, R68, R238 to
R255, R301, R324, R325, R413, R470).
-/
namespace Sys2Proof.Machine

/-! ### Save areas (R413) -/

/-- Round up to 64 KiB. -/
def round64 (n : Nat) : Nat := (n + 0xFFFF) / 0x10000 * 0x10000

/-- Lengths of sections 1 to 10 of a save slot (R413). -/
def sectLens (a : Allot) (grants : BitVec 3) : List Nat :=
  [a.ofs, a.acs, a.wb, a.xb, a.sm, 0x10000, a.t1] ++ (List.range 3).map fun i => if grants.getLsbD i then 0x130000 else 0

/-- Slot offsets and lengths of sections: each begins on a 64 KiB boundary. -/
def sectTable (off : Nat) (l : List Nat) : List (Nat × Nat) :=
  match l with
  | [] => []
  | n :: t => (if n = 0 then 0 else off, n) :: sectTable (off + round64 n) t

/-- Slot offsets and lengths of sections 0 to 10 (R413). -/
def sections (a : Allot) (grants : BitVec 3) : List (Nat × Nat) := (0x10000, 0x10000) :: sectTable 0x20000 (sectLens a grants)

/-- Size of a save slot. -/
def slotSize (a : Allot) (grants : BitVec 3) : Nat := 0x20000 + (sectLens a grants).foldl (fun n l => n + round64 l) 0

/-- The save areas of an address space's tasks that are not terminal: base and size. -/
def State.areas (s : State) (asid : BitVec 16) : List (Nat × Nat) :=
  ((s.launches.filter fun e => e.2.asid == asid).map fun e =>
    e.2.tasks.filterMap fun t =>
      match t.2.area with
      | some a => if t.2.st.terminal then none else some (a.base.toNat, 2 * a.slotSize)
      | none => none).flatten

/-- Carve a save area out of an address space's save range, lowest place first (R413). -/
def State.carve (s : State) (asid : BitVec 16) (size : Nat) : Option SaveArea :=
  match s.space asid with
  | none => none
  | some p =>
    let l := s.areas asid
    let starts := p.saveBase :: l.map fun a => a.1 + a.2
    let fits := fun b => decide (p.saveBase ≤ b) && decide (b + 2 * size ≤ p.saveBase + p.saveSize) &&
      l.all fun a => decide (a.1 + a.2 ≤ b) || decide (b + 2 * size ≤ a.1)
    match minOf (starts.filter fits) with
    | none => none
    | some b =>
      some { base := BitVec.ofNat 72 b, slotSize := size, latest := none, serial := 0, slots := [], emerg := none }

/-! ### Placement (R241, R243, R250, R254, R255) -/

/-- The lenders of a heat class at a core (R250). -/
def lendersOf (heat : Nat) (c : CoreId) : List CoreId :=
  match heat with
  | 2 => [c + 1]
  | 3 => [c + 1, c + 16, c + 17]
  | _ => []

/-- Whether PLACE allows a core, given the cores of the launch's other tasks (R234). -/
def Launch.placeOk (l : Launch) (c : CoreId) : Bool :=
  let p := pktPcore l.pkt
  let others := l.tasks.filterMap fun t => if t.2.st == .queued then none else t.2.core
  match pktMode l.pkt with
  | 1 => others.all fun k => k == c
  | 2 => others.all fun k => clusterOf k == clusterOf c
  | 3 => others.all fun k => k.toNat / 128 == c.toNat / 128
  | 4 => c.toNat == p
  | 5 => clusterOf c == clusterOf (BitVec.ofNat 9 p)
  | 6 => c.toNat / 128 == p / 128
  | _ => true

/-- Whether a heat class may run at a core (R250, R254). -/
def State.classOk (s : State) (heat : Nat) (c : CoreId) : Bool :=
  heatPosition heat c && (decide (heat < 2) || !(s.core c).regrown) &&
    (lendersOf heat c).all fun k => !(s.core k).regrown

/-- The launch of a bind record. -/
def State.recLaunch (s : State) (b : BindRec) : Option Launch := s.launches.get? b.lid.toNat

/-- Whether a record names task i of a launch. -/
def BindRec.names (b : BindRec) (lid i : Nat) : Bool := b.lid.toNat == lid && b.tidx.toNat == i

/-- The envelope of a record's task, in mW (R250). -/
def State.recPower (s : State) (b : BindRec) : Nat :=
  match s.recLaunch b with
  | some l => envelope (pktHeat l.pkt)
  | none => 0

/-- The lenders that a record's task needs, at 0.3 W each (R255). -/
def State.recLenders (s : State) (b : BindRec) : Nat :=
  match s.recLaunch b with
  | some l => 300 * (lendersOf (pktHeat l.pkt) 0).length
  | none => 0

/-- The parked records of tasks that still wait for them, but for those of task i of a launch. -/
def State.parkedElse (s : State) (lid i : Nat) : List (CoreId × BindRec) :=
  (s.parked.map (·.2)).filter fun p => !p.2.names lid i && (match s.recLaunch p.2 with
    | some l => (l.task p.2.tidx.toNat).st == .queued
    | none => false)

/-- The envelopes of running and placed tasks, of their lenders, and of the lenders of a task in an emergency area, in mW (R252,
R255); tasks with a parked record count as placed, but for task i of a launch (log entry 151). -/
def State.powerUse (s : State) (lid i : Nat) : Nat :=
  s.cores.foldl (fun n e =>
    n + (match e.2.run with
      | some b => s.recPower b
      | none => 0) + (match e.2.next with
      | some b => s.recPower b + s.recLenders b
      | none => 0) + (if e.2.lender.isSome then 300 else 0)) 0 +
  (s.parkedElse lid i).foldl (fun n p => n + s.recPower p.2 + s.recLenders p.2) 0

/-- Whether a task's holders count on a die: on that of its last commit while it is not terminal, through saving and requeuing
(R324), and once it is placed on that of its core. -/
def Task.holdsOn (t : Task) (die : Nat) : Bool :=
  !t.st.terminal && ((t.passed && (match t.t2home with
    | some k => k / 32 == die
    | none => false)) || (t.st == .placed && (match t.core with
    | some c => c.toNat / 128 == die
    | none => false)))

/-- Footprint holders of a die, those of placed tasks and of parked records among them, but for task i of a launch (R324; log
entry 151). -/
def State.holderCount (s : State) (die lid i : Nat) : Nat :=
  s.launches.foldl (fun n e => e.2.tasks.foldl (fun n t =>
    if !(e.1 == lid && t.1 == i) && t.2.holdsOn die then n + e.2.foot.length else n) n) 0 +
  (s.parkedElse lid i).foldl (fun n p => if p.1.toNat / 128 = die then n + (match s.recLaunch p.2 with
    | some l => l.foot.length
    | none => 0) else n) 0

/-- Physical range of T3 or T4 of a die (R277). -/
def layerRange (die lvl : Nat) : Nat × Nat :=
  ((if lvl = 3 then 0x090000000000 else 0x080000000000) + die * 2 ^ 30, 2 ^ 30)

/-- Whether an address space maps a layer of a die (R313); only T3 and T4 are mapped. -/
def State.mapsLayer (s : State) (asid : Nat) (die lvl : Nat) : Bool :=
  match s.spaces.get? asid with
  | none => false
  | some a =>
    let r := layerRange die lvl
    decide (3 ≤ lvl) && (s.leaves a.root walkLevels 0 0 (2 ^ 72)).any fun l =>
      decide (l.2.1 < r.1 + r.2) && decide (r.1 < l.2.1 + l.2.2)

/-- Whether a launch needs T3 or T4 of a die, by its footprint or its mappings (R313). -/
def State.needsLayer (s : State) (l : Launch) (die lvl : Nat) : Bool :=
  let sp : Space := if lvl = 3 then .t3 else .t4
  (l.foot.any fun f => f.spc == sp && f.base / 2 ^ 32 % 4 == die) || s.mapsLayer l.asid.toNat die lvl

/-- Whether every layer of a die that a launch needs is in service (R313). -/
def State.layersOn (s : State) (l : Launch) (die : Nat) : Bool :=
  let on := fun (lvl : Nat) => s.layers.getD (die * 4 + (lvl - 1)) .normal == .normal
  s.levelsOn l.pkt die && (on 2 || !(l.foot.any fun f => f.spc == .t2)) && (on 3 || !s.needsLayer l die 3) &&
    (on 4 || !s.needsLayer l die 4)

/-- Whether no task of a launch with a larger index than i has committed on a core, unless task i has committed before (R245). -/
def Launch.inOrder (l : Launch) (c : CoreId) (i : Nat) : Bool :=
  (l.task i).passed || (match l.top.get? c.toNat with
    | some n => decide (n < i)
    | none => true)

/-- Whether the next slot of a core can take a record (R252, R419). -/
def Core.slotFree (k : Core) : Bool := !k.dead && k.next.isNone && k.lender.isNone

/-- Whether a task may have a record at a core (R234, R245, R250 to R254, R313, R415). -/
def State.recordOk (s : State) (c : CoreId) (lid i : Nat) : Bool :=
  match s.launches.get? lid with
  | none => false
  | some l =>
    let t := l.task i
    let heat := pktHeat l.pkt
    t.closing.isNone && l.inOrder c i && decide (i < pktTasks l.pkt) &&
    (t.st == .queued || (t.st == .saved && (match t.area with
      | some a => a.emerg.isNone && a.latest.isSome
      | none => false))) &&
    (t.passed || (List.range i).all fun j => (l.task j).st != .queued || (l.task j).passed) &&
    l.placeOk c && s.classOk heat c && s.layersOn l (c.toNat / 128) &&
    (decide (heat < 2) || s.mgmt.usable.getLsbD 1)

/-- Whether Botra may write a record of a task at a core: outside a quiescent point, within the core budget and the holder records
of the die, and while no record of the address space waits for room (R255, R324, R402, R479). -/
def State.roomFor (s : State) (c : CoreId) (lid i : Nat) : Bool :=
  match s.launches.get? lid with
  | none => false
  | some l =>
    let heat := pktHeat l.pkt
    s.fwStage == .idle &&
    decide (s.powerUse lid i + envelope heat + 300 * (lendersOf heat c).length ≤ 2816000) &&
    decide (s.holderCount (c.toNat / 128) lid i + l.foot.length ≤ 65536) &&
    (s.queues.all fun q => q.2.asid != l.asid || q.2.waiting.all fun r => decide (s.dieRecs (recDie r) < 256))

/-- Whether Botra may write a record of a task into a core's next slot. -/
def State.canPlace (s : State) (c : CoreId) (lid i : Nat) : Bool :=
  (s.core c).slotFree && s.recordOk c lid i && s.roomFor c lid i

/-- How long ago a launch was accepted, as an order: the smaller, the earlier (R236, R241). -/
def State.acceptRank (s : State) (lid : Nat) : Nat := (lid + 2 ^ 32 - s.nextLid.toNat) % 2 ^ 32

/-- Whether a launch is the head of its queue: the earliest accepted of those in it (R241). -/
def State.isHead (s : State) (lid : Nat) (l : Launch) : Bool :=
  s.launches.all fun e => e.1 == lid || e.2.q != l.q || !e.2.inQueue || decide (s.acceptRank lid < s.acceptRank e.1)

/-- The task of a launch that is placed next. -/
def Launch.nextTask (l : Launch) : Option Nat := (List.range (pktTasks l.pkt)).find? fun i => (l.task i).st == .queued

/-- The level at which a task is considered (R241). -/
def State.levelAt (s : State) (l : Launch) (i : Nat) : Nat := min 7 (s.queueLevel l + (l.task i).ageLevel)

/-- Whether Botra considers the head of another queue before task i of a launch: at a higher level, or accepted earlier at the
same one (R241). -/
def State.sooner (s : State) (e : Nat × Launch) (j : Nat) (lid : Nat) (l : Launch) (i : Nat) : Bool :=
  decide (s.levelAt l i < s.levelAt e.2 j) ||
    (s.levelAt l i == s.levelAt e.2 j && decide (s.acceptRank e.1 < s.acceptRank lid))

/-- Whether Botra may write a bind record for a task into a core's next slot: the task fits there, its launch is the head of its
queue, and no head that is considered sooner fits anywhere (R241). A saved task is in no queue any more (log entry 128). -/
def State.mayPlace (s : State) (c : CoreId) (lid i : Nat) : Bool :=
  match s.launches.get? lid with
  | none => false
  | some l =>
    s.canPlace c lid i && ((l.task i).st == .saved || (s.isHead lid l && s.launches.all fun e =>
      e.1 == lid || !e.2.inQueue || !(s.isHead e.1 e.2) || (match e.2.nextTask with
        | none => true
        | some j => !(s.sooner e j lid l i) || !((List.range 512).any fun k => s.canPlace (BitVec.ofNat 9 k) e.1 j))))

/-- The run budget that the partition-policy record sets for a queue (R243). -/
def State.budgetOf (s : State) (q : BitVec 6) : BitVec 32 := s.budgets.getD q.toNat 0

/-- Whether PLACE allows a die for a launch, whatever the cores of its other tasks (R234). -/
def pktDieOk (p : BitVec 1024) (die : Nat) : Bool := decide (pktMode p < 4) || pktPcore p / 128 == die

/-- The address that a LEVEL_SHED record names: the first declared region of a level, 0 for an allotment or a mapping (log entry
130). -/
def Launch.shedAddr (l : Launch) : Nat :=
  match l.foot.find? fun f => f.spc != .virt with
  | some f => f.base
  | none => 0

/-- Placement refuses a task that needs a level which no die that PLACE allows offers: it is reported with LEVEL_SHED and ends
FAILED (R313, R392). -/
def State.shedRefuses (s : State) (lid i : Nat) : State :=
  match s.launches.get? lid with
  | none => s
  | some l =>
    if s.fwStage == .idle && decide (i < pktTasks l.pkt) && (l.task i).st == .queued && (l.task i).closing.isNone &&
        !((List.range 4).any fun d => pktDieOk l.pkt d && s.layersOn l d) then
      s.taskFails lid i .failed .levelShed none l.shedAddr 0 0 0
    else s

/-- Write the bind record of a task into the next slot of a core, with the budget of its queue (R243). -/
def State.writeRecord (s : State) (core : CoreId) (lid : BitVec 32) (tidx : BitVec 24) : State :=
  match s.launches.get? lid.toNat with
  | none => s
  | some l =>
    let b : BindRec := { lid := lid, tidx := tidx, grants := heatGrants (pktHeat l.pkt), budget := s.budgetOf l.q }
    (s.modCore core fun k => { k with next := some b, preload := false }).modTask lid.toNat tidx.toNat fun t =>
      { t with st := .placed, core := some core, resume := t.st == .saved }

/-- PLACEMENT (R241, R243, R313): Botra writes a bind record, with the budget of the queue, into the next slot of a core, or
refuses a task whose level is shed. -/
def execPlacement (core : CoreId) (lid : BitVec 32) (tidx : BitVec 24) (budget : BitVec 32) (s : State) :
    Host.Outcome State Fault Refusal :=
  .next (
    if s.mayPlace core lid.toNat tidx.toNat &&
        (s.launches.get? lid.toNat).map (fun l => s.budgetOf l.q) == some budget then s.writeRecord core lid tidx
    else s.shedRefuses lid.toNat tidx.toNat)

/-- PRELOAD (R246): no architectural state changes. -/
def execPreload (core : CoreId) (s : State) : Host.Outcome State Fault Refusal :=
  .next (s.modCore core fun k => { k with preload := k.next.isSome && k.run.isSome })

/-- Take the record of a next slot back: its task returns to the ready set (R246). -/
def State.withdraw (s : State) (c : CoreId) : State :=
  match (s.core c).next with
  | none => s
  | some b =>
    (s.modCore c fun k => { k with next := none, preload := false }).modTask b.lid.toNat b.tidx.toNat fun t =>
      if t.st = .placed then { t with st := if t.resume then .saved else .queued, resume := false } else t

/-- WITHDRAWAL (R246, R406): outside a quiescent point, in which the management core stands (R478). -/
def execWithdrawal (core : CoreId) (s : State) : Host.Outcome State Fault Refusal :=
  .next (if s.fwStage == .idle then s.withdraw core else s)

/-- PARKED_RECORD_WRITE (R301): Botra writes an entry of a die's parked-record table, outside a quiescent point, as it may write
any record (R255, R324, R402); VALID clear empties it. -/
def execParkedRecordWrite (die : BitVec 2) (i : BitVec 10) (core : CoreId) (rec : BitVec 128) (s : State) :
    Host.Outcome State Fault Refusal :=
  let key := die.toNat * 1024 + i.toNat
  let b : BindRec := { lid := rec.extractLsb' 96 32, tidx := rec.extractLsb' 72 24, grants := rec.extractLsb' 69 3,
                       budget := rec.extractLsb' 32 32 }
  .next (if s.fwStage != .idle then s
    else if rec.getLsbD 0 then
      if s.roomFor core b.lid.toNat b.tidx.toNat then { s with parked := s.parked.set key (core, b) } else s
    else { s with parked := s.parked.del key, parkedGo := s.parkedGo.filter fun k => k != key })

/-- Whether a parked record can move (R234, R243, R250, R254, R301): the slot is free, its task may have a record at the core, and
the grants and the budget are those of its class and its queue. -/
def State.parkedFits (s : State) (c : CoreId) (b : BindRec) : Bool :=
  match s.launches.get? b.lid.toNat with
  | none => false
  | some l =>
    (s.core c).slotFree && s.recordOk c b.lid.toNat b.tidx.toNat && (l.task b.tidx.toNat).st == .queued && b.grants == heatGrants (pktHeat l.pkt) &&
      b.budget == s.budgetOf l.q

/-- Move a parked record into the next slot of its core, or hold it until it fits there; a record whose task waits no longer is
dropped (R301). -/
def State.moveParked (s : State) (key : Nat) : State :=
  let go : State := { s with parkedGo := s.parkedGo.filter fun k => k != key }
  match s.parked.get? key with
  | none => go
  | some (c, b) =>
    let waits : Bool := match s.launches.get? b.lid.toNat with
      | some l => (l.task b.tidx.toNat).st == .queued && decide (b.tidx.toNat < pktTasks l.pkt)
      | none => false
    if !waits then { go with parked := s.parked.del key }
    else if s.parkedFits c b then
      (({ go with parked := s.parked.del key }).modCore c fun k => { k with next := some b, preload := false }).modTask
        b.lid.toNat b.tidx.toNat fun t => { t with st := .placed, core := some c }
    else s

/-- Records that START actions hold move once they may (R301). -/
def State.movesParked (s : State) (l : List Nat) : State := l.foldl State.moveParked s

/-! ### Conflicts and conditions of a commit (R243, R324, R325, R470) -/

/-- Whether two ranges overlap with conflicting kinds; ranges of T2 only within one cluster (R324). -/
def holdsClash (near : Bool) (a b : Hold) : Bool :=
  a.sp == b.sp && (a.sp != .t2 || near) && decide (a.base < b.base + b.len) && decide (b.base < a.base + a.len) &&
    kindsConflict a.kind b.kind

/-- Whether an earlier task of the address space that is not terminal conflicts with task i of a launch at a core. -/
def State.earlierClash (s : State) (lid i : Nat) (c : CoreId) : Bool :=
  match s.launches.get? lid with
  | none => false
  | some l =>
    let mine := l.holds i
    !mine.isEmpty && s.launches.any fun e =>
      e.2.asid == l.asid && (e.1 == lid || decide (s.acceptRank e.1 < s.acceptRank lid)) && !e.2.foot.isEmpty &&
        (List.range (if e.1 = lid then i else pktTasks e.2.pkt)).any fun j =>
          let t := e.2.task j
          let near := t.passed && t.t2home == some (clusterOf c)
          !t.st.terminal && (e.2.holds j).any fun h => mine.any fun m => holdsClash near h m

/-- The standing holders of an address space (R325). -/
def State.standing (s : State) (asid : BitVec 16) : List Hold :=
  ((s.ingest.filter fun q => q.2.asid == asid && decide (q.2.k ≠ 0)).map fun q =>
    { sp := .virt, base := q.2.base.toNat, len := 2 ^ q.2.k, kind := 3 }) ++
  ((s.subs.filter fun q => q.2.asid == asid && decide (q.2.kind ≠ 0)).map fun q =>
    { sp := .virt, base := q.2.base.toNat, len := 2 ^ q.2.k, kind := 3 }) ++
  ((s.recvs.filter fun r => r.asid == asid).map fun r =>
    { sp := .virt, base := r.dst, len := r.len, kind := 3 })

/-- Whether a standing holder conflicts with task i of a launch (R325). -/
def State.standingClash (s : State) (l : Launch) (i : Nat) : Bool :=
  (s.standing l.asid).any fun h => (l.holds i).any fun m => holdsClash false h m

/-- Whether a subscription holds commits of a heat class on a die (R470). -/
def State.commitHeld (s : State) (heat die : Nat) : Bool :=
  s.subs.any fun e =>
    e.2.hold && e.2.above && decide (e.2.hclass.toNat ≤ heat) &&
      (match e.2.kind with
        | 1 => true
        | 2 => e.2.index == die
        | 3 => e.2.index / 128 == die
        | 4 => e.2.index / 136 == die
        | _ => false)

/-- A powered core (R472). -/
def Pwr.on : Pwr → Bool
  | .active => true
  | .hold _ => true
  | _ => false

/-- The power state of a core now: a hold of 2 µs has ended in retention (R472). -/
def State.pwrOf (s : State) (c : CoreId) : Pwr :=
  match (s.core c).pwr with
  | .hold t => if t + 2000 ≤ s.devTime.toNat then .retained else .hold t
  | p => p

/-- A core that can be lent: empty and not lending (R252, R254). -/
def Core.lendable (k : Core) : Bool := k.run.isNone && k.lender.isNone && !k.regrown && !k.dead

/-- The conditions of a commit but for power (R243, R244, R245, R249, R254, R324, R325, R470). -/
def State.commitReady (s : State) (c : CoreId) : Bool :=
  match (s.core c).next with
  | none => false
  | some b =>
    match s.launches.get? b.lid.toNat with
    | none => false
    | some l =>
      let i := b.tidx.toNat
      let t := l.task i
      let heat := pktHeat l.pkt
      (s.core c).run.isNone && (s.core c).lender.isNone && !(s.core c).dead && t.st == .placed &&
      decide (pktStart l.pkt ≤ s.devTime.toNat) && l.gatesOpen i &&
      s.classOk heat c && b.grants == heatGrants heat && l.inOrder c i &&
      (!l.each || t.passed || (List.range i).all fun j => (l.task j).passed) &&
      !s.earlierClash b.lid.toNat i c && !s.standingClash l i &&
      !s.commitHeld heat (c.toNat / 128) &&
      (List.range 3).all fun k => !b.grants.getLsbD k || (s.core (lenderCore c k)).lendable

/-- The lenders that a record names. -/
def BindRec.lenders (b : BindRec) (c : CoreId) : List CoreId :=
  ((List.range 3).filter fun k => b.grants.getLsbD k).map (lenderCore c)

/-- Whether a commit can happen now (R243, R472). -/
def State.commitOk (s : State) (c : CoreId) : Bool :=
  s.commitReady c && (s.pwrOf c).on &&
    (match (s.core c).next with
      | some b => (b.lenders c).all fun k => (s.pwrOf k).on
      | none => false)

/-! ### Bind (R24, R68, R238, R239, R243) -/

/-- Read n blocks of a size one after another until one fails: the bytes read, and the failure with its block's address. -/
def State.readBlocks (s : State) (c : CoreId) (asid : BitVec 16) (va size n : Nat) : List Byte × Option (Cause × Nat) :=
  match n with
  | 0 => ([], none)
  | n + 1 =>
    match s.devRead (some c) asid va size with
    | .error (k, _) => ([], some (k, va))
    | .ok bs =>
      let (t, f) := s.readBlocks c asid (va + size) size n
      (bs ++ t, f)

/-- 32-bit words of bytes. -/
def wordsOf (n : Nat) (bs : List Byte) : List Nat := (List.range n).map fun i => leNat ((bs.drop (4 * i)).take 4)

/-- The argument block and the dictionary: the bytes for CR, the entries, and the first failing read (R68, R238, R239). -/
def State.bindReads (s : State) (c : CoreId) (asid : BitVec 16) (p : BitVec 1024) :
    List Byte × FMap (BitVec 32) × Option (Cause × Nat) :=
  let (args, f) := if pktField p 0x20 8 = 0 then (List.replicate 4096 0, none)
    else s.readBlocks c asid (pktAddr p 0x20) 64 64
  match f with
  | some x => (args, [], some x)
  | none =>
    if pktField p 0x18 8 = 0 then (args, [], none)
    else
      let whole := s.devRead (some c) asid (pktAddr p 0x18) 4096
      let (bs, g) := match whole with
        | .ok bs => (bs, none)
        | .error _ => s.readBlocks c asid (pktAddr p 0x18) 4 1024
      let ws := wordsOf (bs.length / 4) bs
      (args, ws.zipIdx.foldl (fun (m : FMap (BitVec 32)) w => m.put w.2 (BitVec.ofNat 32 w.1) 0) [], g)

/-- The base of a stream's section in an image (R94). -/
def Image.sec (g : Image) (e : Strm) : VAddr :=
  match e with
  | .c => g.secC | .v => g.secV | .m => g.secM | .x => g.secX

/-- A stream at its entry (R23, R243). -/
def streamAt (g : Image) (p : BitVec 1024) (e : Strm) : Stream :=
  if (pktStreams p).contains e then
    { Stream.reset with live := .live, pc := BitVec.ofNat 72 ((g.sec e).toNat + 2 * pktEntry p e) }
  else Stream.reset

/-- The context of a task at bind (R24, R243, R409). -/
def bindCtx (g : Image) (l : Launch) (b : BindRec) (c : CoreId) (dict : FMap (BitVec 32)) (now : Word) : Ctx :=
  let x := ((Ctx.reset.setSr 1 (b.tidx.setWidth 64)).setSr 2 (BitVec.ofNat 64 (pktTasks l.pkt))).setSr 3 (c.setWidth 64)
  { x with allot := (pktAllot l.pkt).rounded, lend := b.grants, dict := dict, est := BitVec.ofNat 32 (pktEst l.pkt),
           estNs := now, strC := streamAt g l.pkt .c, strV := streamAt g l.pkt .v, strM := streamAt g l.pkt .m,
           strX := streamAt g l.pkt .x }

/-- Write bytes into CR from address 0: their parity is made anew. -/
def Core.putCr (k : Core) (bs : List Byte) : Core :=
  { k with cr := bs.zipIdx.foldl (fun m b => m.put b.2 b.1 Config.freshByte) k.cr
           bad := k.bad.filter fun u => !(u.1 == .cr && decide (u.2 < bs.length)) }

/-- The stream that reports a fault of the bind: C, or the lowest-numbered live stream (R68, R239). -/
def bindStream (p : BitVec 1024) : Strm :=
  match pktStreams p with
  | e :: _ => e
  | [] => .c

/-- Bind a task that starts from its entries. -/
def State.bind (s : State) (c : CoreId) (l : Launch) (b : BindRec) : State :=
  let g := (s.images.get? (pktField l.pkt 0x00 8 % 65536)).getD
    { gen := 0, asid := 0, features := 0, secC := 0, secV := 0, secM := 0, secX := 0, spans := [] }
  let (args, dict, f) := s.bindReads c l.asid l.pkt
  let s1 := s.modCore c fun k => { k.putCr args with ctx := bindCtx g l b c dict s.devTime }
  match f with
  | none => s1
  | some (k, a) => s1.takeFault c (bindStream l.pkt) k (BitVec.ofNat 64 a) false

/-- Commit the record of a core's next slot (R243): a saved task starts its restore instead of binding anew. A save area is
carved out at the first commit only (R413). -/
def State.commit (s : State) (c : CoreId) : State :=
  match (s.core c).next with
  | none => s
  | some b =>
    match s.launches.get? b.lid.toNat with
    | none => s
    | some l =>
      let t := l.task b.tidx.toNat
      let area := match t.area with
        | some a => some a
        | none => if pktCkpt l.pkt && !t.passed then s.carve l.asid (slotSize (pktAllot l.pkt).rounded b.grants) else none
      let s1 := (s.modCore c fun k => { k with run := some b, next := none, preload := false, pwr := .active }).modTask
        b.lid.toNat b.tidx.toNat fun t =>
          { t with st := .running, core := some c, t2home := some (clusterOf c), passed := true, mark0 := false, mark1 := false, commitNs := s.devTime.toNat,
                   budget := b.budget, area := area, resume := false }
      let s1 := s1.modLaunch b.lid.toNat fun l =>
        { l with top := l.top.set c.toNat (max b.tidx.toNat (l.top.getD c.toNat 0)) }
      let s2 := (b.lenders c).foldl (fun s k => s.modCore k fun q => { q with lender := some c, pwr := .active }) s1
      if t.resume then
        let slot := match t.area with
          | some a => a.latest.getD 0
          | none => 0
        s2.modCore c fun k => { k with ctx := Ctx.reset, restore := some { slot := slot, sect := 1, blk := 0, regrown := false, paused := none } }
      else s2.bind c l b

/-- BIND_COMMIT (R243). -/
def execBindCommit (core : CoreId) (s : State) : Host.Outcome State Fault Refusal :=
  .next (if s.commitOk core then s.commit core else s)

/-! ### The end of a task (R33, R330) -/

/-- Whether a stream has ended and nothing of it is in flight. -/
def Stream.ended (t : Stream) : Bool := t.live != .live && t.queue.isEmpty

/-- Whether the task on a core has ended (R33). -/
def State.ended (s : State) (c : CoreId) : Bool :=
  let k := s.core c
  k.run.isSome && k.frz.isNone && k.save.isNone && k.restore.isNone && k.stop.isNone && !k.ctx.te &&
    k.ctx.strC.ended && k.ctx.strV.ended && k.ctx.strM.ended && k.ctx.strX.ended && k.ctx.enginesIdle && s.drained c

/-- TASK_END (R33, R231, R351): DONE, or FAILED with the cause of the first item that failed after its stream had exited. -/
def State.taskEnd (s : State) (c : CoreId) : State :=
  if s.ended c then
    match (s.ctx c).failed with
    | none => s.endOnCore c .done none
    | some (k, a) => s.endOnCore c .failed (some (k, a.toNat, 0))
  else s

/-- TASK_END (R33). -/
def execTaskEnd (core : CoreId) (s : State) : Host.Outcome State Fault Refusal := .next (s.taskEnd core)

end Sys2Proof.Machine
end

