-- ==== Sys2Proof/Machine/Preempt.lean ====
section
/-!
DEFINITION. Machine/Preempt.lean: handler entry and the report of a frozen task as events, pre-emption, checkpoints,
restores, budgets, regrowing and the freeze of the package (R398, R399, R405 to R423).
-/
namespace Sys2Proof.Machine

/-! ### Handler entry and frozen tasks (R398, R399) -/

/-- A core's stop settles: its C instruction has nothing left to complete, and the handler is entered, or the task left to
the management core (R393, R398). -/
def State.settle (s : State) (c : CoreId) : State :=
  match (s.core c).frz with
  | some f =>
    if !f.report && !(s.core c).settling then
      (s.modCore c fun k => { k with frz := some { f with settled := true } }).enterHandler c
    else s
  | none => s

/-- HANDLER_ENTRY (R398). -/
def execHandlerEntry (core : CoreId) (s : State) : Host.Outcome State Fault Refusal := .next (s.settle core)

/-- The report of a frozen task (R399): FAILED with its cause, or with NESTED_TRAP. -/
def State.frozenReport (s : State) (c : CoreId) : State :=
  match (s.core c).frz with
  | none => s
  | some f =>
    let x := s.ctx c
    if f.report && f.cause != .coreFrozen && s.enginesQuiet c && s.drained c && s.fwStage == .idle &&
        (s.core c).stop.isNone then
      if x.tnest then s.endOnCore c .failed (some (.nestedTrap, x.nestAddr.toNat, x.trapPc.toNat))
      else s.endOnCore c .failed (some (f.cause, f.addr.toNat, x.trapPc.toNat))
    else s

/-- FROZEN_TASK_REPORT (R399). -/
def execFrozenTaskReport (core : CoreId) (s : State) : Host.Outcome State Fault Refusal := .next (s.frozenReport core)

/-! ### Estimates and save slots (R409, R412, R413) -/

/-- The current remaining estimate, in µs (R409). -/
def Ctx.estNow (x : Ctx) (now : Word) : Nat := (x.est.toNat * 1000 - (now.toNat - x.estNs.toNat)) / 1000

/-- A stream as it is saved: at its stopping point, its word to be fetched again (R393, R412). -/
def Stream.saved (t : Stream) : Stream := { t.stopped with sent := none, held := none, join := none, fence := false }

/-- A context as it is saved (R411, R412). -/
def Ctx.saved (x : Ctx) (now : Word) : Ctx :=
  { x with
    strC := x.strC.saved, strV := x.strV.saved, strM := x.strM.saved, strX := x.strX.saved
    tok := x.fresh.foldl (fun m q => m.put q.1 (m.getD q.1 0 + q.2) 0) x.tok, fresh := [], oorFresh := false, oorNow := none, vNow := 0, mNow := 0
    est := BitVec.ofNat 32 (x.estNow now), estNs := now
    cmds := x.cmds.map fun k => { k with nest := k.nest.map fun p => { p with waited := 0 } }
    mnest := x.mnest.map fun n => { n with waited := 0 } }

/-- The context that a CKPT saves: its instruction has issued, and its queue holds d := 1 with one slot to go (R417). -/
def Ctx.afterCkpt (x : Ctx) (d : SReg) (r : Ring) : Ctx :=
  let x := (x.iff r.wp fun x => x.consume (inQueue .c true) 1).iff r.wn fun x => x.consume (inQueue .c false) 1
  let x := (x.iff r.sp fun x => x.reserve (outQueue .c true)).iff r.sn fun x => x.reserve (outQueue .c false)
  let t := x.strC
  let l : Landing := { left := 1, dest := .scalar d 1, vfl := 0, mfl := 0, sp := r.sp, sn := r.sn, tookP := r.wp,
                       tookN := r.wn, pc := t.pc, dict := t.fromDict }
  { x with strC := { t with queue := t.queue ++ [l], pc := nextPc t } }

/-- Uncorrectable units of a core and of its lenders, with what they belong to. -/
def State.savedBad (s : State) (c : CoreId) (g : BitVec 3) : List (Nat × Space × Nat) :=
  ((s.core c).bad.map fun u => (0, u.1, u.2)) ++
  ((List.range 3).map fun i =>
    if g.getLsbD i then
      ((s.core (lenderCore c i)).bad.filter fun u => u.1 == .ofs || u.1 == .xb).map fun u => (i + 1, u.1, u.2)
    else []).flatten

/-- The register record of a core's task (section 0 of R413). -/
def State.sectionZero (s : State) (c : CoreId) (v : Save) (serial : BitVec 32) : Saved :=
  let x := s.ctx c
  let x1 := match v.dest with
    | some (d, r) => x.afterCkpt d r
    | none => x
  { ctx := x1.saved s.devTime, serial := serial, heat := BitVec.ofNat 2 (pktHeat (s.pktOf c)), grants := x.lend,
    bad := s.savedBad c x.lend }

/-- n bytes of a core's buffer as they stand. -/
def Core.raw (k : Core) (sp : Space) (a n : Nat) : List Byte :=
  let b := k.buf sp
  (span a n).map fun i => b.getD i Config.freshByte

/-- The space of section 1 to 7 (R413). -/
def sectSpace (j : Nat) : Space :=
  match j with
  | 1 => .ofs | 2 => .acs | 3 => .wb | 4 => .xb | 5 => .sm | 6 => .cr | _ => .t1

/-- The byte at an offset of section 0 (R413): it shows the 64 core region entries in their layout, an unused slot as zeros (R296);
where, and every other byte, is a free value. -/
def Ctx.section0 (x : Ctx) (serial : BitVec 32) (off : Nat) : Byte :=
  let o := Config.section0Regs % 0xF000
  if o ≤ off ∧ off < o + 64 * 40 then
    match x.regs.get? ((off - o) / 40) with
    | some r => r.bytes.getD ((off - o) % 40) 0
    | none => 0
  else Config.section0Byte serial.toNat off

/-- n bytes of section j of a context, from an offset of the section (R413). -/
def State.sectBytes (s : State) (c : CoreId) (serial : BitVec 32) (j off n : Nat) : List Byte :=
  if j = 0 then (span off n).map ((s.ctx c).section0 serial)
  else if j < 8 then (s.core c).raw (sectSpace j) off n
  else
    let k := s.core (lenderCore c (j - 8))
    let b0 := k.buf .ofs
    let b1 := k.buf .xb
    (span off n).map fun a => if a < 0x30000 then b0.getD a Config.freshByte else b1.getD (a - 0x30000) Config.freshByte

/-- Place n bytes at an offset of a header. -/
def field (off v : Nat) : Nat := v * 2 ^ (8 * off)

/-- The first 4 KiB of a slot (R413). -/
def slotHeader (lid tidx image serial stage : Nat) (emerg complete : Bool) (done heat grants : Nat)
    (sects : List (Nat × Nat)) : List Byte :=
  let s := (sects.zipIdx).foldl (fun n p =>
    n + field (0x40 + 16 * p.2) p.1.1 + field (0x48 + 16 * p.2) p.1.2) 0
  leBytes 4096 (0x0001 + Config.lgen.toNat * 2 ^ 16 + field 0x008 lid + field 0x00C tidx + field 0x010 image +
    field 0x018 (complete.toNat + 2 * emerg.toNat + 256 * stage + serial * 2 ^ 32) + field 0x020 done +
    field 0x028 (heat * 2 ^ 16 + grants) + s)

/-- Offsets and lengths of the sections of an emergency area: sections 1 to 7 stand at their maximum sizes (R415). -/
def emergSections (a : Allot) : List (Nat × Nat) :=
  let starts := [0x20000, 0x50000, 0xD0000, 0x2D0000, 0x3D0000, 0x3F0000, 0x400000]
  let lens := [a.ofs, a.acs, a.wb, a.xb, a.sm, 0x10000, a.t1]
  (0x10000, 0x10000) :: ((starts.zip lens).map fun p => if p.2 = 0 then (0, 0) else p) ++ [(0, 0), (0, 0), (0, 0)]

/-- The row of the site at which a core stands: its own, or its spare's (R2, R419). -/
def State.siteRow (s : State) (c : CoreId) : Nat :=
  match s.spares.find? fun p => p.2 == some c with
  | some p => p.1 % 8
  | none => c.toNat / 16 % 8

/-- The number of a core's site: die × 136 + row × 17 + physical column. -/
def State.siteOf (s : State) (c : CoreId) : Nat :=
  c.toNat / 128 * 136 + s.siteRow c * 17 + (s.core c).pcol.toNat

/-- The emergency area of a site (R415). -/
def State.emergArea (s : State) (site : Nat) : Nat :=
  (s.mgmt.emBase.getD (site / 136) 0).toNat / 2 ^ 31 % 2 ^ 21 * 2 ^ 31 + site % 136 * 0xC00000

/-- The save area of a core's task. -/
def State.areaOf (s : State) (c : CoreId) : Option SaveArea :=
  match (s.core c).run, s.launchOf c with
  | some r, some l => (l.task r.tidx.toNat).area
  | _, _ => none

/-- Whether the task on a core may be checkpointed (R413). -/
def State.canCkpt (s : State) (c : CoreId) : Bool := pktCkpt (s.pktOf c) && (s.areaOf c).isSome

/-- The slot that does not hold the latest checkpoint (R413). -/
def SaveArea.other (a : SaveArea) : Nat :=
  match a.latest with
  | some 0 => 1
  | _ => 0

/-- The virtual address of a slot. -/
def SaveArea.slot (a : SaveArea) (n : Nat) : Nat := a.base.toNat + n * a.slotSize

/-- The sections that a save writes. -/
def State.saveSects (s : State) (c : CoreId) (emerg : Bool) : List (Nat × Nat) :=
  let x := s.ctx c
  if emerg then emergSections x.allot else sections x.allot x.lend

/-- STAGE once section j is done (R413): sections 0 to 7 count even where their length is 0, windows only where they are granted
(R430). -/
def stageOf (l : List (Nat × Nat)) (j : Nat) : Nat :=
  if j < 8 then j else (List.range 11).foldl (fun m i => if m < i && i ≤ j && (l.getD i (0, 0)).2 != 0 then i else m) 7

/-- The last section of a context: section 7, or its last window (R413, R430). -/
def lastSect (l : List (Nat × Nat)) : Nat := stageOf l 10

/-! ### Records of this chapter (R403) -/

/-- A record of the task on a core. -/
def State.taskRecord (s : State) (c : CoreId) (typ cause kind addr aux0 aux1 : Nat) : State :=
  match (s.core c).run with
  | some r =>
    s.reportTask r.lid.toNat r.tidx.toNat
      { typ := typ, cause := cause, kind := kind, core := some c, lid := 0, tidx := 0, tag := 0, addr := addr, pc := 0,
        aux0 := aux0, aux1 := aux1 }
  | none => s

/-! ### The stages of a save (R411, R413 to R415, R417) -/

/-- A save that begins at STOP (R411). -/
def Save.start (why : SaveWhy) (slot : Nat) (dest : Option (SReg × Ring)) : Save :=
  { why := why, settled := false, slot := slot, sect := 0, blk := 0, since := 0, paused := false, emerg := false,
    dest := dest, done := none }

/-- Begin a save of the task on a core. -/
def State.startSave (s : State) (c : CoreId) (why : SaveWhy) (dest : Option (SReg × Ring)) : State :=
  match s.areaOf c with
  | none => s
  | some a => s.modCore c fun k => { k with save := some (Save.start why a.other dest) }

/-- Whether every write of the cycle to a core's storage and to its lenders' windows stands there (R53). -/
def State.storesStand (s : State) (c : CoreId) : Bool :=
  (s.core c).wlog.isEmpty && (List.range 3).all fun i => !((s.ctx c).granted i) || (s.core (lenderCore c i)).wlog.isEmpty

/-- SETTLE ends: every nest stands between steps, everything else is complete and stands in the buffers, and WRITE begins (R411,
R376, R428). -/
def State.saveSettle (s : State) (c : CoreId) : State :=
  match (s.core c).save with
  | none => s
  | some v =>
    if !v.settled && v.done.isNone && !(s.ctx c).te && (s.core c).frz.isNone && !(s.core c).settling && s.enginesQuiet c &&
        s.drained c && s.storesStand c then
      s.modCore c fun k => { k with save := some { v with settled := true, since := s.devTime.toNat } }
    else s

/-- CHECKPOINT_SETTLE (R411). -/
def execCheckpointSettle (core : CoreId) (s : State) : Host.Outcome State Fault Refusal := .next (s.saveSettle core)

/-- Write a part of a slot: at its virtual address, or at the physical address of an emergency area (R414, R415). A sealed region
refuses it, which pauses the save as a fault does (R309; log entry 155). -/
def State.slotWrite (s : State) (asid : BitVec 16) (phys : Bool) (addr : Nat) (bs : List Byte) : Except (Cause × Nat) State :=
  if phys then .ok ((s.memWrite addr bs).writtenOver [(addr, bs.length)])
  else match s.vRange none asid .w addr bs.length with
    | .error e => .error e
    | .ok l =>
      if s.sealedHit l then .error (.sealedWrite, addr) else .ok ((s.writePieces l bs).writtenOver l)

/-- Where a save writes its slot. -/
def State.saveBase (s : State) (c : CoreId) (v : Save) : Nat :=
  if v.emerg then s.emergArea (s.siteOf c)
  else match s.areaOf c with
    | some a => a.slot v.slot
    | none => 0

/-- The serial number of the next checkpoint (R413). -/
def State.nextSerial (s : State) (c : CoreId) : BitVec 32 :=
  match s.areaOf c with
  | some a => a.serial + 1
  | none => 0

/-- The header that a save writes at a stage. -/
def State.saveHeader (s : State) (c : CoreId) (v : Save) (stage : Nat) (complete : Bool) : List Byte :=
  let (lid, tidx) := match (s.core c).run with
    | some r => (r.lid.toNat, r.tidx.toNat)
    | none => (0, 0)
  slotHeader lid tidx (pktField (s.pktOf c) 0x00 8) (s.nextSerial c).toNat stage (complete && v.emerg) complete
    (if complete then s.devTime.toNat else 0) (pktHeat (s.pktOf c)) (s.ctx c).lend.toNat (s.saveSects c v.emerg)

/-- What a save writes next, and the save as it stands after it. Steps 0 to 12 of sect: the header, sections 0 to 10, the
header with COMPLETE set. -/
structure SavePiece where
  addr : Nat
  bytes : List Byte
  sect : Nat
  next : Save

/-- The next piece of a save. -/
def State.savePiece (s : State) (c : CoreId) (v : Save) : SavePiece :=
  let base := s.saveBase c v
  let l := s.saveSects c v.emerg
  if v.sect = 0 then
    { addr := base, bytes := s.saveHeader c v 0 false, sect := 0, next := { v with sect := 1, blk := 0 } }
  else if v.sect < 12 then
    let j := v.sect - 1
    let (off, len) := l.getD j (0, 0)
    let at' := v.blk * 0x10000
    if at' < len then
      { addr := base + off + at', bytes := s.sectBytes c (s.nextSerial c) j at' (min 0x10000 (len - at')), sect := j
        next := { v with blk := v.blk + 1 } }
    else
      { addr := base, bytes := s.saveHeader c v (stageOf l j) false, sect := j
        next := { v with sect := v.sect + 1, blk := 0 } }
  else
    { addr := base, bytes := s.saveHeader c v (lastSect l) true, sect := lastSect l, next := { v with sect := 13 } }

/-- A task's run time so far goes to its account, and it becomes SAVED (R408, R411). -/
def State.taskSaved (s : State) (c : CoreId) : State :=
  match (s.core c).run with
  | none => s
  | some r =>
    (s.modLaunch r.lid.toNat fun l => { l with lastCore := some c }).modTask r.lid.toNat r.tidx.toNat fun t =>
      { t with st := .saved, core := none, ranNs := t.ranNs + (s.devTime.toNat - t.commitNs), resume := false }

/-- Change the save area of the task on a core. -/
def State.modArea (s : State) (c : CoreId) (f : SaveArea → SaveArea) : State :=
  match (s.core c).run with
  | none => s
  | some r => s.modTask r.lid.toNat r.tidx.toNat fun t => { t with area := t.area.map f }

/-- A slot that has become COMPLETE is the latest checkpoint (R411). -/
def State.slotLatest (s : State) (c : CoreId) (v : Save) : State :=
  let z := s.sectionZero c v (s.nextSerial c)
  s.modArea c fun a => { a with latest := some v.slot, serial := a.serial + 1, slots := a.slots.set v.slot z }

/-- The SAVED record (R403). -/
def State.savedRecord (s : State) (c : CoreId) (v : Save) : State :=
  match s.areaOf c with
  | none => s
  | some a => s.taskRecord c 0x11 0 5 (a.slot v.slot) a.slotSize (v.emerg.toNat + a.serial.toNat * 2 ^ 32)

/-- The save of a CKPT has ended: its status waits for the instruction's issue; a cancelled task has none (R417, R423). -/
def State.ckptDone (s : State) (c : CoreId) (v : Save) (n : Nat) : State :=
  s.modCore c fun k => { k with save := if k.stop.isSome then none else some { v with done := some n } }

/-- RELEASE (R411), or the end of an emergency save (R415), or of a CKPT (R417). A cancelled task's save ends here, and
the task ends CANCELLED after it (R423). -/
def State.saveRelease (s : State) (c : CoreId) (v : Save) : State :=
  if v.emerg then
    let site := s.siteOf c
    let z := s.sectionZero c v (s.nextSerial c)
    let s1 := (s.modArea c fun a => { a with serial := a.serial + 1, emerg := some (site, c, z) }).savedRecord c v
    let s2 := { s1 with emergUsed := s1.emergUsed ++ [site] }
    if (s.core c).stop = some .cancel then s2.modCore c fun k => { k with save := none }
    else (s2.taskSaved c).vacate c
  else
    let s1 := (s.slotLatest c v).savedRecord c v
    if v.why = .ckpt then s1.ckptDone c v 0
    else if (s.core c).stop = some .cancel then s1.modCore c fun k => { k with save := none }
    else (s1.taskSaved c).freeCore c

/-- One step of WRITE (R411, R413, R414): the header, a 64 KiB block of a section, or RELEASE after the last of them. -/
def State.saveStep (s : State) (c : CoreId) : State :=
  match (s.core c).save with
  | none => s
  | some v =>
    if !v.settled || v.paused || v.done.isSome || !s.storesStand c || ((s.core c).frz.isSome && v.why != .recover) then s
    else if v.sect = 13 then s.saveRelease c v
    else
      let p := s.savePiece c v
      match s.slotWrite (s.asidOf c) v.emerg p.addr p.bytes with
      | .ok s1 => s1.modCore c fun k => { k with save := some p.next }
      | .error (k, a) =>
        (s.modCore c fun q => { q with save := some { v with paused := true } }).taskRecord c 0x13 0 5 a k.code p.sect

/-- CHECKPOINT_WRITE (R413, R414). -/
def execCheckpointWrite (core : CoreId) (s : State) : Host.Outcome State Fault Refusal :=
  .next (match (s.core core).save with
    | some v => if v.sect = 13 then s else s.saveStep core
    | none => s)

/-- CHECKPOINT_RELEASE (R411). -/
def execCheckpointRelease (core : CoreId) (s : State) : Host.Outcome State Fault Refusal :=
  .next (match (s.core core).save with
    | some v => if v.sect = 13 then s.saveStep core else s
    | none => s)

/-- The task of a save that cannot finish: killed without a rerun and FAILED with SAVE_ABORTED (R415); with CORE_FROZEN if the
save was to recover it (R419). -/
def State.saveAbort (s : State) (c : CoreId) (v : Save) : State :=
  if v.why = .recover then s.endOnCore c .failed (some (.coreFrozen, 0, 0))
  else s.endOnCore c .failed (some (.saveAborted, (s.savePiece c v).addr, 0))

/-- The emergency path (R415): the whole context is written afresh into the site's emergency area, if that is free. -/
def State.saveEmergency (s : State) (c : CoreId) (v : Save) : State :=
  let site := s.siteOf c
  if v.emerg || s.emergUsed.contains site then s.saveAbort c v
  else
    (s.modCore c fun k =>
      { k with save := some { v with emerg := true, sect := 0, blk := 0, paused := false, since := s.devTime.toNat } }).taskRecord
      c 0x14 0 5 (s.emergArea site) (stageOf (s.saveSects c v.emerg) (v.sect - 2)) 0

/-- HANGWD.PERIOD in ns: 0 acts as 2^32 µs (R415). -/
def State.hangNs (s : State) : Nat := (if s.mgmt.hangWd = 0 then 2 ^ 32 else s.mgmt.hangWd.toNat) * 1000

/-- The hang watchdog (R415): it does not count during the quiescent point (R479), and not once COMPLETE is set; for a CKPT the
save ends with status 3 (R417). -/
def State.hangCheck (s : State) (c : CoreId) : State :=
  match (s.core c).save with
  | none => s
  | some v =>
    if v.settled && v.done.isNone && v.sect != 13 && s.fwStage == .idle && decide (v.since + s.hangNs ≤ s.devTime.toNat) then
      if v.why = .ckpt then s.ckptDone c v 3
      else s.saveEmergency c v
    else s

/-- HANG_WATCHDOG (R415). -/
def execHangWatchdog (core : CoreId) (s : State) : Host.Outcome State Fault Refusal := .next (s.hangCheck core)

/-- Write many parts of a slot, all or none. -/
def State.slotWrites (s : State) (asid : BitVec 16) (l : List (Nat × List Byte)) : Option State :=
  match l with
  | [] => some s
  | (a, bs) :: t =>
    match s.slotWrite asid false a bs with
    | .error _ => none
    | .ok s1 => s1.slotWrites asid t

/-- The blocks of a context's sections as they go into a slot. -/
def State.sectBlocks (s : State) (c : CoreId) (serial : BitVec 32) (base : Nat) (l : List (Nat × Nat)) : List (Nat × List Byte) :=
  ((l.zipIdx).map fun p =>
    (List.range ((p.1.2 + 0xFFFF) / 0x10000)).map fun b =>
      (base + p.1.1 + b * 0x10000, s.sectBytes c serial p.2 (b * 0x10000) (min 0x10000 (p.1.2 - b * 0x10000)))).flatten

/-- Bytes of an emergency area that a copy of it reads: the sections of the saved context (R415). -/
def emergReads (area : Nat) (a : Allot) : List (Nat × Nat) := ((emergSections a).filter fun p => p.2 != 0).map fun p => (area + p.1, p.2)

/-- The lowest byte with an uncorrectable error among the bytes that a copy of an emergency area reads (R315). -/
def State.emergBad (s : State) (area : Nat) (a : Allot) : Option Nat :=
  if s.bad.isEmpty then none else minOf (((emergReads area a).map fun p => (span p.1 p.2).filter s.paBad).flatten)

/-- The saved context whose windows Botra copies as they stand now, with their error marks. -/
def State.emergSaved (s : State) (c : CoreId) (z : Saved) : Saved :=
  { z with bad := z.bad.filter (fun u => u.1 == 0) ++ (s.savedBad c z.grants).filter fun u => u.1 != 0 }

/-- What Botra writes into the slot that is not the latest, address by address: the header, incomplete, the sections of the site's
emergency area, the windows as they stand, and the header, complete (R414, R415). -/
def State.emergPieces (s : State) (lid i : Nat) (l : Launch) (a : SaveArea) (site : Nat) (c : CoreId) (z : Saved) :
    List (Nat × List Byte) :=
  let base := a.slot a.other
  let area := s.emergArea site
  let sects := sections z.ctx.allot z.grants
  let from' := emergSections z.ctx.allot
  let head := fun complete => slotHeader lid i (pktField l.pkt 0x00 8) a.serial.toNat (lastSect sects) true complete
    (if complete then s.devTime.toNat else 0) z.heat.toNat z.grants.toNat sects
  let parts := ((sects.zipIdx).map fun p =>
    if p.2 < 8 then
      let src := (from'.getD p.2 (0, 0)).1
      (List.range ((p.1.2 + 0xFFFF) / 0x10000)).map fun b =>
        (base + p.1.1 + b * 0x10000, s.memRead (area + src + b * 0x10000) (min 0x10000 (p.1.2 - b * 0x10000)))
    else
      (List.range ((p.1.2 + 0xFFFF) / 0x10000)).map fun b =>
        (base + p.1.1 + b * 0x10000, s.sectBytes c a.serial p.2 (b * 0x10000) (min 0x10000 (p.1.2 - b * 0x10000)))).flatten
  [(base, head false)] ++ parts ++ [(base, head true)]

/-- EMERGENCY_COPY (R415): Botra copies the emergency area and the windows into the task's slot. An area whose bytes have an
uncorrectable error is not delivered (R315): the task ends FAILED, as one whose restore meets the error does (R416; log entry
155). -/
def State.emergCopy (s : State) (lid i : Nat) : State :=
  match s.launches.get? lid with
  | none => s
  | some l =>
    match (l.task i).area with
    | none => s
    | some a =>
      match a.emerg with
      | none => s
      | some (site, c, z) =>
        if s.fwStage ≠ .idle ∨ (l.task i).st ≠ .saved ∨ (l.task i).closing ≠ none then s
        else
          match s.emergBad (s.emergArea site) z.ctx.allot with
          | some q =>
            (s.reportTask lid i
              { typ := 0x01, cause := Cause.uncorrectableData.code, kind := 5, core := none, lid := 0, tidx := 0, tag := 0,
                addr := q, pc := 0, aux0 := 0, aux1 := 0 }).taskCloses lid i .failed
          | none =>
          match s.slotWrites l.asid (s.emergPieces lid i l a site c z) with
          | none => s
          | some s1 =>
            let s2 := s1.freeLenders c z.grants
            { s2 with emergUsed := s2.emergUsed.filter fun n => n != site }.modTask lid i fun t =>
              { t with area := some { a with latest := some a.other, slots := a.slots.set a.other (s.emergSaved c z), emerg := none } }

/-- EMERGENCY_COPY (R415). -/
def execEmergencyCopy (lid : BitVec 32) (tidx : BitVec 24) (s : State) : Host.Outcome State Fault Refusal :=
  .next (s.emergCopy lid.toNat tidx.toNat)

/-! ### Restore (R416) -/

/-- Store bytes of a buffer; the marks of the units written are set anew. -/
def Core.putRaw (k : Core) (sp : Space) (a : Nat) (bs : List Byte) : Core :=
  k.setBuf sp (bs.zipIdx.foldl (fun m b => m.put (a + b.2) b.1 Config.freshByte) (k.buf sp))

/-- Store n bytes of section j of a context at an offset of the section. -/
def State.putSect (s : State) (c : CoreId) (j off : Nat) (bs : List Byte) : State :=
  if j = 0 then s
  else if j < 8 then s.modCore c fun k => k.putRaw (sectSpace j) off bs
  else
    let n := 0x30000 - off
    s.modCore (lenderCore c (j - 8)) fun k => (k.putRaw .ofs off (bs.take n)).putRaw .xb (off - 0x30000) (bs.drop n)

/-- Bytes of an ECC word or of a parity unit (R315). -/
def unitBytes (sp : Space) : Nat :=
  match sp with
  | .ofs => 1
  | .cr => 1
  | _ => 8

/-- Whether a restore writes a unit of a core's space (R413). -/
def restoresUnit (a : Allot) (u : Space × Nat) : Bool :=
  (List.range 7).any fun j => sectSpace (j + 1) == u.1 && decide (u.2 * unitBytes u.1 < (sectLens a 0).getD j 0)

/-- The error marks of a restored context: those that were saved, on the units that the restore has written; the others keep theirs
(R315). -/
def State.putBad (s : State) (c : CoreId) (z : Saved) : State :=
  let s1 := s.modCore c fun k =>
    { k with bad := (k.bad.filter fun u => !restoresUnit z.ctx.allot u) ++
               (z.bad.filter fun u => u.1 == 0 && restoresUnit z.ctx.allot u.2).map fun u => (u.2.1, u.2.2) }
  (List.range 3).foldl (fun s i =>
    if z.grants.getLsbD i then s.modCore (lenderCore c i) fun k =>
      { k with bad := (k.bad.filter fun u => u.1 != .ofs && u.1 != .xb) ++
                 (z.bad.filter fun u => u.1 == i + 1).map fun u => (u.2.1, u.2.2) }
    else s) s1

/-- A restore ends without success (R416). -/
def State.restoreFail (s : State) (c : CoreId) (k : Cause) (a : Nat) : State :=
  match (s.core c).run with
  | none => s
  | some r =>
    (((s.taskRecord c 0x01 k.code 5 a 0 0).modLaunch r.lid.toNat fun l => { l with lastCore := some c }).taskCloses r.lid.toNat
      r.tidx.toNat .failed).leaveCore c r.lid.toNat r.tidx.toNat .failed

/-- A context as it stands after its restore: its estimate goes on from now, and its region entries carry the generation of
the sweeps that it has missed (R289, R296, R409, R416). -/
def Ctx.restored (x : Ctx) (now : Word) (gen : BitVec 8) : Ctx :=
  { x with estNs := now, regs := x.regs.map fun e => (e.1, { e.2 with gen := gen }) }

/-- A restore is complete: the context stands on its new core, and its streams go on (R416). -/
def State.restoreDone (s : State) (c : CoreId) (v : Restore) (a : SaveArea) (z : Saved) : State :=
  let s1 := (s.putBad c z).modCore c fun k => { k with ctx := z.ctx.restored s.devTime (s.genOf c), restore := none }
  if v.regrown then s1 else s1.taskRecord c 0x12 0 5 (a.slot v.slot) c.toNat z.serial.toNat

/-- One step of a restore: a 64 KiB block of a section of the slot. -/
def State.restoreStep (s : State) (c : CoreId) : State :=
  match (s.core c).restore, s.areaOf c with
  | some v, some a =>
    if v.paused.isSome || (s.core c).frz.isSome || (s.core c).stop.isSome then s
    else match a.slots.get? v.slot with
      | none => s
      | some z =>
        let l := sections z.ctx.allot z.grants
        if 12 ≤ v.sect then s.restoreDone c v a z
        else
          let j := v.sect - 1
          let (off, len) := l.getD j (0, 0)
          let at' := v.blk * 0x10000
          if len ≤ at' then s.modCore c fun k => { k with restore := some { v with sect := v.sect + 1, blk := 0 } }
          else
            match s.devRead none (s.asidOf c) (a.slot v.slot + off + at') (min 0x10000 (len - at')) with
            | .ok bs =>
              (s.putSect c j at' bs).modCore c fun k => { k with restore := some { v with blk := v.blk + 1 } }
            | .error (k, q) =>
              if k = .translation ∨ k = .protection then
                (s.modCore c fun u => { u with restore := some { v with paused := some (k, q) } }).taskRecord c 0x13 0 5 q k.code
                  (j + 256)
              else s.restoreFail c k q
  | _, _ => s

/-- RESTORE (R416). -/
def execRestore (core : CoreId) (s : State) : Host.Outcome State Fault Refusal := .next (s.restoreStep core)

/-- SAVE_FAULT_SERVICE (R414, R416): Botra has serviced the fault that a save or a restore met, or cannot. -/
def execSaveFaultService (core : CoreId) (served : Bool) (s : State) : Host.Outcome State Fault Refusal :=
  .next (
    if s.fwStage ≠ .idle then s
    else match (s.core core).save, (s.core core).restore with
      | some v, _ =>
        if !v.paused then s
        else if served then s.modCore core fun k => { k with save := some { v with paused := false } }
        else if v.why = .ckpt then s
        else s.saveEmergency core v
      | none, some v =>
        (match v.paused with
          | none => s
          | some (k, a) =>
            if served then s.modCore core fun q => { q with restore := some { v with paused := none } }
            else s.restoreFail core k a)
      | none, none => s)

/-! ### Pre-emption, kill and rerun, budgets (R405 to R410) -/

/-- DRAINMAX of a newcomer's PRIO, in µs (R407). -/
def State.drainMax (s : State) (p : Nat) : Nat := (s.mgmt.drainMax.getD (p / 4) 0).toNat / 2 ^ (16 * (p % 4)) % 2 ^ 16

/-- The choice for a victim (R406): 0 drain, 1 checkpoint, 2 kill. -/
def State.preemptKind (s : State) (c : CoreId) (p : Nat) : Nat :=
  let e := (s.ctx c).estNow s.devTime
  if e ≤ s.drainMax p ∨ s.drainMax p = 0xFFFF then 0
  else if s.canCkpt c then 1
  else if pktKill (s.pktOf c) then 2
  else 0

/-- A core whose task may be pre-empted or stopped now: one stop at a time (R405, R423). -/
def Core.preemptible (k : Core) : Bool :=
  k.run.isSome && k.save.isNone && k.restore.isNone && k.stop.isNone &&
    (match k.frz with
      | none => true
      | some f => !f.report)

/-- Whether task i of a launch could take a core, were it free: its PLACE, its heat pattern and its levels allow it (R234, R245,
R250, R254, R313). -/
def State.couldTake (s : State) (l : Launch) (i : Nat) (c : CoreId) : Bool :=
  !(s.core c).dead && l.inOrder c i && l.placeOk c && s.classOk (pktHeat l.pkt) c && s.layersOn l (c.toNat / 128)

/-- Whether a core and the lenders of a heat class there are free (R250, R405). -/
def State.freePosition (s : State) (heat : Nat) (c : CoreId) : Bool :=
  (s.core c).run.isNone && (s.core c).next.isNone && (s.core c).lender.isNone &&
    (lendersOf heat c).all fun k => (s.core k).lendable

/-- The positions that task i of a launch could take and at which a task of a PRIO lower by more than 2 runs: the core, that
PRIO, and the time of that task's commit (R405). -/
def State.lowerTasks (s : State) (l : Launch) (i : Nat) : List (CoreId × Nat × Nat) :=
  s.cores.filterMap fun e =>
    let c : CoreId := BitVec.ofNat 9 e.1
    match e.2.run with
    | none => none
    | some r =>
      match s.launches.get? r.lid.toNat with
      | none => none
      | some v =>
        let t := v.task r.tidx.toNat
        if t.st == .running && decide (pktPrio v.pkt + 2 < pktPrio l.pkt) && s.couldTake l i c then some (c, pktPrio v.pkt, t.commitNs)
        else none

/-- The positions with the lowest PRIO, and of those the ones with the latest commit (R405). -/
def victimPositions (l : List (CoreId × Nat × Nat)) : List CoreId :=
  (l.filter fun x => l.all fun y => decide (x.2.1 < y.2.1) || (x.2.1 == y.2.1 && decide (y.2.2 ≤ x.2.2))).map (·.1)

/-- Whether the task on a core is a victim of a position: it runs there, or holds a lender that a heat class needs there (R405). -/
def State.isVictim (s : State) (heat : Nat) (b c : CoreId) : Bool :=
  c == b || (lendersOf heat b).any fun k => c == k || (s.core k).lender == some c

/-- Whether a ready task pre-empts the one on a core (R405): no position is free for it, and the core's task is a victim of the
position that is chosen for it. -/
def State.mayPreempt (s : State) (c : CoreId) (lid i : Nat) : Bool :=
  match s.launches.get? lid with
  | some l =>
    let t := l.task i
    let heat := pktHeat l.pkt
    (s.core c).preemptible && s.fwStage == .idle && decide (i < pktTasks l.pkt) && t.closing.isNone &&
    (t.st == .saved || (t.st == .queued && s.isHead lid l)) && l.gatesOpen i && decide (pktStart l.pkt ≤ s.devTime.toNat) &&
    !((List.range 512).any fun k => s.couldTake l i (BitVec.ofNat 9 k) && s.freePosition heat (BitVec.ofNat 9 k)) &&
    (victimPositions (s.lowerTasks l i)).any fun b => s.isVictim heat b c
  | none => false

/-- PREEMPTION_CHOICE (R405, R406): Botra decides for one victim. -/
def execPreemptionChoice (core : CoreId) (lid : BitVec 32) (tidx : BitVec 24) (s : State) :
    Host.Outcome State Fault Refusal :=
  .next (
    if s.mayPreempt core lid.toNat tidx.toNat then
      let p := match s.launches.get? lid.toNat with
        | some l => pktPrio l.pkt
        | none => 0
      let kind := s.preemptKind core p
      let s1 := s.taskRecord core 0x10 0 0 0 (kind + lid.toNat * 2 ^ 32) ((s.ctx core).estNow s.devTime)
      match kind with
      | 0 =>
        let s2 := s1.withdraw core
        if s2.canPlace core lid.toNat tidx.toNat then s2.writeRecord core lid tidx else s2
      | 1 => s1.startSave core .preempt none
      | _ => (s1.withdraw core).modCore core fun k => { k with stop := some .kill }
    else s)

/-- A killed task returns to QUEUED once its core has come to rest (R410); one whose budget is overrun without a way back
ends FAILED with WATCHDOG (R408). -/
def State.killEnds (s : State) (c : CoreId) : State :=
  let k := s.core c
  if k.settling || !s.enginesQuiet c || !s.drained c then s
  else match k.stop, k.run with
    | some .kill, some r =>
      let s1 := s.modTask r.lid.toNat r.tidx.toNat fun t =>
        { t with st := .queued, core := none, age := 0, ageLevel := 0, reruns := t.reruns + 1, ranNs := 0, resume := false }
      let n := match s1.launchOf c with
        | some l => (l.task r.tidx.toNat).reruns
        | none => 0
      (((s1.modLaunch r.lid.toNat fun l => { l with lastCore := some c }).taskRecord c 0x16 0 0 0 n 0).dropRecvs c).freeCore c
    | some .overrun, some _ => s.endOnCore c .failed (some (.watchdog, 0, 0))
    | _, _ => s

/-- KILL_AND_RERUN (R410): the core that a kill has stopped gives its task back. -/
def execKillAndRerun (core : CoreId) (s : State) : Host.Outcome State Fault Refusal :=
  .next (if (s.core core).stop = some .kill then s.killEnds core else s)

/-- Whether the task on a core has run longer than its budget (R408). -/
def State.overBudget (s : State) (c : CoreId) : Bool :=
  match (s.core c).run, s.launchOf c with
  | some r, some l =>
    let t := l.task r.tidx.toNat
    t.budget != 0 && decide (t.budget.toNat * 1000 < t.ranNs + (s.devTime.toNat - t.commitNs))
  | _, _ => false

/-- The overrun of a budget (R408): checkpoint, else kill and rerun, else the task fails. The next slot's record is
withdrawn (R246). -/
def State.budgetCheck (s : State) (c : CoreId) : State :=
  if s.overBudget c && (s.core c).preemptible && s.fwStage == .idle then
    let s1 := s.withdraw c
    if s.canCkpt c then s1.startSave c .budget none
    else if pktKill (s.pktOf c) then s1.modCore c fun k => { k with stop := some .kill }
    else s1.modCore c fun k => { k with stop := some .overrun }
  else s

/-- BUDGET_OVERRUN (R408): the stop, or the end of a task that it has stopped for good. -/
def execBudgetOverrun (core : CoreId) (s : State) : Host.Outcome State Fault Refusal :=
  .next (if (s.core core).stop = some .overrun then s.killEnds core else s.budgetCheck core)

/-! ### CKPT (R417) -/

/-- CKPT (R417). -/
def ckptIssue (r : Ring) (d : SReg) (c : CoreId) (s : State) : Res :=
  let land := fun (s : State) (n : Nat) => Res.ok (Done.one s (New.plain 1 (.scalar d (BitVec.ofNat 64 n))))
  match (s.core c).save with
  | some v =>
    (match v.done with
      | some n => land (s.modCore c fun k => { k with save := none }) n
      | none => if (s.ctx c).te then land s 2 else .wait otherWait fun s => s)
  | none =>
    if (s.ctx c).te || !s.canCkpt c then land s 2
    else .wait otherWait fun s => s.startSave c .ckpt (some (d, r))

/-- CKPT (R417). -/
def execCkpt (r : Ring) (d : SReg) (s : State) : Host.Outcome State Fault Refusal := issue .c r (ckptIssue r d) s

/-! ### Regrowing (R419, R420) -/

/-- CORE_SELF_CHECK_FAILURE (R419): the site has failed; a running task freezes with CORE_FROZEN, also one whose fault still waits
for its handler entry. -/
def execCoreSelfCheckFailure (core : CoreId) (s : State) : Host.Outcome State Fault Refusal :=
  .next (
    let s1 := s.modCore core fun k => { k with dead := true }
    let k := s.core core
    if k.run.isSome && k.stop.isNone then s1.freezeCore core .coreFrozen else s1)

/-- The free spare site that takes the place of a core's site: of the same row first, then of the nearest, rows counted from
the site at which the core stands; of two rows equally near the lower number (R419; log entry 154). -/
def State.freeSpare (s : State) (c : CoreId) : Option Nat :=
  let die := c.toNat / 128
  let row := s.siteRow c
  let order := row :: ((List.range 8).map fun d => [row - (d + 1), row + (d + 1)]).flatten
  (order.find? fun r => decide (r < 8) && !s.spares.has (die * 8 + r)).map fun r => die * 8 + r

/-- A spare takes a core's logical coordinates (R419 step 3). -/
def State.takeSpare (s : State) (c : CoreId) (n : Nat) : State :=
  { s with spares := FMap.set (s.spares.map fun (p : Nat × Option CoreId) => if p.2 = some c then (p.1, none) else p) n (some c) }.modCore c fun k =>
    { k with dead := false, regrown := true, pcol := 16, tlb := [] }

/-- A site without a task is replaced, outside a quiescent point (R478): the spare starts afresh, and Botra takes the record of its
next slot back, which may need a class that a spare does not run (R246, R254). -/
def State.replaceIdle (s : State) (c : CoreId) : State :=
  match s.freeSpare c, s.fwStage with
  | none, _ => s
  | some _, .quiesced _ => s
  | some n, .idle => ((s.withdraw c).setCore c { Core.reset c.toNat with pwr := .hold s.devTime.toNat }).takeSpare c n

/-- Begin to write the whole context of a frozen core into its task's slot, as the WRITE stage of a checkpoint does, with its
pauses, its watchdog and its emergency area (R414, R415, R419, R420); none if the task has no slot. -/
def State.saveWhole (s : State) (c : CoreId) : Option State :=
  match s.areaOf c with
  | none => none
  | some a =>
    if !pktCkpt (s.pktOf c) then none
    else
      let v := { Save.start .recover a.other none with settled := true, since := s.devTime.toNat }
      some (s.modCore c fun k => { k with save := some v })

/-- The slot of the latest checkpoint of a core's task. -/
def State.latestOf (s : State) (c : CoreId) : Option Nat :=
  match s.areaOf c with
  | some a => a.latest
  | none => none

/-- The task on a core resumes from its latest checkpoint when it is placed again. -/
def State.backToLatest (s : State) (c : CoreId) : State := (s.taskSaved c).freeCore c

/-- Whether the context of a frozen core can be read: its own bytes, and the windows of its lenders (R419, R420). -/
def State.readable (s : State) (c : CoreId) : Bool := (s.savedBad c (s.ctx c).lend).isEmpty && (s.core c).restore.isNone

/-- The task of a frozen core is saved: its context, or its latest checkpoint if an element of it fails its check; else it fails
(R419, R420). -/
def State.recoverSaved (s : State) (c : CoreId) : State :=
  match if s.readable c then s.saveWhole c else none with
  | some s1 => s1
  | none =>
    if (s.latestOf c).isSome then s.backToLatest c else s.endOnCore c .failed (some (.coreFrozen, 0, 0))

/-- The REGROWN record (R403), and the task runs again. -/
def State.regrownRecord (s : State) (c : CoreId) (fromCkpt : Bool) : State :=
  let s1 := s.taskRecord c 0x15 0 5 0 16 fromCkpt.toNat
  match (s.core c).run with
  | some r => s1.modTask r.lid.toNat r.tidx.toNat fun t => { t with st := .running }
  | none => s1

/-- A frozen task of class 0 or 1 goes on upon a spare (R419). -/
def State.regrowTask (s : State) (c : CoreId) (n : Nat) : State :=
  if s.readable c then
    ((s.takeSpare c n).modCore c fun k => { k with frz := none }).regrownRecord c false
  else match s.latestOf c with
    | some slot =>
      ((s.takeSpare c n).modCore c fun k =>
        { k with frz := none, bad := [], ctx := Ctx.reset,
                 restore := some { slot := slot, sect := 1, blk := 0, regrown := true, paused := none } }).regrownRecord c true
    | none => (s.endOnCore c .failed (some (.coreFrozen, 0, 0))).replaceIdle c

/-- REGROW (R419, R420): the recovery of a core frozen with CORE_FROZEN, or of a failed site without a task. -/
def State.regrow (s : State) (c : CoreId) : State :=
  let k := s.core c
  match k.run, k.frz with
  | none, _ => if k.dead && k.lender.isNone then s.replaceIdle c else s
  | some r, some f =>
    if f.cause = .coreFrozen ∧ f.report = true ∧ s.enginesQuiet c = true ∧ s.drained c = true ∧ s.storesStand c = true ∧
        s.fwStage = .idle ∧ k.stop = none ∧ k.save = none then
      if k.dead && r.grants == 0 then
        match s.freeSpare c with
        | some n => s.regrowTask c n
        | none => s.recoverSaved c
      else
        s.recoverSaved c
    else s
  | some _, none => s

/-- REGROW (R419, R420). -/
def execRegrow (core : CoreId) (s : State) : Host.Outcome State Fault Refusal := .next (s.regrow core)

/-! ### Freeze (R422) -/

/-- PACKAGE_FREEZE (R422): the pin FRZ_N stops every clock. -/
def execPackageFreeze (s : State) : Host.Outcome State Fault Refusal := .next { s with frozen := true }

/-- FREEZE_RESUME (R422): only with the debug mode of the partition-policy record. -/
def execFreezeResume (s : State) : Host.Outcome State Fault Refusal :=
  .next (if s.mgmt.debug then { s with frozen := false } else s)

end Sys2Proof.Machine
end

