-- ==== Sys2Proof/Machine/Fabric.lean ====
section
/-!
DEFINITION. Machine/Fabric.lean: the collective engine, fabric packets, link ports, frame ingest and the time base events
(R435 to R452).
-/
namespace Sys2Proof.Machine

/-! ### Step records (R447, R451) -/

/-- A field of n bytes of a step record. -/
def recField (b : BitVec 512) (off n : Nat) : Nat := b.toNat / 2 ^ (8 * off) % 2 ^ (8 * n)
/-- OP. -/
def recOp (b : BitVec 512) : Nat := recField b 0x14 1
/-- GRP. -/
def recGrp (b : BitVec 512) : Nat := recField b 0x15 1
/-- CHAN. -/
def recChan (b : BitVec 512) : Nat := recField b 0x16 1
/-- LEN. -/
def recLen (b : BitVec 512) : Nat := recField b 0x10 4
/-- FLAGS.WAIT. -/
def recWait (b : BitVec 512) : Bool := recField b 0x17 1 % 2 == 1
/-- CTL. -/
def recCtl (b : BitVec 512) : Nat := recField b 0x18 8
/-- CTL.RND. -/
def recRnd (b : BitVec 512) : Nat := recCtl b / 2 ^ 37 % 8
/-- CTL.SRK. -/
def recSrk (b : BitVec 512) : Nat := recCtl b / 2 ^ 32 % 32
/-- CTL.FMT. -/
def recFmt (b : BitVec 512) : Nat := recCtl b / 2 ^ 22 % 32
/-- CTL.PEER. -/
def recPeer (b : BitVec 512) : Nat := recCtl b % 2 ^ 12
/-- TGT. -/
def recTgt (b : BitVec 512) : Nat := recField b 0x20 8
/-- The 72-bit source address: SHI ++ SRC. -/
def recSrc (b : BitVec 512) : Nat := recCtl b / 2 ^ 56 * 2 ^ 64 + recField b 0x00 8
/-- The 72-bit destination address: DHI ++ DST. -/
def recDst (b : BitVec 512) : Nat := recCtl b / 2 ^ 48 % 256 * 2 ^ 64 + recField b 0x08 8

/-- The operations that use SRC, DST, RND with SRK and FMT (R447). -/
def usesSrc (op : Nat) : Bool := [1, 3, 4, 5, 6, 7].contains op
def usesDst (op : Nat) : Bool := [1, 2, 4, 5, 6, 7].contains op
def isColl (op : Nat) : Bool := [4, 5, 6, 7].contains op
def isRed (op : Nat) : Bool := [4, 6].contains op

/-- Formats of a reduction (R447). -/
def redFmt (n : Nat) : Bool :=
  match fmtOf n with
  | some f => [Fmt.f32, .bf16, .f16, .i32].contains f
  | none => false

/-- MODE of a port that is in frame mode, with the FRAME feature usable (R437, R451). -/
def State.frameMode (s : State) (p : Nat) : Bool :=
  match s.ports.get? p with
  | some q => decide (p < 16) && q.mode == 2 && s.mgmt.usable.getLsbD 2
  | none => false

/-- Whether GRP passes (R447, R451). -/
def State.grpOk (s : State) (asid : BitVec 16) (b : BitVec 512) : Bool :=
  if recOp b = 3 then s.frameMode (recGrp b)
  else if isColl (recOp b) then
    (match s.groups.get? (recGrp b) with
      | some g => g.asid == asid
      | none => false)
  else recGrp b == 0

/-- Whether CTL passes (R447, R451). -/
def recCtlOk (b : BitVec 512) : Bool :=
  let op := recOp b
  recCtl b / 2 ^ 40 % 2 ^ 8 == 0 && recCtl b / 2 ^ 27 % 2 ^ 5 == 0 && recCtl b / 2 ^ 12 % 2 ^ 10 == 0 &&
  (usesSrc op || recCtl b / 2 ^ 56 == 0) && (usesDst op || recCtl b / 2 ^ 48 % 256 == 0) &&
  (op == 2 || recPeer b == 0) &&
  (if isRed op then decide (recRnd b ≤ 5) && (recRnd b != 5 || (decide (8 ≤ recSrk b) && decide (recSrk b ≤ 23))) && redFmt (recFmt b)
    else recRnd b == 0 && recSrk b == 0 && recFmt b == 0)

/-- Whether LEN keeps its limits; the flag tells an alignment failure (R447). -/
def State.lenFault (s : State) (b : BitVec 512) : Option Cause :=
  if recOp b = 3 then
    let maxf := match s.ports.get? (recGrp b) with
      | some q => q.maxf.toNat
      | none => 0
    if 60 ≤ recLen b ∧ recLen b + 4 ≤ maxf then none else some .protection
  else if recLen b = 0 then some .protection
  else if recLen b % 8 ≠ 0 then some .misaligned
  else none

/-- The first field of a record that fails, with its offset (R451 step 4). Of a record with a reserved OP no field counts as
unused, so that it fails at OP unless an alignment or LEN fails before. -/
def State.recFault (s : State) (asid : BitVec 16) (b : BitVec 512) : Option (Cause × Nat) :=
  let op := recOp b
  let odd : Bool := decide (op = 0) || decide (7 < op)
  let addr := fun (used : Bool) (v : Nat) =>
    if used then (if v % 8 ≠ 0 then some Cause.misaligned else none)
    else if v ≠ 0 then some .protection else none
  match addr (usesSrc op || odd) (recField b 0x00 8) with
  | some k => some (k, 0x00)
  | none => match addr (usesDst op || odd) (recField b 0x08 8) with
    | some k => some (k, 0x08)
    | none => match s.lenFault b with
      | some k => some (k, 0x10)
      | none =>
        if odd then some (.protection, 0x14)
        else if !s.grpOk asid b then some (.protection, 0x15)
        else if op ≠ 2 ∧ recChan b ≠ 0 then some (.protection, 0x16)
        else if recField b 0x17 1 / 2 ≠ 0 then some (.protection, 0x17)
        else if !recCtlOk b then some (.protection, 0x18)
        else if recTgt b / 2 ^ 56 % 2 ^ 7 ≠ 0 ∨ recTgt b / 2 ^ 50 % 2 ^ 6 ≠ 0 then some (.protection, 0x20)
        else if recField b 0x28 8 ≠ 0 then some (.protection, 0x28)
        else if !isRed op ∧ recField b 0x30 8 ≠ 0 then some (.protection, 0x30)
        else if !isRed op ∧ recField b 0x38 8 ≠ 0 then some (.protection, 0x38)
        else none

/-- The first record of a table that fails, with the offset of its field. -/
def State.tableFault (s : State) (asid : BitVec 16) (off : Nat) (l : List (BitVec 512)) : Option (Cause × Nat) :=
  match l with
  | [] => none
  | b :: t =>
    match s.recFault asid b with
    | some (k, o) => some (k, off + o)
    | none => s.tableFault asid (off + 64) t

/-! ### CLSTEP and CLWAIT (R451, R452) -/

/-- The group step numbers of the records of a table, and the groups after it (R446). -/
def postSteps (gs : FMap Group) (l : List (BitVec 512)) : FMap Group × List Nat :=
  match l with
  | [] => (gs, [])
  | b :: t =>
    match if isColl (recOp b) then gs.get? (recGrp b) else none with
    | some g =>
      let (gs1, ms) := postSteps (gs.set (recGrp b) { g with posted := g.posted + 1 }) t
      (gs1, g.posted :: ms)
    | none =>
      let (gs1, ms) := postSteps gs t
      (gs1, 0 :: ms)

/-- Post a table: the handle lands after the issue. -/
def clPost (d : SReg) (a : Word) (n : Nat) (bs : List Byte) (c : CoreId) (s : State) : Res :=
  let recs := (List.range n).map fun i => BitVec.ofNat 512 (leNat ((bs.drop (64 * i)).take 64))
  match s.tableFault (s.asidOf c) 0 recs with
  | some (k, off) => .faultIn s k (a + BitVec.ofNat 64 off) []
  | none =>
    let (gs, ms) := postSteps s.groups recs
    let h := (s.ctx c).handle
    let t : CTable := { handle := h, recs := recs, ms := ms, started := 0, live := [], failed := false, old := false }
    let s1 := { s with groups := gs }.modCtx c fun x => { x with tables := x.tables ++ [t], handle := h + 1 }
    .ok (Done.one s1 (New.plain 1 (.scalar d (h.setWidth 64))))

/-- CLSTEP (R451). -/
def clstepIssue (d a b : SReg) (c : CoreId) (s : State) : Res :=
  let x := s.ctx c
  let n := (x.sr b).toNat % 256
  if 16 ≤ x.tables.length then .wait otherWait id
  else if (x.sr a).toNat % 64 ≠ 0 then .fault .misaligned (x.sr a) []
  else if n = 0 ∨ 64 < n then .fault .protection (x.sr b) []
  else ask .c (.blk (s.vaOf c (x.sr a)) (64 * n)) (fun s an =>
    match an with
    | .fault k addr => .faultIn s k addr []
    | .bytes bs => clPost d (x.sr a) n bs c s
    | _ => .ok (Done.plain s)) c s

/-- CLSTEP (R451). -/
def execClstep (r : Ring) (d a b : SReg) (s : State) : Host.Outcome State Fault Refusal :=
  issue .c r (clstepIssue d a b) s

/-- CLWAIT (R452). -/
def clwaitIssue (pd : PReg) (a b : SReg) (c : CoreId) (s : State) : Res :=
  let x := s.ctx c
  let open' := x.tables.any fun t => t.handle == (x.sr a).setWidth 16
  if !open' then endWait pd s true
  else if (x.sr b).toNat % 2 ^ 32 ≤ x.strC.bounded then endWait pd s false
  else .wait otherWait id

/-- CLWAIT (R452). -/
def execClwait (r : Ring) (pd : PReg) (a b : SReg) (s : State) : Host.Outcome State Fault Refusal :=
  issue .c r (clwaitIssue pd a b) s

/-- Attempt again the instruction that a core's C stream holds in a bounded wait, when its bound may have passed. -/
def State.heldInstr (s : State) (c : CoreId) : Option Instr :=
  match (s.ctx c).strC.held with
  | some h =>
    match decodeWord .c ((s.ctx c).heldWord h).toNat with
    | .ok i => some i
    | .error _ => none
  | none => none

/-- CLWAIT_BOUND_EXPIRY (R452): a CLWAIT whose bound has passed issues, and pd lands 0. -/
def execClwaitBoundExpiry (core : CoreId) (s : State) : Host.Outcome State Fault Refusal :=
  match s.heldInstr core with
  | some (.clwait r pd a b) =>
    if s.runs core .c && (s.ctx core).strC.wait.isSome &&
        decide (((s.ctx core).sr b).toNat % 2 ^ 32 ≤ (s.ctx core).strC.bounded) then
      execClwait r pd a b { s with cur := core }
    else .next s
  | _ => .next s

/-! ### Steps in progress (R446 to R449) -/

/-- Change a table of a core's task. -/
def State.modTable (s : State) (c : CoreId) (h : BitVec 16) (f : CTable → CTable) : State :=
  s.modCtx c fun x => { x with tables := x.tables.map fun t => if t.handle = h then f t else t }

/-- A table of a core's task. -/
def State.tableAt (s : State) (c : CoreId) (h : BitVec 16) : Option CTable := (s.ctx c).tables.find? fun t => t.handle == h

/-- Change a step in progress. -/
def State.modStep (s : State) (c : CoreId) (h : BitVec 16) (i : Nat) (f : CStep → CStep) : State :=
  s.modTable c h fun t =>
    match t.live.get? i with
    | some p => { t with live := t.live.set i (f p) }
    | none => t

/-- A step fails: the first failure is kept, its packets and its receive are given up, and later steps of the table do not
start (R449). -/
def State.stepFail (s : State) (c : CoreId) (h : BitVec 16) (i : Nat) (x : Cause × Nat) : State :=
  let s1 := (s.modStep c h i fun p => { p with fail := some (p.fail.getD x) }).modTable c h fun t => { t with failed := true }
  let mine := fun (k : CoreId) (g : BitVec 16) (j : Nat) => k == c && g == h && j == i
  { s1 with outPkts := s1.outPkts.filter fun p => !mine p.core p.handle p.step
            recvs := s1.recvs.filter fun r => !mine r.core r.handle r.step }

/-- Words of bytes cut at 8-byte boundaries of their address; fuel bounds them. -/
def wordCuts (fuel a : Nat) (bs : List Byte) : List (Nat × List Byte) :=
  match fuel with
  | 0 => []
  | fuel + 1 =>
    if bs.isEmpty then []
    else
      let n := 8 - a % 8
      (a, bs.take n) :: wordCuts fuel (a + n) (bs.drop n)

/-- The engine writes bytes of a step at a virtual address of its task (R449): performed and counted, or failing as an item
fails. -/
def State.stepWrite (s : State) (c : CoreId) (va : Nat) (bs : List Byte) : ERun :=
  ((wordCuts (bs.length / 8 + 2) va bs).foldl (fun (r : ERun) (p : Nat × List Byte) =>
    r.write c 3 .virt p.1 p.2) { s := s, fail := none }).settle s.counts.length s.wid c 3

/-- Read n bytes of a step's source. R323 names loads and copy sources and says of a collective step's source neither; the
model checks it as a load, which a region of kind A permits too (log entry 124). -/
def State.stepRead (s : State) (c : CoreId) (va n : Nat) : Except (Cause × Nat) (List Byte) := s.engRead c .load .virt va n

/-- Change what is kept of a packet that has reached this device. -/
def State.modSeen (s : State) (p : FabPkt) (f : SeenPkt → SeenPkt) : State :=
  { s with seenPkts := s.seenPkts.map fun q => if q.src = p.src ∧ q.id = p.id then f q else q }

/-- An acknowledgement for a packet, with the cause of a refusal or 0 (R444); a replay is answered with the same (R298). -/
def State.ackPkt (s : State) (p : FabPkt) (cause : Nat) : State :=
  { s.modSeen p fun q => { q with cause := some cause } with acks := s.acks ++ [(p.src, p.id, cause)] }

/-- A packet for a step, on its first hop once there is staging credit for it (R444, R446). -/
def State.sendPkt (s : State) (c : CoreId) (h : BitVec 16) (i : Nat) (dst : BitVec 12) (body : FabBody) : State :=
  { s with
    outPkts := s.outPkts ++ [{ pkt := { src := s.devId, dst := dst, id := s.pktId, hops := 1, body := body },
                               port := s.routes.getD dst.toNat 0, core := c, handle := h, step := i, sent := false,
                               sentNs := s.devTime.toNat }]
    pktId := s.pktId + 1 }

/-- Packets sent to each device and not yet acknowledged. -/
def sentTo (l : List OutPkt) : FMap Nat :=
  l.foldl (fun m p => if p.sent then m.put p.pkt.dst.toNat (m.getD p.pkt.dst.toNat 0 + 1) 0 else m) []

/-- Send the packets that have credit at their destination, in order; used counts the packets that hold credit there (R446). -/
def releasePkts (now : Nat) (used : FMap Nat) (l : List OutPkt) : List OutPkt :=
  match l with
  | [] => []
  | p :: t =>
    let d := p.pkt.dst.toNat
    if p.sent || decide (Config.stagingPkts < used.getD d 0) then p :: releasePkts now used t
    else { p with sent := true, sentNs := now } :: releasePkts now (used.put d (used.getD d 0 + 1) 0) t

/-- Packets leave this device as their destinations have room in staging; the others wait (R446). -/
def State.sendDue (s : State) : State :=
  if s.outPkts.isEmpty then s else { s with outPkts := releasePkts s.devTime.toNat (sentTo s.outPkts) s.outPkts }

/-- Bytes cut into packets of up to 4 KiB (R444): offset and bytes. -/
def pktCuts (fuel off : Nat) (bs : List Byte) : List (Nat × List Byte) :=
  match fuel with
  | 0 => []
  | fuel + 1 => if bs.isEmpty then [] else (off, bs.take 4096) :: pktCuts fuel (off + 4096) (bs.drop 4096)

/-- What a page of a SEND's destination names: device, channel, offset in the receive, the last from ADDR[31:16] and VA[15:0]
whatever the size of the page (R445). -/
def State.fabTarget (s : State) (c : CoreId) (va : Nat) : Except (Cause × Nat) (BitVec 12 × BitVec 8 × Nat) :=
  match s.translateFor (some c) (s.asidOf c) va with
  | .error k => .error (k, va)
  | .ok t =>
    if !pteFab t.pte || !pteW t.pte then .error (.protection, va)
    else
      let a := pteAddr t.pte
      .ok (BitVec.ofNat 12 (a / 2 ^ 40), BitVec.ofNat 8 (a / 2 ^ 32), a / 2 ^ 16 % 2 ^ 16 * 2 ^ 16 + va % 2 ^ 16)

/-- The destinations of a SEND, page by page: the bytes that go to each (R445). -/
def State.fabPieces (s : State) (c : CoreId) (l : List (Nat × Nat)) (bs : List Byte) :
    Except (Cause × Nat) (List (BitVec 12 × BitVec 8 × Nat × List Byte)) :=
  match l with
  | [] => .ok []
  | (va, n) :: t =>
    match s.fabTarget c va with
    | .error x => .error x
    | .ok (d, ch, off) =>
      match s.fabPieces c t (bs.drop n) with
      | .error x => .error x
      | .ok r => .ok ((d, ch, off, bs.take n) :: r)

/-- Whether an address space is retired (R287). -/
def State.isRetired (s : State) (asid : BitVec 16) : Bool :=
  match s.space asid with
  | some a => a.retired
  | none => false

/-- SEND starts (R445, R449): its packets are sent, or it fails. -/
def State.startSend (s : State) (c : CoreId) (h : BitVec 16) (i : Nat) (b : BitVec 512) : State :=
  match s.stepRead c (recSrc b) (recLen b) with
  | .error x => s.stepFail c h i x
  | .ok bs =>
    if 2 ^ 72 < recDst b + recLen b then s.stepFail c h i (.translation, max (recDst b) (2 ^ 72))
    else match s.fabPieces c (vPieces (recDst b) (recLen b)) bs with
      | .error x => s.stepFail c h i x
      | .ok l =>
        if s.isRetired (s.asidOf c) then s.stepFail c h i (.staleGeneration, recDst b)
        else match s.footCheck c .store .virt (recDst b) (recLen b) with
          | some x => s.stepFail c h i x
          | none =>
            let job := s.pktId
            let s1 := l.foldl (fun s p =>
              (pktCuts (p.2.2.2.length / 4096 + 1) p.2.2.1 p.2.2.2).foldl
                (fun s q => s.sendPkt c h i p.1 (.send p.2.1 job (BitVec.ofNat 32 q.1) q.2)) s) s
            s1.modStep c h i fun p => { p with wrote := true }

/-- Add the part from a to b to parts that are filled: they stay in rising order, and parts that meet become one. -/
def fillPart (l : List (Nat × Nat)) (a b : Nat) : List (Nat × Nat) :=
  match l with
  | [] => [(a, b)]
  | (x, y) :: t =>
    if b < x then (a, b) :: (x, y) :: t
    else if y < a then (x, y) :: fillPart t a b
    else fillPart t (min x a) (max y b)

/-- Bytes over physical pieces, by their addresses. -/
def bytesAt (l : List (Nat × Nat)) (bs : List Byte) : List (Nat × List Byte) :=
  match l with
  | [] => []
  | (pa, n) :: t => (pa, bs.take n) :: bytesAt t (bs.drop n)

/-- A receive as it stands once bytes of a SEND have been performed in it. -/
def Recv.took (r : Recv) (src : BitVec 12) (job : BitVec 32) (off n : Nat) : Recv :=
  { r with filled := if n = 0 then r.filled else fillPart r.filled off (off + n)
           sends := if r.sends.contains (src, job) then r.sends else r.sends ++ [(src, job)] }

/-- Bytes of a SEND go into a receive (R447, R449): those beyond its length are not performed. Once every byte of the receive has
been performed it is closed, and what still comes of the SENDs that have entered it overruns it (log entry 131). -/
def State.recvInto (s : State) (r : Recv) (p : FabPkt) (job : BitVec 32) (off : Nat) (bs : List Byte) : State :=
  let part := bs.take (r.len - off)
  let run := s.stepWrite r.core (r.dst + off) part
  match run.fail with
  | some x => (run.s.ackPkt p x.1.code).stepFail r.core r.handle r.step x
  | none =>
    let w := match s.vRange none r.asid .w (r.dst + off) part.length with
      | .ok l => s.written (some r.asid) (r.dst + off) l part
      | .error _ => default
    let s1 := (run.s.ackPkt p (if part.length < bs.length then Cause.protection.code else 0)).modSeen p fun q =>
      { q with w := w }
    let r1 := r.took p.src job off part.length
    if r1.filled = [(0, r.len)] then
      let s2 : State :=
        { s1 with recvs := s1.recvs.filter fun q => q != r
                  doneSends := s1.doneSends ++ r1.sends.map fun (q : BitVec 12 × BitVec 32) => (r.chan, q.1, q.2) }
      s2.modStep r.core r.handle r.step fun p => { p with wrote := true }
    else { s1 with recvs := s1.recvs.map fun q => if q = r then r1 else q }

/-- The receive that a packet goes into: the one of its channel whose PEER is its device, else one of its channel (R447, R455; log
entry 131). -/
def State.recvOf (s : State) (src : BitVec 12) (chan : BitVec 8) : Option Recv :=
  match s.recvs.find? fun r => r.chan == chan && r.peer == src with
  | some r => some r
  | none => s.recvs.find? fun r => r.chan == chan

/-- A packet of a SEND that has reached this device: into its receive, or into staging until one opens; one of a SEND whose
receive is filled is refused (R446, R449, R455). -/
def State.sendArrives (s : State) (p : FabPkt) (chan : BitVec 8) (job : BitVec 32) (off : Nat) (bs : List Byte) : State :=
  if s.doneSends.contains (chan, p.src, job) then s.ackPkt p Cause.protection.code
  else match s.recvOf p.src chan with
    | some r => s.recvInto r p job off bs
    | none => { s with staged := s.staged ++ [p] }

/-- RECV starts (R447, R449): it stands as a holder, and takes what staging holds for it. -/
def State.startRecv (s : State) (c : CoreId) (h : BitVec 16) (i : Nat) (b : BitVec 512) : State :=
  let dst := recDst b
  let len := recLen b
  if (s.standing (s.asidOf c)).any fun q => decide (q.base < dst + len) && decide (dst < q.base + q.len) then
    s.stepFail c h i (.race, dst)
  else
    let r : Recv := { chan := BitVec.ofNat 8 (recChan b), peer := BitVec.ofNat 12 (recPeer b), dst := dst, len := len,
                      filled := [], sends := [], asid := s.asidOf c, core := c, handle := h, step := i }
    let mine := fun (p : FabPkt) => match p.body with
      | .send ch _ _ _ => ch == r.chan
      | .coll .. => false
    let s1 := { s with recvs := s.recvs ++ [r], staged := s.staged.filter fun p => !mine p }
    let l := s.staged.filter mine
    ((l.filter fun p => p.src == r.peer) ++ l.filter fun p => p.src != r.peer).foldl (fun s p =>
      match p.body with
      | .send ch job off bs => s.sendArrives p ch job off.toNat bs
      | .coll .. => s) s1

/-- Bytes of this rank's data for another rank of a collective (R447). -/
def collPart (op len j : Nat) (bs : List Byte) : List Byte :=
  if op = 5 ∨ op = 6 then bs else (bs.drop (j * len)).take len

/-- The element sum of R448, with its rounding. -/
def redAdd (b : BitVec 512) (f : Fmt) (t i : Nat) (acc y : Nat) : Nat :=
  if f = .i32 then (acc + y) % 2 ^ 32
  else
    let mode := Rnd.ofCode (recRnd b)
    let k := recSrk b
    let rand := if mode = .sr then
        srRand (BitVec.ofNat 64 (recField b 0x30 8)) (BitVec.ofNat 64 (recField b 0x38 8 + t)) i k
      else 0
    (roundNum f { mode := mode, sat := false, ftz := false, rand := { k := k, r := rand } }
      ((Num.ofCode f acc).add (mode == .rdn) (Num.ofCode f y)).1).1

/-- Element i of bytes, in width bytes. -/
def elemAt (w i : Nat) (bs : List Byte) : Nat := leNat ((bs.drop (w * i)).take w)

/-- The reduced chunk c from the chunks of n ranks (R448). -/
def redChunk (b : BitVec 512) (f : Fmt) (c n len : Nat) (xs : List (List Byte)) : List Byte :=
  let w := f.width / 8
  ((List.range (len / w)).map fun i =>
    let x := fun (k : Nat) => elemAt w i (xs.getD (k % n) [])
    leBytes w ((List.range (n - 1)).foldl (fun acc t => redAdd b f (t + 1) i acc (x (c + 2 + t))) (x (c + 1)))).flatten

/-- The bytes of DST from every rank's data (R447). -/
def collResult (b : BitVec 512) (rank n : Nat) (xs : List (List Byte)) : List Byte :=
  let len := recLen b
  match recOp b, fmtOf (recFmt b) with
  | 4, some f => redChunk b f rank n len xs
  | 6, some f => ((List.range n).map fun c => redChunk b f c n len (xs.map fun x => (x.drop (c * len)).take len)).flatten
  | _, _ => xs.flatten

/-- Staged packets of one rank's data for a collective step. -/
def State.collPkts (s : State) (grp m rank : Nat) : List FabPkt :=
  s.staged.filter fun p =>
    match p.body with
    | .coll g st r _ _ _ _ _ => g.toNat == grp && st.toNat == m && r.toNat == rank
    | .send .. => false

/-- Whether a packet of a matched step agrees in OP, LEN and FMT (R449). -/
def collAgrees (b : BitVec 512) (p : FabPkt) : Bool :=
  match p.body with
  | .coll _ _ _ op len fmt _ _ => op.toNat == recOp b && len.toNat == recLen b && fmt.toNat == recFmt b
  | .send .. => true

/-- The data of a rank once all of it is staged: the packets cover it from offset 0 on. -/
def gatherPkts (fuel : Nat) (need : Nat) (off : Nat) (l : List FabPkt) : Option (List Byte) :=
  if need ≤ off then some []
  else
    match fuel with
    | 0 => none
    | fuel + 1 =>
      match l.find? fun p => match p.body with
          | .coll _ _ _ _ _ _ o bs => o.toNat == off && !bs.isEmpty
          | .send .. => false with
      | none => none
      | some p =>
        match p.body with
        | .coll _ _ _ _ _ _ _ bs =>
          (match gatherPkts fuel need (off + bs.length) l with
            | some t => some (bs ++ t)
            | none => none)
        | .send .. => none

/-- Matched steps of a group differ: what still comes for the step is refused, so that every rank of the group fails (R449). -/
def State.collFailed (s : State) (g m : Nat) : State := { s with collFails := (g, m) :: s.collFails }

/-- A collective step writes its result once the data of every rank has come; a packet of a step that differs fails it
(R448, R449). -/
def State.collTry (s : State) (c : CoreId) (h : BitVec 16) (i : Nat) (b : BitVec 512) (k : CStep) : State :=
  match s.groups.get? (recGrp b) with
  | none => s
  | some g =>
    let n := g.devs.length
    let ranks := (List.range n).filter fun j => j != g.rank
    let all := (ranks.map fun j => s.collPkts (recGrp b) k.gstep j).flatten
    let drop := fun (s : State) (cause : Nat) =>
      all.foldl (fun s p => s.ackPkt p cause) { s with staged := s.staged.filter fun p => !all.contains p }
    if k.wrote || k.fail.isSome then s
    else if all.any fun p => !collAgrees b p then (drop (s.collFailed (recGrp b) k.gstep) Cause.protection.code).stepFail c h i (.protection, 0)
    else
      let need := recLen b * (if recOp b = 6 then n else 1)
      let got := (List.range n).map fun j =>
        if j = g.rank then some (collPart (recOp b) (recLen b) j k.data)
        else
          let l := s.collPkts (recGrp b) k.gstep j
          gatherPkts (l.length + 1) need 0 l
      if got.any (·.isNone) then s
      else
        let run := s.stepWrite c (recDst b) (collResult b g.rank n (got.map fun o => o.getD []))
        match run.fail with
        | some x => (drop run.s x.1.code).stepFail c h i x
        | none => (drop run.s 0).modStep c h i fun p => { p with wrote := true }

/-- A collective step starts (R446, R447): this rank's data goes to every other rank. -/
def State.startColl (s : State) (c : CoreId) (h : BitVec 16) (i m : Nat) (b : BitVec 512) : State :=
  match s.groups.get? (recGrp b) with
  | none => s.stepFail c h i (.protection, 0)
  | some g =>
    if g.asid ≠ s.asidOf c then s.stepFail c h i (.protection, 0)
    else
      let n := g.devs.length
      match s.stepRead c (recSrc b) (recLen b * (if recOp b = 5 then 1 else n)) with
      | .error x => s.stepFail c h i x
      | .ok bs =>
        let s1 := s.modStep c h i fun p => { p with data := bs }
        let s2 := (g.devs.zipIdx).foldl (fun s d =>
          if d.2 = g.rank then s
          else
            let part := collPart (recOp b) (recLen b) d.2 bs
            (pktCuts (part.length / 4096 + 1) 0 part).foldl (fun s q =>
              s.sendPkt c h i d.1 (.coll (BitVec.ofNat 6 (recGrp b)) (BitVec.ofNat 32 m) (BitVec.ofNat 4 g.rank)
                (BitVec.ofNat 8 (recOp b)) (BitVec.ofNat 32 (recLen b)) (BitVec.ofNat 5 (recFmt b)) (BitVec.ofNat 32 q.1)
                q.2)) s) s1
        s2.collTry c h i b { gstep := m, data := bs, wrote := false, fail := none }

/-- One bit step of the frame check sequence. -/
def crcBit (r : BitVec 32) : BitVec 32 := if r.getLsbD 0 then (r >>> 1) ^^^ 0xEDB88320 else r >>> 1

/-- The FCS of a frame (IEEE 802.3 CRC-32). -/
def crc32 (bs : List Byte) : BitVec 32 :=
  ~~~(bs.foldl (fun (r : BitVec 32) b => (List.range 8).foldl (fun r _ => crcBit r) (r ^^^ b.setWidth 32)) 0xFFFFFFFF)

/-- FSEND starts: its frame is read, and leaves once its port is up (R447). -/
def State.startFsend (s : State) (c : CoreId) (h : BitVec 16) (i : Nat) (b : BitVec 512) : State :=
  match s.stepRead c (recSrc b) (recLen b) with
  | .error x => s.stepFail c h i x
  | .ok bs => s.modStep c h i fun p => { p with data := bs }

/-- The frame of an FSEND leaves on its port with its FCS appended. -/
def State.fsendGo (s : State) (c : CoreId) (h : BitVec 16) (i : Nat) (b : BitVec 512) (k : CStep) : State :=
  match s.ports.get? (recGrp b) with
  | none => s
  | some q =>
    if q.st = 2 ∧ k.wrote = false ∧ k.fail = none then
      { s with ports := s.ports.set (recGrp b) { q with sentFrames := q.sentFrames ++ [k.data ++ leBytes 4 (crc32 k.data).toNat] }
        }.modStep c h i fun p => { p with wrote := true }
    else s

/-- The next step that may start (R449): tables in post order, steps in table order, WAIT after the previous step. -/
def Ctx.stepNext (x : Ctx) : Option (CTable × Nat) :=
  let ok := fun (t : CTable) =>
    !t.failed && decide (t.started < t.recs.length) &&
      (!recWait (t.recs.getD t.started 0) || t.started == 0 || !t.live.has (t.started - 1))
  ((List.range x.tables.length).findSome? fun n =>
    match x.tables[n]? with
    | some t =>
      if ok t && (x.tables.take n).all (fun q => q.failed || q.started != 0) then some (t, t.started) else none
    | none => none)

/-- Start a step. The stores that the task's C stream made before its CLSTEP are performed first: the enqueue edge of R318. -/
def State.stepStartAt (s : State) (c : CoreId) (t : CTable) (i : Nat) : State :=
  let b := t.recs.getD i 0
  let m := t.ms.getD i 0
  let s1 := (s.performStores c).modTable c t.handle fun t =>
    { t with started := i + 1, live := t.live.set i { gstep := m, data := [], wrote := false, fail := none } }
  match recOp b with
  | 1 => s1.startSend c t.handle i b
  | 2 => s1.startRecv c t.handle i b
  | 3 => s1.startFsend c t.handle i b
  | _ => s1.startColl c t.handle i m b

/-- COLLECTIVE_STEP_START (R449): the next step of the core's tables starts. -/
def State.collStart (s : State) (c : CoreId) : State :=
  match (s.ctx c).stepNext with
  | some (t, i) => if (s.core c).run.isSome then s.stepStartAt c t i else s
  | none => s

/-- COLLECTIVE_STEP_START (R449). -/
def execCollectiveStepStart (core : CoreId) (s : State) : Host.Outcome State Fault Refusal := .next (s.collStart core)

/-- A step's packets that are not yet acknowledged. -/
def State.noAck (s : State) (c : CoreId) (h : BitVec 16) (i : Nat) : Bool :=
  s.outPkts.any fun p => p.core == c && p.handle == h && p.step == i

/-- Close a step; a table with nothing left completes (R449). -/
def State.stepClose (s : State) (c : CoreId) (h : BitVec 16) (i : Nat) : State :=
  let s1 := s.modTable c h fun t => { t with live := t.live.del i }
  s1.modCtx c fun x =>
    { x with tables := x.tables.filter fun t => !(t.live.isEmpty && (t.failed || t.started == t.recs.length)) }

/-- A step that has come to its end: its record if it failed, else its arrival (R449). -/
def State.stepFinish (s : State) (c : CoreId) (h : BitVec 16) (i : Nat) (b : BitVec 512) (k : CStep) : State :=
  match k.fail with
  | some (cause, addr) =>
    if s.recRoom c then (s.stepClose c h i).itemReport c .c cause addr 3 i else s
  | none =>
    if k.wrote && !s.noAck c h i then
      if recTgt b / 2 ^ 63 = 1 then
        match s.tgtArrival c (recTgt b) 3 with
        | (s1, none) => s1.stepClose c h i
        | (s1, some x) => s1.stepFail c h i x
      else s.stepClose c h i
    else s

/-- Advance every step in progress of a core's tables: frames that can leave, collectives whose data is complete, ends. -/
def State.collFinish (s : State) (c : CoreId) : State :=
  ((s.ctx c).tables.map fun t => t.live.map fun p => (t.handle, p.1, t.recs.getD p.1 0)).flatten.foldl (fun s e =>
    let get := fun (s : State) => match s.tableAt c e.1 with
      | some t => t.live.get? e.2.1
      | none => none
    let s1 := match get s with
      | some k =>
        if recOp e.2.2 = 3 then s.fsendGo c e.1 e.2.1 e.2.2 k
        else if isColl (recOp e.2.2) then s.collTry c e.1 e.2.1 e.2.2 k
        else s
      | none => s
    match get s1 with
    | some k => s1.stepFinish c e.1 e.2.1 e.2.2 k
    | none => s1) s

/-- COLLECTIVE_STEP_COMPLETE (R449): the core's steps that can complete do so, with their arrivals. -/
def execCollectiveStepComplete (core : CoreId) (s : State) : Host.Outcome State Fault Refusal := .next (s.collFinish core)

/-- What the collective engine does for a core in a cycle. -/
def State.collTurn (s : State) (c : CoreId) : State := if (s.ctx c).tables.isEmpty then s else (s.collStart c).collFinish c

/-! ### Fabric packets (R298, R444) -/

/-- A collective packet that has reached this device: it waits in staging for its step (R446); one for a step that has failed because
matched steps differ is refused (R449). -/
def State.collArrives (s : State) (p : FabPkt) : State :=
  match p.body with
  | .coll g m _ _ _ _ _ _ =>
    if s.collFails.contains (g.toNat, m.toNat) then s.ackPkt p Cause.protection.code else { s with staged := s.staged ++ [p] }
  | .send .. => { s with staged := s.staged ++ [p] }

/-- A packet that has come before: once it has been acknowledged, what it has performed is performed again, not counted, and it is
acknowledged again as it was (R298). -/
def State.replayPkt (s : State) (p : FabPkt) (q : SeenPkt) : State :=
  match q.cause with
  | none => s
  | some k => (s.writeAgain q.w).ackPkt p k

/-- FABRIC_PACKET_RECEIVE (R444): forwarded along the route table, over at most four hops, or performed here and acknowledged. -/
def execFabricPacketReceive (p : FabPkt) (s : State) : Host.Outcome State Fault Refusal :=
  .next (
    if p.dst ≠ s.devId then
      if p.hops.toNat < 4 then
        { s with forwarded := s.forwarded ++ [(s.routes.getD p.dst.toNat 0, { p with hops := p.hops + 1 })] }
      else s
    else match s.seenPkts.find? fun q => q.src == p.src && q.id == p.id with
      | some q => s.replayPkt p q
      | none =>
        let s1 : State := { s with seenPkts := s.seenPkts ++ [{ src := p.src, id := p.id, cause := none, w := default }] }
        match p.body with
        | .send chan job off bs => s1.sendArrives p chan job off.toNat bs
        | .coll .. => s1.collArrives p)

/-- The cause behind a code (R392). -/
def causeOf (n : Nat) : Cause :=
  (([.illegalEncoding, .reservedOpcode, .privileged, .misaligned, .translation, .protection, .staleGeneration, .sealedWrite,
    .undeclaredAccess, .race, .ephemeralExpired, .lateStart, .ringTimeout, .barrierOverarrival, .arrivalOverflow, .nestBounds,
    .viewInvalid, .uncorrectableData] : List Cause).find? fun k => k.code == n).getD .protection

/-- FABRIC_ACK (R444): a packet of this device has been performed and counted at its destination; a cause says that it was
refused there (R449). -/
def execFabricAck (id : BitVec 32) (cause : BitVec 8) (s : State) : Host.Outcome State Fault Refusal :=
  .next (
    match s.outPkts.find? fun p => p.pkt.id == id && p.sent with
    | none => s
    | some p =>
      let s1 := { s with outPkts := s.outPkts.filter fun q => q.pkt.id != id }
      if cause = 0 then s1 else s1.stepFail p.core p.handle p.step (causeOf cause.toNat, 0))

/-- LINKTO.PERIOD in ns: 0 acts as 2^32 µs (R484). -/
def State.linkNs (s : State) : Nat := (if s.mgmt.linkTo = 0 then 2 ^ 32 else s.mgmt.linkTo.toNat) * 1000

/-- LINK_TIMEOUT (R444): a packet without an acknowledgement within LINKTO fails its step with WATCHDOG. -/
def execLinkTimeout (id : BitVec 32) (s : State) : Host.Outcome State Fault Refusal :=
  .next (
    match s.outPkts.find? fun p => p.pkt.id == id && p.sent with
    | none => s
    | some p =>
      if p.sentNs + s.linkNs ≤ s.devTime.toNat then s.stepFail p.core p.handle p.step (.watchdog, 0) else s)

/-! ### Ports and the time base (R436, R437) -/

/-- A port before it is configured. -/
def Port.fresh : Port := { maxf := 0, st := 0, mode := 0, dropped := 0, rules := [], sentFrames := [] }

/-- Change a port. -/
def State.modPort (s : State) (p : Nat) (f : Port → Port) : State :=
  { s with ports := s.ports.set p (f (s.ports.getD p Port.fresh)) }

/-- LINK_TRAINING_DONE (R437). -/
def execLinkTrainingDone (port : BitVec 4) (s : State) : Host.Outcome State Fault Refusal :=
  .next (s.modPort port.toNat fun p => if p.st = 1 then { p with st := 2 } else p)

/-- LINK_LOSS (R437): the port goes through down and into training again. -/
def execLinkLoss (port : BitVec 4) (s : State) : Host.Outcome State Fault Refusal :=
  .next (s.modPort port.toNat fun p => if p.st = 2 then { p with st := 1 } else p)

/-- Whether a RATE lies in its range (R435). -/
def rateOk (r : BitVec 32) : Bool := decide (-500000 ≤ r.toInt) && decide (r.toInt ≤ 500000)

/-- PTP_EVENT_FRAME (R436): Botra, outside a quiescent point (R478), has measured the offset of the master from PTP time. It slews DEVTIME through RATE, and an
offset beyond 1 ms is written into OFS, with a management record. -/
def execPtpEventFrame (port : BitVec 4) (offset : BitVec 64) (rate : BitVec 32) (s : State) :
    Host.Outcome State Fault Refusal :=
  .next (
    if s.mgmt.ptpEn && port == s.mgmt.ptpPort && s.frameMode port.toNat && s.fwStage == .idle then
      let m := { s.mgmt with devRate := if rateOk rate then rate else s.mgmt.devRate }
      if 1000000 < offset.toInt.natAbs then
        { s with mgmt := { m with ptpOff := m.ptpOff + offset }
                 out := s.out ++ [.mgmt [s.devTime.toNat, (m.ptpOff + offset).toNat]] }
      else { s with mgmt := m }
    else s)

/-! ### Frame ingest (R438 to R443) -/

/-- A big-endian 16-bit number at an offset of a frame. -/
def be16 (bs : List Byte) (off : Nat) : Nat := (bs.getD off 0).toNat * 256 + (bs.getD (off + 1) 0).toNat

/-- What the classifier reads of a frame: VLAN, EtherType, the offset of what follows it. -/
structure Heads where
  vlan : Option Nat
  etype : Nat
  off : Nat

/-- The headers of a frame, with one 802.1Q tag (R438, R439). -/
def headsOf (bs : List Byte) : Heads :=
  if be16 bs 12 = 0x8100 then { vlan := some (be16 bs 14 % 4096), etype := be16 bs 16, off := 18 }
  else { vlan := none, etype := be16 bs 12, off := 14 }

/-- The UDP destination port of IPv4 without options, or of IPv6 without extension headers (R439). -/
def udpOf (bs : List Byte) (h : Heads) : Option Nat :=
  let at' := fun n => (bs.getD (h.off + n) 0).toNat
  if h.etype = 0x0800 then
    if at' 0 = 0x45 ∧ at' 9 = 17 ∧ be16 bs (h.off + 6) % 2 ^ 13 = 0 then some (be16 bs (h.off + 22)) else none
  else if h.etype = 0x86DD then (if at' 6 = 17 then some (be16 bs (h.off + 42)) else none)
  else none

/-- A PTP event frame (R436): an event message over EtherType 0x88F7, or over UDP/IPv4 on port 319. -/
def ptpEvent (bs : List Byte) (h : Heads) : Bool :=
  (h.etype == 0x88F7 && decide ((bs.getD h.off 0).toNat % 16 < 8)) || (h.etype == 0x0800 && udpOf bs h == some 319)

/-- Whether a classifier rule matches (R439). -/
def ruleHits (w : Word) (h : Heads) (udp : Option Nat) : Bool :=
  let n := w.toNat
  w.getLsbD 63 && (!w.getLsbD 62 || h.etype == n / 2 ^ 16 % 2 ^ 16) && (!w.getLsbD 61 || h.vlan == some (n / 2 ^ 32 % 2 ^ 12)) &&
    (!w.getLsbD 60 || udp == some (n % 2 ^ 16))

/-- The queue that the first matching rule chooses (R439). -/
def Port.classify (p : Port) (bs : List Byte) : Option Nat :=
  let h := headsOf bs
  let u := udpOf bs h
  (p.rules.find? fun r => ruleHits r.2 h u).map fun r => r.2.toNat / 2 ^ 54 % 64

/-- The 32-byte header of a record (R441), with the stamp of a PTP time (R436). -/
def ingestHeader (stamp : Int) (len port queue : Nat) (pad : Bool) (drops seq time : Nat) : List Byte :=
  leBytes 4 (stamp % 1000000000).toNat ++ leBytes 6 (stamp / 1000000000 % 2 ^ 48).toNat ++ leBytes 2 len ++ leBytes 1 port ++ leBytes 1 queue ++
  leBytes 1 pad.toNat ++ leBytes 1 0 ++ leBytes 4 (min drops 0xFFFFFFFF) ++ leBytes 4 seq ++ leBytes 8 time

/-- Pad bytes with zeros to a length. -/
def padTo (n : Nat) (bs : List Byte) : List Byte := bs ++ List.replicate (n - bs.length) 0

/-- A frame that a queue cannot take (R442). -/
def State.queueDrop (s : State) (q : Nat) (u : Ingest) : State :=
  { s with ingest := s.ingest.set q { u with drops := if u.drops = 0xFFFFFFFF then u.drops else u.drops + 1 } }

/-- Write bytes of a ring, performed and counted (R441). -/
def State.ringWrite (s : State) (asid : BitVec 16) (va : Nat) (bs : List Byte) : Except State State :=
  s.devWrite (.frame asid) asid va bs

/-- Write a frame's record into its queue's ring, after a pad record where it would pass the ring's end (R441, R442). -/
def State.ingestFrame (s : State) (port q : Nat) (u : Ingest) (bs : List Byte) : State :=
  let size := if u.slotMode then 2 ^ u.slot else (32 + bs.length + 63) / 64 * 64
  let ring := 2 ^ u.k
  let pos := u.prod % ring
  let pad := if pos + size ≤ ring then 0 else ring - pos
  match s.devRead none u.asid u.cons.toNat 8 with
  | .error _ => s.queueDrop q u
  | .ok cons =>
    if size < 32 + bs.length ∨ ring < size ∨ ringRoom u.k u.prod (leNat cons) (pad + size) = false then s.queueDrop q u
    else
      let stamp : Int := s.devTime.toNat + s.mgmt.ptpOff.toInt
      let head := fun len p drops seq => ingestHeader stamp len port q p drops seq s.devTime.toNat
      let padded := if pad = 0 then .ok s
        else s.ringWrite u.asid (u.base.toNat + pos) (padTo pad (head 0 true 0 u.seq.toNat))
      match padded with
      | .error s1 => s1.queueDrop q u
      | .ok s1 =>
        let seq := if pad = 0 then u.seq else u.seq + 1
        match s1.ringWrite u.asid (u.base.toNat + (u.prod + pad) % ring)
            (padTo size (head bs.length false u.drops.toNat seq.toNat ++ bs)) with
        | .error s2 => s2.queueDrop q u
        | .ok s2 =>
          { s2 with ingest := s2.ingest.set q { u with prod := u.prod + pad + size, seq := seq + 1, drops := 0 } }

/-- FRAME_RECEIVE (R438 to R443): bytes are the frame without its FCS. The spec does not say what becomes of a frame whose rule names
a queue that is off or was never set: the port drops and counts it (log entry 154). -/
def execFrameReceive (port : BitVec 4) (bytes : List Byte) (fcsOk : Bool) (s : State) : Host.Outcome State Fault Refusal :=
  .next (
    let p := s.ports.getD port.toNat Port.fresh
    if !s.frameMode port.toNat || p.st != 2 then s
    else
      let drop := s.modPort port.toNat fun p => { p with dropped := p.dropped + 1 }
      let h := headsOf bytes
      if !fcsOk || decide (bytes.length + 4 < 64) || decide (p.maxf.toNat < bytes.length + 4) || h.etype == 0x8808 then drop
      else if port == s.mgmt.ptpPort && ptpEvent bytes h then s
      else match p.classify bytes with
        | none => drop
        | some q =>
          match s.ingest.get? q with
          | none => drop
          | some u => if u.k = 0 then drop else s.ingestFrame port.toNat q u bytes)

end Sys2Proof.Machine
end

