-- ==== Sys2Proof/Machine/Mgmt.lean ====
section
/-!
DEFINITION. Machine/Mgmt.lean: the requests of the host over TOCL, the management commands and registers (R422, R437, R439,
R440, R446, R453, R454, R468, R474, R483, R484).
-/
namespace Sys2Proof.Machine

/-! ### Sessions (R453, R483) -/

/-- Status DENIED. -/
def denied : Nat := 0x02
/-- Status BAD_FIELD. -/
def badField : Nat := 0x04

/-- Answer a request. -/
def State.reply (s : State) (h : Toc) (st : Nat) (data : List Nat) : State := { s with out := s.out ++ [.answer h st data] }

/-- Whether a session has a request whose answer is still to come. -/
def State.tocBusy (s : State) (n : Option (BitVec 4)) : Bool := s.toclCancels.any fun k => k.1.sess == n

/-- The heading of a host request that may be given by Botra too. -/
def giverHead (g : Giver) : Option Toc :=
  match g with
  | .host h => some h
  | .botra => none

/-- The heading of a request of the host over TOCL; an event of another kind has none. -/
def tocOf (i : Instr) : Option Toc :=
  match i with
  | .freeze h => some h
  | .toclLaunch h .. => some h
  | .toclCancel h .. => some h
  | .toclWrite h .. => some h
  | .toclRead h .. => some h
  | .regionCreate h .. => some h
  | .regionDestroy h .. => some h
  | .regionRead h .. => some h
  | .counterSet h .. => some h
  | .sessionBind h .. => some h
  | .regRead h .. => some h
  | .regWrite h .. => giverHead h
  | .groupSet h .. => some h
  | .ingestSet h .. => some h
  | .portSet h .. => some h
  | .ruleSet h .. => some h
  | .routeSet h .. => some h
  | .queueSet h .. => some h
  | .saveSet h .. => some h
  | .subSet h .. => some h
  | .attest h .. => some h
  | .fwStage h .. => some h
  | .fwCommit h => some h
  | .trimSet g _ => giverHead g.who
  | .clkSet g => giverHead g.who
  | _ => none

/-- The sequence number that a session goes on with; none for a task session that is not bound (R453, R483). -/
def State.seqOf (s : State) (h : Toc) : Option (BitVec 32) :=
  match h.sess with
  | none => some s.ctlSeq
  | some n =>
    match s.sessions.get? n.toNat with
    | some e => if e.asid.isSome then some e.seq else none
    | none => none

/-- Whether a task session has a request outstanding (R483): a CANCEL to be answered, or a request that is held. -/
def State.sessionOpen (s : State) (n : BitVec 4) : Bool :=
  s.tocBusy (some n) || s.tocHeld.any fun i => match tocOf i with
    | some h => h.sess == some n
    | none => false

/-- Act on a request in the sequence order of its session, once; f is given the session's address space, none for the
control session. A later number waits, an earlier one has been performed (R453, R483). After a failed boot only the boot
status is answered, with its step and its cause (R475). -/
def State.toclIn (s : State) (h : Toc) (f : Option (BitVec 16) → State → State) : State :=
  match s.bootFail with
  | some k => { s with out := s.out ++ [.bootStatus k.step k] }
  | none => match h.sess with
    | none => if h.seq = s.ctlSeq then f none { s with ctlSeq := s.ctlSeq + 1 } else s
    | some n =>
      match s.sessions.get? n.toNat with
      | none => s.reply h denied []
      | some e =>
        match e.asid with
        | none => s.reply h denied []
        | some a =>
          if h.seq = e.seq ∧ s.tocBusy h.sess = false then
            f (some a) { s with sessions := s.sessions.set n.toNat { e with seq := e.seq + 1 } }
          else s

/-- A request that is acted on only on a task session (R483). -/
def State.taskReq (s : State) (h : Toc) (f : BitVec 16 → State → State) : State :=
  s.toclIn h fun a s =>
    match a with
    | none => s.reply h denied []
    | some a => f a s

/-- A management command: it waits during the quiescent point of a firmware update (R479), but for one on a session that is not
bound, which is never acted on and answered DENIED (R483). -/
def State.mgmtReq (s : State) (h : Toc) (f : Option (BitVec 16) → State → State) : State :=
  if s.fwStage = .idle ∨ s.seqOf h = none then s.toclIn h f else s

/-- A management command that is kept to the control session (R483). -/
def State.ctlReq (s : State) (h : Toc) (f : State → State) : State :=
  s.mgmtReq h fun a s =>
    match a with
    | none => f s
    | some _ => s.reply h denied []

/-- A management command that names an address space: DENIED when a task session names another (R483). -/
def State.asidReq (s : State) (h : Toc) (asid : BitVec 16) (f : State → State) : State :=
  s.mgmtReq h fun a s => if a.isSome && a != some asid then s.reply h denied [] else f s

/-! ### Requests of task sessions (R453) -/

/-- TOCL_LAUNCH (R237, R453): the status and the LID. -/
def execToclLaunch (h : Toc) (q : BitVec 6) (pkt : BitVec 1024) (s : State) : Host.Outcome State Fault Refusal :=
  .next (s.taskReq h fun a s =>
    let r := s.offer q pkt a
    r.1.reply h (r.2.toNat % 256) [r.2.toNat / 2 ^ 32])

/-- TOCL_CANCEL (R259, R453): answered once every affected task has been handled. -/
def execToclCancel (h : Toc) (lvl : BitVec 3) (id : BitVec 32) (tidx : BitVec 24) (s : State) :
    Host.Outcome State Fault Refusal :=
  .next (s.taskReq h fun a s =>
    if 4 < lvl.toNat then s.reply h badField []
    else match s.cancelNames a lvl.toNat (id.setWidth 64) (tidx.setWidth 64) none with
      | .error st => s.reply h st [0]
      | .ok l =>
        let (s1, n, w) := s.cancelTasks l
        if w.isEmpty then s1.reply h 0 [n] else { s1 with toclCancels := s1.toclCancels ++ [(h, n, w)] })

/-- Answer the TOCL CANCELs whose tasks have all been handled. -/
def State.cancelAnswers (s : State) : State :=
  let done := fun (k : Toc × Nat × List (Nat × Nat)) => k.2.2.all s.taskOver
  { s with toclCancels := s.toclCancels.filter fun k => !done k
           out := s.out ++ (s.toclCancels.filter done).map fun k => OutMsg.answer k.1 0 [k.2.1] }

/-- The first piece of a range that does not translate to mapped memory, or the end of the address space behind the pieces that do
(R453 step 1). -/
def State.hostTranslation (s : State) (asid : BitVec 16) (va n : Nat) : Option (Cause × Nat) :=
  match (vPieces va (min n (2 ^ 72 - va))).findSome? fun p =>
    match s.translate asid p.1 with
    | .error k => some (k, p.1)
    | .ok t => if !pteFab t.pte && (s.paKind t.pa).isNone then some (.translation, p.1) else none with
  | some x => some x
  | none => if 2 ^ 72 < va + n then some (.translation, max va (2 ^ 72)) else none

/-- The checks of a host access (R453): the physical pieces, or the cause and the lowest failing address. -/
def State.hostRange (s : State) (asid : BitVec 16) (p : Perm) (va n : Nat) : Except (Cause × Nat) (List (Nat × Nat)) :=
  match s.hostTranslation asid va n with
  | some x => .error x
  | none => s.vRange none asid p va n

/-- The offset of the first byte behind physical pieces that a sealed region covers (R453). -/
def State.sealedAt (s : State) (l : List (Nat × Nat)) : Nat :=
  (((l.map fun p => span p.1 p.2).flatten).findIdx? fun a => s.sealedHit [(a, 1)]).getD 0

/-- TOCL_WRITE (R453): performed and counted; an overflow is capped and answered; the answer of a write into a sealed region names
its lowest sealed byte. -/
def execToclWrite (h : Toc) (va : VAddr) (bytes : List Byte) (s : State) : Host.Outcome State Fault Refusal :=
  .next (s.taskReq h fun a s =>
    if 4096 < bytes.length then s.reply h badField []
    else match s.hostRange a .w va.toNat bytes.length with
      | .error x => (s.fltVirt a va.toNat bytes.length).reply h x.1.code [x.2]
      | .ok l =>
        if s.sealedHit l then (s.setFlt l).reply h Cause.sealedWrite.code [va.toNat + s.sealedAt l]
        else
          let excess := !(s.dieRefusers l).isEmpty
          (s.performWrite .dev (some a) va.toNat l bytes).reply h (if excess then Cause.arrivalOverflow.code else 0) [])

/-- TOCL_READ (R453). -/
def execToclRead (h : Toc) (va : VAddr) (len : BitVec 13) (s : State) : Host.Outcome State Fault Refusal :=
  .next (s.taskReq h fun a s =>
    if 4096 < len.toNat then s.reply h badField []
    else match s.hostRange a .r va.toNat len.toNat with
      | .error x => s.reply h x.1.code [x.2]
      | .ok l =>
        match s.badPiece l with
        | some i => s.reply h Cause.uncorrectableData.code [va.toNat + i]
        | none => s.reply h 0 ((s.readPieces l).map (·.toNat)))

/-- FREEZE (R422): the TOCL command has no answer. -/
def execFreeze (h : Toc) (s : State) : Host.Outcome State Fault Refusal :=
  .next (s.toclIn h fun a s =>
    match a with
    | none => { s with frozen := true }
    | some _ => s.reply h denied [])

/-! ### Regions (R295, R296, R454) -/

/-- A die entry from its layout (R296), VALID set. -/
def Region.ofWords (sp : Space) (gen : BitVec 8) (w0 w1 w2 w3 w4 : Word) : Region :=
  { spc := sp, base := w0.toNat % 2 ^ 60 * 4096, asid := w1.extractLsb' 48 16, gen := gen, k := (w1.extractLsb' 34 6).toNat,
    sealed := w1.getLsbD 33, rearm := w1.getLsbD 32, act := w1.extractLsb' 30 2, flt := w1.getLsbD 25, ovf := w1.getLsbD 24,
    fired := w1.getLsbD 23, valid := true, fires := w1.extractLsb' 0 16, count := w2.toNat % 2 ^ 48,
    target := w3.toNat % 2 ^ 48, arg := w4.setWidth 60 }

/-- Whether two entries overlap in one space. -/
def Region.overlaps (a b : Region) : Bool :=
  a.spc == b.spc && decide (a.base < b.base + 2 ^ b.k) && decide (b.base < a.base + 2 ^ a.k)

/-- Whether an entry's fields are in order. -/
def Region.formOk (r : Region) (w0 w1 : Word) : Bool :=
  decide (12 ≤ r.k) && decide (r.k ≤ 40) && decide (r.base % 2 ^ r.k = 0) && w1.extractLsb' 26 4 == 0 &&
  w1.extractLsb' 16 6 == 0 && decide (r.base + 2 ^ r.k ≤ 2 ^ 72) &&
  (r.spc == .virt || (levelOk r.base && decide (r.k ≤ 30))) && decide (w0.toNat % 2 ^ 60 * 4096 = r.base)

/-- REGION_CREATE (R454). -/
def execRegionCreate (h : Toc) (die : BitVec 2) (idx : BitVec 16) (w0 w1 w2 w3 w4 : Word) (s : State) :
    Host.Outcome State Fault Refusal :=
  .next (s.asidReq h (w1.extractLsb' 48 16) fun s =>
    let id := die.toNat * 65536 + idx.toNat
    match Space.ofCode (w0.toNat / 2 ^ 60) with
    | none => s.reply h badField []
    | some sp =>
      let gen := match s.space (w1.extractLsb' 48 16) with
        | some a => a.gen
        | none => 0
      let r := Region.ofWords sp gen w0 w1 w2 w3 w4
      if !dieSide sp || !r.formOk w0 w1 || s.regions.has id || s.regions.any (fun e => e.2.asid == r.asid && e.2.overlaps r) then
        s.reply h badField []
      else { s with regions := s.regions.set id r }.reply h 0 [])

/-- Whether footprint holders remain over an entry (R324, R454). -/
def State.entryHeld (s : State) (r : Region) : Bool :=
  let meets := fun (q : Hold) => q.sp == r.spc && decide (q.base < r.base + 2 ^ r.k) && decide (r.base < q.base + q.len)
  (s.standing r.asid).any meets ||
    s.launches.any fun e => e.2.asid == r.asid && e.2.tasks.any fun t =>
      t.2.passed && !t.2.st.terminal && (e.2.holds t.1).any meets

/-- A command on an existing entry: DENIED for another address space's, BAD_FIELD where there is none. -/
def State.entryReq (s : State) (h : Toc) (id : Nat) (f : Region → State → State) : State :=
  s.mgmtReq h fun a s =>
    match s.regions.get? id with
    | none => s.reply h badField []
    | some r => if a.isSome && a != some r.asid then s.reply h denied [] else f r s

/-- REGION_DESTROY (R454). -/
def execRegionDestroy (h : Toc) (die : BitVec 2) (idx : BitVec 16) (s : State) : Host.Outcome State Fault Refusal :=
  .next (s.entryReq h (die.toNat * 65536 + idx.toNat) fun r s =>
    if s.entryHeld r then s.reply h badField []
    else { s with regions := s.regions.del (die.toNat * 65536 + idx.toNat)
                  replicas := s.replicas.filter fun p => p.1 != die.toNat * 65536 + idx.toNat }.reply h 0 [])

/-- REGION_READ (R454): refused, as REGION_DESTROY is, while footprint holders remain. -/
def execRegionRead (h : Toc) (die : BitVec 2) (idx : BitVec 16) (s : State) : Host.Outcome State Fault Refusal :=
  .next (s.entryReq h (die.toNat * 65536 + idx.toNat) fun r s =>
    if s.entryHeld r then s.reply h badField [] else s.reply h 0 r.words)

/-! ### Counters (R232, R256, R454) -/

/-- Whether some launch that names a counter has a task that is not terminal. -/
def State.counterBusy (s : State) (f : BitVec 1024 → Option Nat) (n : Nat) : Bool :=
  s.launches.any fun e => f e.2.pkt == some n && decide (e.2.done + e.2.failed < pktTasks e.2.pkt)

/-- Whether a PHASE waits on a counter (R454). -/
def State.phaseWaits (s : State) (n : Nat) : Bool :=
  s.cores.any fun e => (s.ctx (BitVec.ofNat 9 e.1)).ownC.phaseArr && pktPhase (s.pktOf (BitVec.ofNat 9 e.1)) == some n

/-- COUNTER_SET (R454). -/
def execCounterSet (h : Toc) (kind : CtrKind) (n : BitVec 12) (target : BitVec 32) (clk : Bool) (s : State) :
    Host.Outcome State Fault Refusal :=
  .next (s.mgmtReq h fun _ s =>
    let i := n.toNat
    match kind with
    | .graph =>
      if clk || s.counterBusy pktGraph i then s.reply h badField []
      else { s with graphs := s.graphs.set i { Ctr.fresh with target := target } }.reply h 0 []
    | .job =>
      if clk || decide (64 ≤ i) || s.counterBusy pktJob i then s.reply h badField []
      else { s with jobs := s.jobs.set i { Ctr.fresh with target := target } }.reply h 0 []
    | .phase =>
      if decide (256 ≤ i) || s.counterBusy pktPhase i || (s.phases.getD i PhCtr.fresh).boundary || s.phaseWaits i then
        s.reply h badField []
      else { s with phases := s.phases.set i { PhCtr.fresh with target := target, clk := clk } }.reply h 0 [])

/-! ### Sessions, groups, ports, routes (R437, R439, R444, R446, R483) -/

/-- SESSION_BIND (R483): refused while the session has a request outstanding. -/
def execSessionBind (h : Toc) (n : BitVec 4) (asid : BitVec 16) (unbind : Bool) (s : State) :
    Host.Outcome State Fault Refusal :=
  .next (s.ctlReq h fun s =>
    if s.sessionOpen n then s.reply h badField []
    else
      { s with sessions := s.sessions.set n.toNat { asid := if unbind then none else some asid, seq := 0 } }.reply h 0 [])

/-- GROUP_SET (R446). -/
def execGroupSet (h : Toc) (g : BitVec 6) (asid : BitVec 16) (devs : List (BitVec 12)) (rank : BitVec 4) (s : State) :
    Host.Outcome State Fault Refusal :=
  .next (s.asidReq h asid fun s =>
    if devs.length < 2 ∨ 16 < devs.length ∨ devs.length ≤ rank.toNat then s.reply h badField []
    else
      { s with collFails := s.collFails.filter (fun e => e.1 != g.toNat), groups := s.groups.set g.toNat { asid := asid, devs := devs, rank := rank.toNat, posted := 0 } }.reply h 0 [])

/-- A write of PORTCFG (R437): MAXF and MODE under the access codes of R15; frame mode needs the FRAME feature. R437 does not say how
long STATE shows down on the way into training: the model shows training at once, here and after a loss of the link (log entry
154). -/
def State.portWrite (s : State) (p : Nat) (v : Word) : State :=
  s.modPort p fun q =>
    let maxf : BitVec 14 := v.extractLsb' 16 14
    let mode : BitVec 2 := v.extractLsb' 0 2
    let q1 := { q with maxf := if 64 ≤ maxf.toNat ∧ maxf.toNat ≤ 9216 then maxf else q.maxf }
    if mode = 3 ∨ mode = q.mode ∨ (mode = 2 ∧ s.mgmt.usable.getLsbD 2 = false) then q1
    else { q1 with mode := mode, st := if mode = 0 then 0 else 1 }

/-- PORT_SET (R437, R454). -/
def execPortSet (h : Toc) (port : BitVec 4) (v : Word) (s : State) : Host.Outcome State Fault Refusal :=
  .next (s.ctlReq h fun s =>
    if v.extractLsb' 0 2 = 3 then s.reply h badField [] else (s.portWrite port.toNat v).reply h 0 [])

/-- RULE_SET (R439). -/
def execRuleSet (h : Toc) (port : BitVec 4) (rule : BitVec 6) (v : Word) (s : State) : Host.Outcome State Fault Refusal :=
  .next (s.ctlReq h fun s =>
    (s.modPort port.toNat fun p => { p with rules := p.rules.put rule.toNat (v &&& ~~~(0x3FF#64 <<< 44)) 0 }).reply h 0 [])

/-- ROUTE_SET (R444): an entry of the route table, or the device's own DEVID. -/
def execRouteSet (h : Toc) (dev : BitVec 12) (port : RouteDest) (s : State) : Host.Outcome State Fault Refusal :=
  .next (s.ctlReq h fun s =>
    match port with
    | .port p => { s with routes := s.routes.put dev.toNat p 0 }.reply h 0 []
    | .here => { s with devId := dev }.reply h 0 [])

/-! ### Rings and save ranges (R402, R413, R440, R468, R474) -/

/-- Whether a range of an address space overlaps a standing or a committed holder (R325, R440). -/
def State.rangeHeld (s : State) (asid : BitVec 16) (base len : Nat) : Bool :=
  let meets := fun (q : Hold) => q.sp == .virt && decide (q.base < base + len) && decide (base < q.base + q.len)
  (s.standing asid).any meets ||
    s.launches.any fun e => e.2.asid == asid && e.2.tasks.any fun t =>
      t.2.passed && !t.2.st.terminal && (e.2.holds t.1).any meets

/-- INGEST_SET (R440). -/
def execIngestSet (h : Toc) (q : BitVec 6) (w0 w1 w2 : Word) (s : State) : Host.Outcome State Fault Refusal :=
  .next (s.asidReq h (w1.extractLsb' 32 16) fun s =>
    let asid := w1.extractLsb' 32 16
    let k := (w1.extractLsb' 26 6).toNat
    let mode := (w1.extractLsb' 24 2).toNat
    let slot := (w1.extractLsb' 20 4).toNat
    let hi := (w1.extractLsb' 56 8).toNat * 2 ^ 64
    let base := hi + w0.toNat
    let other := match s.ingest.get? q.toNat with
      | some u => u.asid != asid
      | none => false
    let s0 := { s with ingest := s.ingest.del q.toNat }
    if h.sess.isSome && other then s.reply h denied []
    else if mode = 3 ∨ w1.extractLsb' 48 8 ≠ 0 ∨ w1.extractLsb' 0 20 ≠ 0 then s.reply h badField []
    else if mode = 0 then s0.reply h 0 []
    else if k < 12 ∨ 30 < k ∨ base % 2 ^ k ≠ 0 ∨ w2.toNat % 8 ≠ 0 ∨ (mode = 1 ∧ (slot < 7 ∨ 14 < slot)) then s.reply h badField []
    else if s0.rangeHeld asid base (2 ^ k) then s.reply h badField []
    else
      let u : Ingest :=
        { base := BitVec.ofNat 72 base, cons := BitVec.ofNat 72 (hi + w2.toNat), asid := asid, k := k, slotMode := mode == 1,
          slot := slot, prod := 0, seq := 0, drops := 0 }
      { s0 with ingest := s0.ingest.set q.toNat u }.reply h 0 [])

/-- QUEUE_SET (R474): refused while the queue holds launches. -/
def execQueueSet (h : Toc) (q : BitVec 6) (level : BitVec 3) (asid : BitVec 16) (base : VAddr) (k : BitVec 6) (cons : VAddr)
    (s : State) : Host.Outcome State Fault Refusal :=
  .next (s.ctlReq h fun s =>
    let old := s.queues.get? q.toNat
    if s.waitingIn q ≠ 0 ∨ k.toNat < 12 ∨ 24 < k.toNat ∨ base.toNat % 2 ^ k.toNat ≠ 0 ∨ cons.toNat % 8 ≠ 0 then s.reply h badField []
    else
      let (seq, waiting) := match old with
        | some u => (u.seq, u.waiting)
        | none => (0, [])
      let u : Queue :=
        { level := level, asid := asid, ring := base, ringK := k.toNat, cons := cons, prod := 0, seq := seq,
          waiting := waiting }
      { s with queues := s.queues.set q.toNat u }.reply h 0 [])

/-- SAVE_SET (R413, R474). -/
def execSaveSet (h : Toc) (asid : BitVec 16) (base : VAddr) (size : BitVec 64) (s : State) :
    Host.Outcome State Fault Refusal :=
  .next (s.asidReq h asid fun s =>
    match s.space asid with
    | none => s.reply h badField []
    | some a =>
      let inOld := (s.areas asid).any fun r => decide (a.saveBase ≤ r.1) && decide (r.1 < a.saveBase + a.saveSize)
      let covered := s.regions.any fun e =>
        e.2.asid == asid && e.2.spc == .virt && decide (e.2.base < base.toNat + size.toNat) &&
          decide (base.toNat < e.2.base + 2 ^ e.2.k)
      if base.toNat % 0x10000 ≠ 0 ∨ size.toNat % 0x10000 ≠ 0 ∨ inOld = true ∨ covered = true then s.reply h badField []
      else
        { s with spaces := s.spaces.set asid.toNat { a with saveBase := base.toNat, saveSize := size.toNat } }.reply h 0 [])

/-- Whether INDEX of a subscription is in range (R468). -/
def subIndexOk (kind index : Nat) : Bool :=
  match kind with
  | 1 => index == 0
  | 2 => decide (index < 4)
  | 3 => decide (index < 512)
  | _ => decide (index < 544)

/-- SUB_SET (R468, R474). -/
def execSubSet (h : Toc) (n : BitVec 8) (w0 w1 w2 w3 w4 : Word) (s : State) : Host.Outcome State Fault Refusal :=
  .next (s.asidReq h (w1.extractLsb' 32 16) fun s =>
    let asid := w1.extractLsb' 32 16
    let k := (w1.extractLsb' 26 6).toNat
    let kind := (w1.extractLsb' 22 4).toNat
    let index := (w1.extractLsb' 0 16).toNat
    let hi := (w1.extractLsb' 56 8).toNat * 2 ^ 64
    let base := hi + w0.toNat
    let other := match s.subs.get? n.toNat with
      | some u => u.asid != asid
      | none => false
    let s0 := { s with subs := s.subs.del n.toNat }
    if h.sess.isSome && other then s.reply h denied []
    else if 4 < kind ∨ w1.extractLsb' 48 8 ≠ 0 ∨ w1.extractLsb' 16 3 ≠ 0 then s.reply h badField []
    else if kind = 0 then s0.reply h 0 []
    else if subIndexOk kind index = false ∨ k < 12 ∨ 24 < k ∨ base % 2 ^ k ≠ 0 ∨ w2.toNat % 8 ≠ 0 ∨ w3.sle w4 = true then
      s.reply h badField []
    else if s0.rangeHeld asid base (2 ^ k) then s.reply h badField []
    else
      let u : Sub :=
        { base := BitVec.ofNat 72 base, cons := BitVec.ofNat 72 (hi + w2.toNat), asid := asid, k := k, kind := kind,
          hold := w1.getLsbD 21, hclass := w1.extractLsb' 19 2, index := index, high := w3, low := w4, above := false,
          prod := 0, seq := 0, drops := 0 }
      { s0 with subs := s0.subs.set n.toNat u }.reply h 0 [])

/-! ### Management registers (R484) -/

/-- CLKCTL (R466). -/
def Mgmt.clkctl (m : Mgmt) : Nat :=
  m.clkCur.toNat * 2 ^ 32 + m.clkReq.toNat * 2 ^ 16 + m.clkDefer.toNat * 2 + (m.clkReq != m.clkCur).toNat

/-- PORTCFG of a port (R437). -/
def Port.cfg (p : Port) : Nat := p.maxf.toNat * 2 ^ 16 + p.st.toNat * 2 ^ 8 + p.mode.toNat

/-- The value of a management register; none for a reserved number (R484). -/
def State.regValue (s : State) (n : Nat) : Option Nat :=
  let m := s.mgmt
  if n = 0x000 then some s.features.toNat
  else if 0x010 ≤ n ∧ n ≤ 0x013 then some (m.caps.getD (n - 0x010) 0).toNat
  else if n = 0x020 then some m.clkctl
  else if n = 0x030 then some m.devRate.toNat
  else if n = 0x031 then some m.ptpOff.toNat
  else if n = 0x032 then some (m.ptpEn.toNat * 16 + m.ptpPort.toNat)
  else if 0x040 ≤ n ∧ n ≤ 0x04F then some (s.ports.getD (n - 0x040) Port.fresh).cfg
  else if n = 0x050 then some m.linkTo.toNat
  else if 0x060 ≤ n ∧ n ≤ 0x063 then some (m.drainMax.getD (n - 0x060) 0).toNat
  else if n = 0x064 then some m.hangWd.toNat
  else if 0x070 ≤ n ∧ n ≤ 0x073 then some (m.emBase.getD (n - 0x070) 0).toNat
  else none

/-- REG_READ (R484). -/
def execRegRead (h : Toc) (num : BitVec 12) (s : State) : Host.Outcome State Fault Refusal :=
  .next (s.mgmtReq h fun _ s =>
    match s.regValue num.toNat with
    | some v => s.reply h 0 [v]
    | none => s.reply h badField [])

/-- A host write of a management register, for the numbers that R484 opens to it. -/
def State.regSet (s : State) (n : Nat) (v : Word) : Option State :=
  if 0x040 ≤ n ∧ n ≤ 0x04F then some (s.portWrite (n - 0x040) v)
  else if n = 0x050 then some { s with mgmt := { s.mgmt with linkTo := v.setWidth 32 } }
  else if 0x060 ≤ n ∧ n ≤ 0x063 then some { s with mgmt := { s.mgmt with drainMax := s.mgmt.drainMax.put (n - 0x060) v 0 } }
  else if n = 0x064 then some { s with mgmt := { s.mgmt with hangWd := v.setWidth 32 } }
  else none

/-- Whether a frequency lies in the range of CLKCTL.REQ (R466). -/
def clkOk (req : BitVec 8) : Bool := decide (0x0A ≤ req.toNat) && decide (req.toNat ≤ 0x18)

/-- Botra's update of CAPS (R314): the channels in service and the spare banks in use, each within its range. DEGR and SHED follow the
states of the layers (R313; log entry 154). -/
def capsPut (old v : Word) : Word :=
  let put := fun (w : Word) (lo n lim : Nat) =>
    let field : Word := BitVec.ofNat 64 ((2 ^ n - 1) * 2 ^ lo)
    if v.toNat / 2 ^ lo % 2 ^ n ≤ lim then (w &&& ~~~field) ||| (v &&& field) else w
  put (put (put (put (put old 40 5 24) 31 9 256) 23 8 128) 17 6 32) 12 5 16

/-- A write of a register that only Botra writes, under the access codes of R15 (R314, R435, R466, R484). -/
def Mgmt.put (m : Mgmt) (n : Nat) (v : Word) : Mgmt :=
  if 0x010 ≤ n ∧ n ≤ 0x013 then { m with caps := m.caps.put (n - 0x010) (capsPut (m.caps.getD (n - 0x010) 0) v) 0 }
  else if n = 0x020 then
    let req : BitVec 8 := v.extractLsb' 16 8
    { m with clkReq := if clkOk req then req else m.clkReq, clkDefer := m.clkNow || (m.clkDefer && !v.getLsbD 1) }
  else if n = 0x030 then { m with devRate := if rateOk (v.setWidth 32) then v.setWidth 32 else m.devRate }
  else if n = 0x031 then { m with ptpOff := v }
  else if n = 0x032 then { m with ptpEn := v.getLsbD 4, ptpPort := v.setWidth 4 }
  else m

/-- Botra writes a management register through the management port: every register (R484); the fields that are RO ignore it. -/
def State.regPut (s : State) (n : Nat) (v : Word) : Option State :=
  match s.regSet n v with
  | some s1 => some s1
  | none => if (s.regValue n).isSome then some { s with mgmt := s.mgmt.put n v } else none

/-- Answer a command that Botra gives. -/
def State.portReply (s : State) (st : Nat) (data : List Nat) : State := { s with out := s.out ++ [.port st data] }

/-- A command of Botra: Botra runs once the package has booted, and not in a quiescent point (R475, R479). -/
def State.botraReq (s : State) (f : State → State) : State := if s.bootOk && s.fwStage == .idle then f s else s

/-- REG_WRITE (R484). -/
def execRegWrite (h : Giver) (num : BitVec 12) (v : Word) (s : State) : Host.Outcome State Fault Refusal :=
  .next (match h with
    | .host h => s.ctlReq h fun s =>
      match s.regSet num.toNat v with
      | some s1 => s1.reply h 0 []
      | none => s.reply h (if (s.regValue num.toNat).isSome then denied else badField) []
    | .botra => s.botraReq fun s =>
      match s.regPut num.toNat v with
      | some s1 => s1.portReply 0 []
      | none => s.portReply badField [])

end Sys2Proof.Machine
end

