-- ==== Sys2Proof/Machine/Power.lean ====
section
/-!
DEFINITION. Machine/Power.lean: trims and the clock request, subscriptions, retention and wake, package reset, attestation
and live firmware update (R18, R421, R465 to R480).
-/
namespace Sys2Proof.Machine

/-! ### Trims and the clock (R465, R466) -/

/-- A command that only Botra gives: the host is answered DENIED (R474). -/
def State.botraOnly (s : State) (who : Giver) (f : State → State) : State :=
  match who with
  | .host h => s.mgmtReq h fun _ s => s.reply h denied []
  | .botra => s.botraReq f

/-- TRIM_SET (R465, R474): the voltage that an island is to move to. -/
def execTrimSet (island : Given (BitVec 10)) (mv : BitVec 16) (s : State) : Host.Outcome State Fault Refusal :=
  .next (s.botraOnly island.who fun s =>
    if island.arg.toNat < 544 then { s with trimGoal := s.trimGoal.set island.arg.toNat mv }.portReply 0 []
    else s.portReply badField [])

/-- One µs of a trim: at most 5 mV toward the voltage that Botra has set (R465). -/
def trimStep (old goal : BitVec 16) : BitVec 16 :=
  BitVec.ofNat 16 (if old.toNat + 5 ≤ goal.toNat then old.toNat + 5
    else if goal.toNat + 5 ≤ old.toNat then old.toNat - 5 else goal.toNat)

/-- Islands move for one µs; those that have arrived move no further (R465). -/
def State.slewTrims (s : State) : State :=
  s.trimGoal.foldl (fun (s : State) g =>
    let v := trimStep (s.trims.getD g.1 0) g.2
    { s with trims := s.trims.put g.1 v 0, trimGoal := if v = g.2 then s.trimGoal.del g.1 else s.trimGoal }) s

/-- CLK_SET (R466, R474): a request outside 0x0A to 0x18 leaves REQ unchanged. -/
def execClkSet (req : Given (BitVec 8)) (s : State) : Host.Outcome State Fault Refusal :=
  .next (s.botraOnly req.who fun s =>
    if clkOk req.arg then { s with mgmt := { s.mgmt with clkReq := req.arg } }.portReply 0 [] else s.portReply badField [])

/-! ### Subscriptions (R468 to R471) -/

/-- The 64 bytes of a notify record (R471). -/
def notifyBytes (now : Word) (edge : Bool) (n : Nat) (u : Sub) (v : Word) : List Byte :=
  leBytes 64 (now.toNat + field 8 (edge.toNat * 2 ^ 44 + u.kind % 16 * 2 ^ 40 + n * 2 ^ 32 + u.seq.toNat) + field 16 v.toNat +
    field 24 u.high.toNat + field 32 u.low.toNat + field 40 u.drops.toNat)

/-- Write a notify record into a subscription's ring, or drop and count it (R471). -/
def State.notify (s : State) (n : Nat) (u : Sub) (edge : Bool) (v : Word) : State :=
  let drop := fun (s : State) =>
    { s with subs := s.subs.set n { u with drops := if u.drops = 0xFFFFFFFF then u.drops else u.drops + 1 } }
  match s.devRead none u.asid u.cons.toNat 8 with
  | .error _ => drop s
  | .ok cons =>
    if ringRoom u.k u.prod (leNat cons) 64 then
      match s.devWrite .dev u.asid (u.base.toNat + u.prod % 2 ^ u.k) (notifyBytes s.devTime edge n u v) with
      | .error s1 => drop s1
      | .ok s1 => { s1 with subs := s1.subs.set n { u with prod := u.prod + 64, seq := u.seq + 1, drops := 0 } }
    else drop s

/-- A subscription takes a sample of its sensor (R469). -/
def State.subSample (s : State) (n : Nat) (v : Word) : State :=
  match s.subs.get? n with
  | none => s
  | some u =>
    if u.above = false ∧ u.high.sle v = true then s.notify n { u with above := true } true v
    else if u.above = true ∧ v.sle u.low = true then s.notify n { u with above := false } false v
    else s

/-- The sensor of a subscription (R468). -/
def Sub.sensor (u : Sub) : Nat := u.kind * 65536 + u.index

/-- A sensor is sampled in a µs of DEVTIME: every subscription that watches it takes the sample (R469). -/
def State.sampleSensor (s : State) (k us : Nat) (v : Word) : State :=
  ((s.subs.filter fun e => e.2.sensor == k).map (·.1)).foldl (fun s n => s.subSample n v)
    { s with sampled := s.sampled.put k (us + 1) 0 }

/-- What a sensor shows in a µs: the heat of a core is what its governor measured in it, if it did (R251, R468). -/
def State.heatOr (s : State) (k us : Nat) (v : Word) : Word :=
  let c := s.core (BitVec.ofNat 9 (k % 65536))
  if k / 65536 = 3 ∧ c.govUs = us + 1 then BitVec.ofNat 64 c.govMw else v

/-- SENSOR_SAMPLE (R469): what the sensor of a subscription shows in this µs; it is sampled once in it. -/
def execSensorSample (n : BitVec 8) (v : Word) (s : State) : Host.Outcome State Fault Refusal :=
  .next (match s.subs.get? n.toNat with
    | none => s
    | some u =>
      let us := s.devTime.toNat / 1000
      if u.kind = 0 ∨ s.sampled.getD u.sensor 0 = us + 1 then s else s.sampleSensor u.sensor us (s.heatOr u.sensor us v))

/-- At the end of a µs the device samples every sensor that is watched and has not been sampled in it (R469); what it shows is a
free value. -/
def State.sampleRest (s : State) (us : Nat) : State :=
  (s.subs.map fun e => e.2.sensor).foldl (fun s k =>
    if k < 65536 ∨ s.sampled.getD k 0 = us + 1 then s else s.sampleSensor k us (s.heatOr k us (Config.sensor k us))) s

/-- What takes place once in every µs: sensors are sampled, islands move, and the governors' windows end (R251, R465, R469). -/
def State.microActs (s : State) (old : Word) : State :=
  if s.devTime.toNat / 1000 = old.toNat / 1000 then s else (s.sampleRest (old.toNat / 1000)).slewTrims.freeGovernors

/-! ### Retention and wake (R472, R473) -/

/-- Whether a core is idle (R472). -/
def State.idleCore (s : State) (c : CoreId) : Bool :=
  let k := s.core c
  k.run.isNone && k.lender.isNone && k.ctx.cmds.isEmpty && k.pend.isEmpty

/-- The hold timer starts when an active core becomes idle (R472). -/
def State.holdStart (s : State) (c : CoreId) : State :=
  match (s.core c).pwr with
  | .active => if s.idleCore c then s.modCore c fun k => { k with pwr := .hold s.devTime.toNat } else s
  | _ => s

/-- HOLD_TIMER_EXPIRY (R472): 2 µs of hold have passed. -/
def execHoldTimerExpiry (core : CoreId) (s : State) : Host.Outcome State Fault Refusal :=
  .next (s.modCore core fun k => { k with pwr := s.pwrOf core })

/-- Whether a core asked for its wake after a time t, or at t with a larger number than c's (R473). -/
def State.wakesAfter (s : State) (t : Nat) (c k : CoreId) : Bool :=
  match (s.core k).pwr with
  | .waiting u => decide (t < u) || (u == t && decide (c.toNat < k.toNat))
  | _ => false

/-- A wake request at a time (R472): a held core is active at once, a retained one joins its die's arbiter queue, in arrival
order and among the requests of one cycle by its number (R473). -/
def State.wake (s : State) (c : CoreId) (t : Nat) : State :=
  match s.pwrOf c with
  | .hold _ => s.modCore c fun k => { k with pwr := .active }
  | .retained =>
    let die := c.toNat / 128
    let l := s.arbiter.getD die []
    let q := l.takeWhile (fun k => !s.wakesAfter t c k) ++ c :: l.dropWhile (fun k => !s.wakesAfter t c k)
    let s1 : State := { s with arbiter := s.arbiter.set die q }
    s1.modCore c fun k => { k with pwr := .waiting t }
  | _ => s

/-- WAKE_REQUEST (R472): a request of this cycle. -/
def execWakeRequest (core : CoreId) (s : State) : Host.Outcome State Fault Refusal := .next (s.wake core s.cycle.toNat)

/-- The wakes of a die whose ramp takes a place of its arbiter (R473). -/
def State.ramping (s : State) (die : Nat) : Nat :=
  (s.cores.filter fun e => e.1 / 128 == die && (match e.2.pwr with
    | .waking t => decide (s.devTime.toNat < t + 120)
    | _ => false)).length

/-- Whether a core's request came in an earlier cycle: all of its cycle's have come (R473). -/
def State.wakeOld (s : State) (c : CoreId) : Bool :=
  match (s.core c).pwr with
  | .waiting t => decide (t < s.cycle.toNat)
  | _ => true

/-- The arbiter of a die admits the wake that has waited longest, if a place is free; the requests of a cycle once all of them
have come (R473). -/
def State.admitWake (s : State) (die : Nat) : State :=
  match s.arbiter.getD die [] with
  | [] => s
  | c :: t =>
    if s.wakeOld c && decide (s.ramping die < 8) then
      let s1 : State := { s with arbiter := s.arbiter.set die t }
      s1.modCore c fun k => { k with pwr := .waking s.devTime.toNat }
    else s

/-- WAKE_ADMIT (R473). -/
def execWakeAdmit (die : BitVec 2) (s : State) : Host.Outcome State Fault Refusal := .next (s.admitWake die.toNat)

/-- A ramp and its parity check are over: the core is active (R472). -/
def State.wakeDone (s : State) (c : CoreId) : State :=
  match (s.core c).pwr with
  | .waking t => if t + 130 ≤ s.devTime.toNat then s.modCore c fun k => { k with pwr := .active } else s
  | _ => s

/-- The task of a core's next slot when the cluster has lost its retention (R421): back to its latest checkpoint, or
failed. -/
def State.lostTask (s : State) (c : CoreId) : State :=
  match (s.core c).next with
  | none => s
  | some b =>
    match s.launches.get? b.lid.toNat with
    | none => s
    | some l =>
      if (l.task b.tidx.toNat).resume then s.withdraw c
      else (s.modCore c fun k => { k with next := none, preload := false }).taskFails b.lid.toNat b.tidx.toNat .failed
        .retentionLost (some c) 0 0 0 0

/-- A cluster comes out of retention without its state (R421): the tasks of its unpowered cores, and their cores anew. -/
def State.retentionLost (s : State) (c : CoreId) : State :=
  let mates := ((List.range 512).map (BitVec.ofNat 9)).filter fun k => clusterOf k == clusterOf c
  let off := mates.filter fun k => !(s.pwrOf k).on
  let s1 := off.foldl (fun s k => s.lostTask k) s
  let s2 : State :=
    { s1 with
      arbiter := s1.arbiter.map fun e => (e.1, e.2.filter fun k => !off.contains k)
      t2 := if off.length = mates.length then s1.t2.del (clusterOf c) else s1.t2 }
  off.foldl (fun s k =>
    s.modCore k fun q =>
      { Core.reset k.toNat with pcol := q.pcol, regrown := q.regrown, next := q.next, dead := q.dead,
                                pwr := .hold s.devTime.toNat }) s2

/-- WAKE_RAMP_DONE (R421, R472): the ramp has ended, and the parity check with it or against the core. -/
def execWakeRampDone (core : CoreId) (parityOk : Bool) (s : State) : Host.Outcome State Fault Refusal :=
  .next (match (s.core core).pwr with
    | .waking t =>
      if s.devTime.toNat < t + 120 then s
      else if parityOk then s.wakeDone core
      else s.retentionLost core
    | _ => s)

/-! ### Boot (R18, R475) -/

/-- Whether a record has the form of one (R476). -/
def recForm (r : FwRec) : Bool := r.magic == 0x5A435246 && decide (r.body.length = r.len.toNat)

/-- The digest of a record (R476). -/
def recDigest (r : FwRec) : BitVec 512 := Config.recDigest r

/-- Whether the Creron root has signed a record (R476). -/
def rootSigned (r : FwRec) : Bool := recForm r && r.signer == 0 && Config.sigValid none r

/-- Whether a record is signed as its TYPE asks: the Creron root signs every TYPE; the owner key of a record that the root has
signed may sign a partition policy instead (R476). -/
def State.recOk (s : State) (r : FwRec) : Bool :=
  decide (1 ≤ r.typ.toNat) && decide (r.typ.toNat ≤ 5) &&
    (rootSigned r || (r.typ == 4 && recForm r && r.signer == 1 && (match s.flashRecs.get? 5 with
      | some o => o.typ == 5 && rootSigned o && Config.sigValid (some o) r
      | none => false)))

/-- Whether a record is Botra firmware that boot or an update accepts (R475, R476). -/
def State.fwOk (s : State) (r : FwRec) : Bool := r.typ == 1 && s.recOk r && decide (s.fwMin.toNat ≤ r.version.toNat)

/-- Whether the configuration record of a TYPE in flash verifies (R475 step 4). -/
def State.cfgOk (s : State) (typ : Nat) : Bool :=
  match s.flashRecs.get? typ with
  | some r => r.typ.toNat == typ && s.recOk r
  | none => true

/-- The slot that boot chooses: the highest version that passes; a slot not written since manufacture passes as it stands. -/
def State.bootSlot (s : State) : Option Nat :=
  match s.fwSlots.get? 0, s.fwSlots.get? 1 with
  | some a, some b =>
    if s.fwOk a ∧ (s.fwOk b = false ∨ b.version.toNat ≤ a.version.toNat) then some 0
    else if s.fwOk b then some 1 else none
  | some a, none => if s.fwOk a ∨ s.fwActive = 0 then some 0 else some 1
  | none, some b => if s.fwOk b ∨ s.fwActive = 1 then some 1 else some 0
  | none, none => some s.fwActive

/-- The attestation entry of the Botra record that boot has chosen (R475 step 3, R477). -/
def State.botraEntry (s : State) (n : Nat) : Nat × Nat × Nat × BitVec 512 :=
  match s.fwSlots.get? n with
  | some r => (1, 1, r.version.toNat, recDigest r)
  | none => (1, 1, 0, Config.bootDigest 1)

/-- The attestation entry of a configuration record (R475 step 4, R477). -/
def State.cfgEntry (s : State) (e : Nat × Nat × Nat × BitVec 512) : Nat × Nat × Nat × BitVec 512 :=
  match s.flashRecs.get? e.2.1 with
  | some r => (e.1, e.2.1, r.version.toNat, recDigest r)
  | none => e

/-- What a boot fails at, if it fails, in the order of its steps (R475). -/
def State.bootStop (s : State) : Option BootCause :=
  if s.bootFinds = some .seed then some .seed
  else if s.bootSlot.isNone then some .botra
  else match [2, 3, 4].find? fun t => !s.cfgOk t with
    | some t => some (.config (BitVec.ofNat 8 t))
    | none => s.bootFinds

/-- How many entries of the attestation log boot has made when it stops: the ROM's, the Botra record's, then those of the
configuration records that verify (R475). -/
def measuredAt (k : BootCause) : Nat :=
  match k with
  | .seed => 0 | .botra => 0 | .config t => t.toNat | .bist => 5 | .training => 5

/-- The package after reset: flash keeps its contents, and boot verifies them (R18, R475). -/
def State.reboot (s : State) : State :=
  let s1 : State := { State.reset with agenda := s.agenda, fwSlots := s.fwSlots, fwMin := s.fwMin,
                                       flashRecs := s.flashRecs, bootFinds := s.bootFinds }
  let n := s.bootSlot.getD s.fwActive
  let log := s1.attLog.map fun (e : Nat × Nat × Nat × BitVec 512) => if e.1 = 1 then s.botraEntry n else s.cfgEntry e
  match s.bootStop with
  | some k => { s1 with bootFail := some k, attLog := log.take (measuredAt k), fwActive := n }
  | none => { s1 with fwActive := n, attLog := log }

/-- PACKAGE_RESET (R18, R475). -/
def execPackageReset (s : State) : Host.Outcome State Fault Refusal := .next s.reboot

/-! ### Attestation and firmware update (R477 to R480) -/

/-- The 96 bytes of an entry of the attestation log: index, TYPE, VERSION, 16 reserved bytes, digest (R477). -/
def logEntry (e : Nat × Nat × Nat × BitVec 512) : List Byte :=
  leBytes 4 e.1 ++ leBytes 4 e.2.1 ++ leBytes 8 e.2.2.1 ++ List.replicate 16 0 ++ leBytes 64 e.2.2.2.toNat

/-- The bytes of an attestation log (R477). -/
def logWords (l : List (Nat × Nat × Nat × BitVec 512)) : List Nat := ((l.map logEntry).flatten).map (·.toNat)

/-- ATTEST (R477): the log, the identity key with its certificate, and the signature. -/
def execAttest (h : Toc) (nonce : BitVec 256) (s : State) : Host.Outcome State Fault Refusal :=
  .next (s.mgmtReq h fun _ s =>
    s.reply h 0 (logWords s.attLog ++ [Config.identityKey 0, Config.identityKey 1, Config.attestSig nonce s.attLog]))

/-- FW_STAGE (R478): a record into the inactive flash slot. -/
def execFwStage (h : Toc) (r : FwRec) (s : State) : Host.Outcome State Fault Refusal :=
  .next (s.ctlReq h fun s => { s with fwSlots := s.fwSlots.set (1 - s.fwActive) r }.reply h 0 [])

/-- Append an entry to the attestation log. -/
def State.attest (s : State) (typ version : Nat) (digest : BitVec 512) : State :=
  { s with attLog := s.attLog ++ [(s.attLog.length, typ, version, digest)] }

/-- FW_COMMIT (R478): VERIFY, MEASURE and QUIESCE. -/
def execFwCommit (h : Toc) (s : State) : Host.Outcome State Fault Refusal :=
  .next (s.ctlReq h fun s =>
    match s.fwSlots.get? (1 - s.fwActive) with
    | none => s.reply h badField []
    | some r =>
      if s.fwOk r then
        { s.attest 1 r.version.toNat (recDigest r) with fwStage := .quiesced s.devTime.toNat }.reply h 0 []
      else s.reply h badField [])

/-- The quiescent point ends: the hang watchdogs have not counted in it (R479). -/
def State.resumeMgmt (s : State) (t : Nat) : State :=
  let now := s.devTime.toNat
  { s with
    fwStage := .idle
    cores := s.cores.map fun (e : Nat × Core) =>
      (e.1, { e.2 with save := e.2.save.map fun v => { v with since := v.since + (now - max t v.since) } }) }

/-- HANDOVER_READY (R478): the new Botra runs, and the minimum version rises. -/
def execHandoverReady (s : State) : Host.Outcome State Fault Refusal :=
  .next (match s.fwStage with
    | .idle => s
    | .quiesced t =>
      let n := 1 - s.fwActive
      let v := match s.fwSlots.get? n with
        | some r => r.version
        | none => s.fwMin
      { s.resumeMgmt t with fwActive := n, fwMin := if s.fwMin.ult v then v else s.fwMin })

/-- The new Botra is not ready within 50 µs: the old one resumes, with a revert entry in the log (R478). -/
def State.handoverLate (s : State) : State :=
  match s.fwStage with
  | .idle => s
  | .quiesced t =>
    if t + 50000 ≤ s.devTime.toNat then
      let e := s.botraEntry s.fwActive
      (s.resumeMgmt t).attest 1 e.2.2.1 e.2.2.2
    else s

/-- HANDOVER_TIMEOUT (R478). -/
def execHandoverTimeout (s : State) : Host.Outcome State Fault Refusal := .next s.handoverLate

end Sys2Proof.Machine
end

