-- ==== Sys2Proof/Machine/Levels.lean ====
section
/-!
DEFINITION. Machine/Levels.lean: the controllers of the levels as events: answers, stores performed, counting, shootdowns,
seals, replicas, spares, shedding and scrubbing (R262, R266, R287 to R290, R299, R300, R307 to R316, R402).
-/
namespace Sys2Proof.Machine

/-! ### Answers of controllers (R262, R290, R309, R311) -/

/-- A request that HOME_ATOMIC answers. -/
def Req.atHome : Req → Bool
  | .amo _ _ _ => true
  | .cas _ _ _ => true
  | .bari _ _ => true
  | .bara _ _ _ => true
  | .barw _ => true
  | _ => false

/-- A request that HOME_CONTROLLER_ANSWER answers. -/
def Req.access : Req → Bool
  | .ld _ _ => true
  | .st _ _ _ => true
  | .blk _ _ => true
  | .arm _ _ _ => true
  | .arrv _ _ => true
  | _ => false

/-- A request that SEAL_COMPLETE or UNSEAL_COMPLETE answers. -/
def Req.isSeal (on : Bool) : Req → Bool
  | .seal _ => on
  | .unseal _ => !on
  | _ => false

/-- Answer the sent request of a stream when it is of a kind. -/
def State.answerKind (s : State) (c : CoreId) (e : Strm) (p : Req → Bool) : State :=
  match ((s.ctx c).str e).sent with
  | some t => if p t.req then s.answer c e else s
  | none => s

/-- HOME_ATOMIC (R262). -/
def execHomeAtomic (core : CoreId) (s : State) : Host.Outcome State Fault Refusal := .next (s.answerKind core .c Req.atHome)

/-- HOME_CONTROLLER_ANSWER (R290). -/
def execHomeControllerAnswer (core : CoreId) (e : Strm) (s : State) : Host.Outcome State Fault Refusal :=
  .next (s.answerKind core e Req.access)

/-- SEAL_COMPLETE (R309). -/
def execSealComplete (core : CoreId) (s : State) : Host.Outcome State Fault Refusal :=
  .next (s.answerKind core .c (Req.isSeal true))

/-- UNSEAL_COMPLETE (R311). -/
def execUnsealComplete (core : CoreId) (s : State) : Host.Outcome State Fault Refusal :=
  .next (s.answerKind core .c (Req.isSeal false))

/-- STORE_PERFORMED (R290): the accepted stores of a core are performed at their banks, in order. -/
def execStorePerformed (core : CoreId) (s : State) : Host.Outcome State Fault Refusal := .next (s.performStores core)

/-- BARW_BOUND_EXPIRY (R266): a BARW whose bound has passed issues, and pd lands 0. -/
def execBarwBoundExpiry (core : CoreId) (s : State) : Host.Outcome State Fault Refusal :=
  match s.heldInstr core with
  | some (.barw r pd a b) =>
    if s.runs core .c && (s.ctx core).strC.wait.isSome &&
        decide (((s.ctx core).sr b).toNat / 2 ^ 32 ≤ (s.ctx core).strC.bounded) then
      execBarw r pd a b { s with cur := core }
    else .next s
  | _ => .next s

/-- AWAIT_BOUND_EXPIRY (R307): an AWAIT whose bound has passed issues, and pd lands 0. -/
def execAwaitBoundExpiry (core : CoreId) (s : State) : Host.Outcome State Fault Refusal :=
  match s.heldInstr core with
  | some (.await r pd a b) =>
    if s.runs core .c && (s.ctx core).strC.wait.isSome &&
        decide (((s.ctx core).sr b).toNat % 2 ^ 32 ≤ (s.ctx core).strC.bounded) then
      execAwait r pd a b { s with cur := core }
    else .next s
  | _ => .next s

/-! ### Counting at the homes (R299, R300) -/

/-- Take the first message for an entry out of a list. -/
def firstMsg (id : Nat) (l : List CountMsg) : Option (CountMsg × List CountMsg) :=
  match l with
  | [] => none
  | m :: t =>
    if m.entry = id then some (m, t)
    else match firstMsg id t with
      | some (k, r) => some (k, m :: r)
      | none => none

/-- Whether every stream has had its turn of the cycle: the ARMs of the cycle are done, and homes may count (R302). -/
def State.armsDone (s : State) : Bool := !(s.sched.any fun a => match a with
  | .strm _ _ => true
  | .engine _ => false)

/-- REGION_COUNT (R299): a home counts the next write that has reached one of its entries, after the ARMs of the cycle (R302). -/
def execRegionCount (die : BitVec 2) (idx : BitVec 16) (s : State) : Host.Outcome State Fault Refusal :=
  .next (match firstMsg (die.toNat * 65536 + idx.toNat) s.counts with
    | some (m, rest) => if s.armsDone then { s with counts := rest }.countDie m else s
    | none => s)

/-- Whether an entry stands at its target without having fired for it: one with REARM fires again (R300), one without fires
in the cycle after a firing that it may not share (R305). -/
def Region.due (r : Region) : Bool :=
  (r.rearm || !r.fired) && decide (r.target ≠ 0) && decide (r.target ≤ r.count)

/-- A die entry that is still at its target fires, once per cycle (R300). -/
def State.refireDie (s : State) (id : Nat) : State :=
  match s.regions.get? id with
  | none => s
  | some r =>
    if r.valid && r.due && !s.refire.contains id then
      { s with regions := s.regions.set id r.fired1 }.dieFired id r.fired1
    else s

/-- A core entry that is still at its target fires, once per cycle. -/
def State.refireCore (s : State) (c : CoreId) (slot : Nat) : State :=
  match (s.ctx c).regs.get? slot with
  | none => s
  | some r =>
    if r.due && !s.refire.contains (coreKey c slot) then
      (s.setCoreEntry c slot r.fired1).coreFired c slot r.fired1
    else s

/-- REARM_REFIRE (R300): the firing test comes after what the cycle counts (R302). -/
def execRearmRefire (die : BitVec 2) (idx : BitVec 16) (s : State) : Host.Outcome State Fault Refusal :=
  .next (if s.armsDone && s.counts.isEmpty then s.refireDie (die.toNat * 65536 + idx.toNat) else s)

/-! ### Shootdowns (R287 to R289) -/

/-- Bump the generation of an address space; its sweep begins. A bump waits for the sweep of the one before. -/
def State.bump (s : State) (asid : Nat) : State :=
  match s.spaces.get? asid with
  | none => s
  | some a => if a.sweep then s else { s with spaces := s.spaces.set asid { a with gen := a.gen + 1, sweep := true } }

/-- GENERATION_BUMP (R289): Botra's, outside a quiescent point (R478). -/
def execGenerationBump (asid : BitVec 16) (s : State) : Host.Outcome State Fault Refusal :=
  .next (if s.fwStage == .idle then s.bump asid.toNat else s)

/-- Whether a stream of a core has a request of an older generation in flight. -/
def State.oldRequest (s : State) (c : CoreId) (e : Strm) : Bool :=
  match ((s.ctx c).str e).sent with
  | some t => t.ans.isNone && t.gen != s.genOf c
  | none => false

/-- REQUEST_REPLAY (R289, R298): a request of the previous generation is translated again under the current one, once; a
source without a request in flight replays the writes that are not acknowledged. -/
def execRequestReplay (core : CoreId) (e : Strm) (s : State) : Host.Outcome State Fault Refusal :=
  .next (match ((s.ctx core).str e).sent with
    | some t =>
      if t.ans.isNone && !t.replayed && t.gen + 1 == s.genOf core then
        s.modStr core e fun u => { u with sent := some { t with gen := s.genOf core, replayed := true } }
      else s
    | none => s.replayWrites core e)

/-- Whether no request of an older generation of an address space is in flight, nor a store that was accepted under one and
is still to be performed, nor a write under one whose acknowledgement is still to be retired. -/
def State.swept (s : State) (asid : BitVec 16) : Bool :=
  (s.unacked.all fun u => u.w.via != some asid || u.w.gen == s.genAt asid) && s.cores.all fun e =>
    let c := BitVec.ofNat 9 e.1
    s.asidOf c != asid || (!([Strm.c, .v, .m, .x].any (s.oldRequest c)) && e.2.pend.all fun p => p.gen == s.genOf c)

/-- The sweep leaves the current generation in the entries of the space, those of contexts on cores among them (R296). -/
def State.sweepGens (s : State) (asid : BitVec 16) (gen : BitVec 8) : State :=
  { s with
    regions := s.regions.map fun e => (e.1, if e.2.asid == asid then { e.2 with gen := gen } else e.2)
    cores := s.cores.map fun k =>
      (k.1, { k.2 with ctx := { k.2.ctx with regs := k.2.ctx.regs.map fun e =>
        (e.1, if e.2.asid == asid then { e.2 with gen := gen } else e.2) } }) }

/-- SWEEP_COMPLETE (R289): Botra reports it, outside a quiescent point (R478). -/
def execSweepComplete (asid : BitVec 16) (s : State) : Host.Outcome State Fault Refusal :=
  .next (match s.space asid with
    | none => s
    | some a =>
      if s.swept asid && s.fwStage == .idle then ({ s with spaces := s.spaces.set asid.toNat { a with sweep := false } }).sweepGens asid a.gen else s)

/-! ### Replicas (R310) -/

/-- REPLICA_PLACEMENT (R310): a replica of a sealed region in a level of a die. -/
def execReplicaPlacement (die : BitVec 2) (idx : BitVec 16) (lvl : BitVec 3) (tdie : BitVec 2) (s : State) :
    Host.Outcome State Fault Refusal :=
  let id := die.toNat * 65536 + idx.toNat
  let p := (id, lvl.toNat, tdie.toNat)
  .next (match s.regions.get? id with
    | none => s
    | some r =>
      if r.valid && r.sealed && decide (2 ≤ lvl.toNat) && decide (lvl.toNat ≤ 4) && !s.replicas.contains p then
        { s with replicas := s.replicas ++ [p] }
      else s)

/-! ### Spares and shedding (R312 to R314) -/

/-- Banks of a level on a die (R276). -/
def bankCount (lvl : Nat) : Nat :=
  match lvl with
  | 1 => 8192 | 2 => 4096 | 3 => 1024 | 4 => 512 | _ => 0

/-- Whether a unit of a level exists. The spec does not give the number of lanes of an interface. -/
def unitExists (lvl : Nat) (u : SpareUnit) : Bool :=
  match u with
  | .bank n => decide (n.toNat < bankCount lvl)
  | .lane _ => decide (1 ≤ lvl) && decide (lvl ≤ 4)

/-- BANK_MARK_FAILING (R312): the bank, or the lane, stays in service until the next phase boundary of its die. A group of 32
banks, and one of 16 lanes, has one spare. -/
def execBankMarkFailing (die : BitVec 2) (lvl : BitVec 3) (bank : SpareUnit) (s : State) :
    Host.Outcome State Fault Refusal :=
  let g := fun (b : Nat × Nat × Nat) => (b.1, b.2.1, spareGroup b.2.2)
  let b := (die.toNat, lvl.toNat, spareNum bank)
  .next (if s.fwStage = .idle ∧ unitExists lvl.toNat bank = true ∧ s.sparedGroups.contains (g b) = false ∧
      (s.failing.any fun f => g f == g b) = false then
      { s with failing := s.failing ++ [b] }
    else s)

/-- The key of a layer. -/
def layerKey (die lvl : Nat) : Nat := die * 4 + (lvl - 1)

/-- Change the DEGR and SHED bits of a layer in its die's CAPS (R314). -/
def State.capsBits (s : State) (die lvl : Nat) (degr shed : Bool) : State :=
  let m0 : Word := BitVec.ofNat 64 (2 ^ (3 + lvl))
  let m1 : Word := BitVec.ofNat 64 (2 ^ (lvl - 1))
  let v := s.mgmt.caps.getD die 0
  let v1 := if degr then v ||| m0 else v &&& ~~~m0
  let v2 := if shed then v1 ||| m1 else v1 &&& ~~~m1
  { s with mgmt := { s.mgmt with caps := s.mgmt.caps.put die v2 0 } }

/-- Whether the group of a unit has no spare for it: its spare is in use, or set aside for another unit of the group (R312). -/
def State.noSpare (s : State) (b : Nat × Nat × Nat) : Bool :=
  s.sparedGroups.contains (b.1, b.2.1, spareGroup b.2.2) || s.failing.any fun f =>
    f != b && f.1 == b.1 && f.2.1 == b.2.1 && spareGroup f.2.2 == spareGroup b.2.2

/-- LAYER_FAILURE_NO_SPARE (R313): a bank whose group has no spare left delivers no data any more, or a lane group has lost more
lanes than its spare; the layer awaits its recovery point. -/
def execLayerFailureNoSpare (die : BitVec 2) (lvl : BitVec 3) (bank : SpareUnit) (s : State) :
    Host.Outcome State Fault Refusal :=
  let n := layerKey die.toNat lvl.toNat
  .next (if unitExists lvl.toNat bank = true ∧ s.noSpare (die.toNat, lvl.toNat, spareNum bank) = true then
      let b := (die.toNat, lvl.toNat, spareNum bank)
      let s1 : State := { s with deadBanks := if b.2.2 < 2 ^ 14 then s.deadBanks ++ [b] else s.deadBanks
                                 failing := s.failing.filter fun f => f != b }
      match s.layers.getD n .normal with
      | .normal => { s1 with layers := s1.layers.set n (.shedPending s.devTime.toNat) }.capsBits die.toNat lvl.toNat true false
      | _ => s1
    else s)

/-- Whether the task on a core uses a layer of a die (R313): by its allotment, its footprint or its mappings. -/
def State.usesLayer (s : State) (c : CoreId) (die lvl : Nat) : Bool :=
  match s.launchOf c with
  | none => false
  | some l =>
    let here := c.toNat / 128 == die
    match lvl with
    | 1 => here && (s.ctx c).allot.t1 != 0
    | 2 => here && l.foot.any fun f => f.spc == .t2
    | _ => s.needsLayer l die lvl

/-- Whether a launch's job has reached a job boundary: its job counter has fired. The spec does not define the boundary of a job
otherwise; a launch that names no job is one of its own, at a boundary when it runs nowhere on the die (R228, R313; log entry
114). -/
def State.jobBound (s : State) (l : Launch) : Bool :=
  match pktJob l.pkt with
  | some n => (s.jobs.getD n Ctr.fresh).fired
  | none => false

/-- Whether the recovery point of a layer has come (R313): every job with tasks on the die is at a job boundary, or the shed deadline
has passed since the failure. -/
def State.recoveryDue (s : State) (die since : Nat) : Bool :=
  decide (since + Config.shedDeadline ≤ s.devTime.toNat) || s.cores.all fun e =>
    e.1 / 128 != die || (match s.launchOf (BitVec.ofNat 9 e.1) with
      | some l => s.jobBound l
      | none => true)

/-- RECOVERY_POINT (R313): the tasks that use the layer are checkpointed where they can be, and drained otherwise, outside a quiescent
point (R479). -/
def execRecoveryPoint (die : BitVec 2) (lvl : BitVec 3) (s : State) : Host.Outcome State Fault Refusal :=
  let n := layerKey die.toNat lvl.toNat
  .next (match s.layers.getD n .normal with
    | .shedPending since =>
      if !s.recoveryDue die.toNat since || s.fwStage != .idle then s
      else
      let s1 : State := { s with layers := s.layers.set n .shedding }
      s1.cores.foldl (fun s e =>
        let c := BitVec.ofNat 9 e.1
        if s.usesLayer c die.toNat lvl.toNat && (s.core c).preemptible && s.canCkpt c then s.startSave c .preempt none
        else s) s1
    | _ => s)

/-- The sweep of a layer begins once no running task uses it: every address space that maps it is bumped (R313). -/
def State.shedSweep (s : State) (n : Nat) : State :=
  match s.layers.getD n .normal with
  | .shedding =>
    let die := n / 4
    let lvl := n % 4 + 1
    let maps := (s.spaces.map (·.1)).filter fun a => s.mapsLayer a die lvl
    let busy := s.cores.any fun e => s.usesLayer (BitVec.ofNat 9 e.1) die lvl
    let going := maps.any fun a => match s.spaces.get? a with
      | some p => p.sweep
      | none => false
    if busy || going || s.fwStage != .idle then s
    else
      let s1 : State := { s with layers := s.layers.set n .sweeping }
      maps.foldl (fun s a => s.bump a) s1
  | _ => s

/-- SHED_COMPLETE (R313): every sweep has ended, and the layer is shed. -/
def execShedComplete (die : BitVec 2) (lvl : BitVec 3) (s : State) : Host.Outcome State Fault Refusal :=
  let n := layerKey die.toNat lvl.toNat
  .next (match s.layers.getD n .normal with
    | .sweeping =>
      if s.fwStage != .idle || s.spaces.any fun a => a.2.sweep && s.mapsLayer a.1 die.toNat lvl.toNat then s
      else { s with layers := s.layers.set n .shed }.capsBits die.toNat lvl.toNat false true
    | _ => s)

/-! ### Scrubbing and error records (R316, R402) -/

/-- Whether word w of a level of a die has an uncorrectable error. -/
def State.wordBad (s : State) (die lvl w : Nat) : Bool :=
  match lvl with
  | 1 => (s.core (BitVec.ofNat 9 (die * 128 + w / 2 ^ 20 % 128))).bad.contains (.t1, w % 2 ^ 20)
  | 2 => s.t2bad.contains (die * 32 + w / 2 ^ 22 % 32, w % 2 ^ 22)
  | _ => s.bad.contains (((layerRange die lvl).1 + w % 2 ^ 27 * 8) / 8)

/-- Mark word w of a level of a die: it holds an uncorrectable error until a write covers it whole (R315). -/
def State.markWord (s : State) (die lvl w : Nat) : State :=
  match lvl with
  | 1 => s.modCore (BitVec.ofNat 9 (die * 128 + w / 2 ^ 20 % 128)) fun k => { k with bad := k.bad ++ [(.t1, w % 2 ^ 20)] }
  | 2 => { s with t2bad := s.t2bad ++ [(die * 32 + w / 2 ^ 22 % 32, w % 2 ^ 22)] }
  | _ => { s with bad := s.bad ++ [((layerRange die lvl).1 + w % 2 ^ 27 * 8) / 8] }

/-- Where an LPDDR6 byte lies (R278). -/
structure LpPlace where
  granule : Nat
  die : Nat
  channel : Nat
  subchannel : Nat
  offset : Nat
  deriving DecidableEq, Repr

/-- The granule, the die whose controller serves it, the channel, the subchannel and the offset within the subchannel of an
LPDDR6 physical address (R278). -/
def lpPlace (pa : Nat) : LpPlace :=
  let g := pa / 2 ^ 8
  let c := g % 96
  { granule := g, die := c / 24, channel := c % 24, subchannel := g / 96 % 2, offset := g / 192 * 256 + pa % 256 }

/-- The number of an address's channel among the 96 of the package. -/
def LpPlace.chan (p : LpPlace) : Nat := p.die * 24 + p.channel

/-- An error that LPDDR6 reports of an access of some 8-byte words (R279): a corrected one is counted at its channel; one that
is not marks each word of the access (R315). -/
def State.lpReport (s : State) (word words : Nat) (bad : Bool) : State :=
  let l := (span word (max 1 words)).filter fun w => decide (8 * w < 0x018000000000)
  if l.isEmpty then s
  else if bad then { s with bad := s.bad ++ l.filter fun w => !s.bad.contains w }
  else
    let n := (lpPlace (8 * word)).chan
    { s with lpCorrected := s.lpCorrected.set n (s.lpCorrected.getD n 0 + 1) }

/-- The level-0 space of an error report. -/
def reportSpace (n : Nat) : Option Space :=
  match n with
  | 0 => some .ofs | 1 => some .acs | 2 => some .wb | 3 => some .xb | 4 => some .sm | 5 => some .cr
  | _ => none

/-- An error that a core's buffer reports (R315): a unit, at core of the die × 2^21 + space × 2^18 + unit. ECC corrects and counts;
parity only detects; an error that is not corrected marks the unit. -/
def State.bufReport (s : State) (die w : Nat) (bad : Bool) : State :=
  let c : CoreId := BitVec.ofNat 9 (die * 128 + w / 2 ^ 21 % 128)
  match reportSpace (w / 2 ^ 18 % 8) with
  | none => s
  | some sp =>
    let u := w % 2 ^ 18
    if decide (Space.size sp ≤ u * unitBytes sp) || (s.core c).bad.contains (sp, u) then s
    else if bad then s.modCore c fun k => { k with bad := k.bad ++ [(sp, u)] }
    else if unitBytes sp = 8 then { s with corrected := s.corrected + 1 }
    else s

/-- PATROL_SCRUB (R315, R316): the scrubber reads a word of T1 to T4. A corrected word is written back and counted, and no value
changes; an uncorrectable one is marked; one marked before is left alone. With level 0 the event stands for an error that a core's
buffer reports, with level 5 for one of
LPDDR6, of an access that begins at a word (R279). -/
def execPatrolScrub (die : BitVec 2) (lvl : BitVec 3) (word : EccReport) (s : State) : Host.Outcome State Fault Refusal :=
  let w := word.first.toNat
  .next (
    if lvl.toNat = 0 then s.bufReport die.toNat w word.bad
    else if lvl.toNat = 5 then s.lpReport w word.words.toNat word.bad
    else if 1 ≤ lvl.toNat ∧ lvl.toNat ≤ 4 ∧ s.wordBad die.toNat lvl.toNat w = false then
      (if word.bad then s.markWord die.toNat lvl.toNat w else { s with corrected := s.corrected + 1 })
    else s)

/-- Write what waits for a queue's ring (R402). -/
def State.drainQueue (s : State) (q : Nat) : State :=
  match s.queues.get? q with
  | some u => s.drainRecs q u.waiting
  | none => s

/-- ERROR_RECORD_DRAIN (R402). -/
def execErrorRecordDrain (q : BitVec 6) (s : State) : Host.Outcome State Fault Refusal := .next (s.drainQueue q.toNat)

end Sys2Proof.Machine
end

