-- ==== Sys2Proof/Machine/Scalar.lean ====
section
/-!
DEFINITION. Machine/Scalar.lean: integer arithmetic, bit fields, constants, compares and predicate logic of the C stream
(R95 to R110, R137).
-/
namespace Sys2Proof.Machine

/-- A shift amount: bits [5:0] (R100). -/
def shiftOf (w : Word) : Nat := w.toNat % 64

/-- Rotate left by less than 64. -/
def rotl (a : Word) (n : Nat) : Word := (a <<< n) ||| (a >>> (64 - n))

/-- Signed quotient truncated toward zero; all ones for a zero divisor (R101). -/
def quotS (a b : Word) : Word := if b = 0 then BitVec.allOnes 64 else BitVec.ofInt 64 (a.toInt.tdiv b.toInt)

/-- Unsigned quotient; all ones for a zero divisor (R101). -/
def quotU (a b : Word) : Word := if b = 0 then BitVec.allOnes 64 else BitVec.ofNat 64 (a.toNat / b.toNat)

/-- Signed remainder with the sign of a; a for a zero divisor (R101). -/
def remS (a b : Word) : Word := if b = 0 then a else BitVec.ofInt 64 (a.toInt.tmod b.toInt)

/-- Unsigned remainder; a for a zero divisor (R101). -/
def remU (a b : Word) : Word := if b = 0 then a else BitVec.ofNat 64 (a.toNat % b.toNat)

/-- Zero bits above the highest set bit (R102). -/
def clz64 (a : Word) : Word := if a = 0 then 64 else BitVec.ofNat 64 (63 - Nat.log2 a.toNat)

/-- Zero bits below the lowest set bit (R102). -/
def ctz64 (a : Word) : Word :=
  match (List.range 64).find? a.getLsbD with
  | some i => BitVec.ofNat 64 i
  | none => 64

/-- Set bits of a number among its low n bits. -/
def popCount (n v : Nat) : Nat := (List.range n).foldl (fun k i => k + v / 2 ^ i % 2) 0

/-- Number of set bits (R102). -/
def popc64 (a : Word) : Word := BitVec.ofNat 64 (popCount 64 a.toNat)

/-- Bit i moves to bit 63 − i (R102). -/
def brev64 (a : Word) : Word :=
  BitVec.ofNat 64 ((List.range 64).foldl (fun k i => k + (a.getLsbD i).toNat * 2 ^ (63 - i)) 0)

/-- Byte i moves to byte 7 − i (R102). -/
def bswap64 (a : Word) : Word :=
  BitVec.ofNat 64 ((List.range 8).foldl (fun k i => k + a.toNat / 2 ^ (8 * i) % 256 * 2 ^ (8 * (7 - i))) 0)

/-- The low n bits, sign-extended, for n from 1 to 64 (R102). -/
def sextTo (a : Word) (n : Nat) : Word := (a <<< (64 - n)).sshiftRight (64 - n)

/-- The low n bits, zero-extended (R102). -/
def zextTo (a : Word) (n : Nat) : Word := BitVec.ofNat 64 (a.toNat % 2 ^ n)

/-- POS of a bit-field control word (R106). -/
def bfPos (b : Word) : Nat := b.toNat % 64

/-- The field length that a control word gives, bits above 63 left out (R106). -/
def bfLen (b : Word) : Nat := min (b.toNat / 2 ^ 8 % 128) (64 - bfPos b)

/-- The field zero-extended (R106). -/
def bfxU (a b : Word) : Word := zextTo (a >>> bfPos b) (bfLen b)

/-- The field sign-extended; zero for an empty field (R106). -/
def bfxS (a b : Word) : Word := if bfLen b = 0 then 0 else sextTo (a >>> bfPos b) (bfLen b)

/-- The old value with the field replaced by the low bits of a (R106). -/
def bfiOf (old a b : Word) : Word :=
  let m := BitVec.ofNat 64 ((2 ^ bfLen b - 1) * 2 ^ bfPos b)
  (old &&& ~~~m) ||| ((a <<< bfPos b) &&& m)

/-- ((d ++ a) shifted left by n)[127:64] (R107). -/
def fshlOf (d a : Word) (n : Nat) : Word := (d <<< n) ||| (a >>> (64 - n))

/-- ((a ++ d) shifted right by n)[63:0] (R107). -/
def fshrOf (d a : Word) (n : Nat) : Word := (d >>> n) ||| (a <<< (64 - n))

/-- The conditions of R74. -/
def condHolds (k : Cond) (a b : Word) : Bool :=
  match k with
  | .eq => a == b
  | .ne => a != b
  | .lt => a.slt b
  | .ge => !(a.slt b)
  | .ltn => a.ult b
  | .gen => !(a.ult b)
  | .any => (a &&& b) != 0
  | .none => (a &&& b) == 0

/-- A C instruction that computes a scalar from its operands, read at issue (R95). -/
def scalarOp (lat : Nat) (r : Ring) (d : SReg) (f : Ctx → Word) (s : State) : Host.Outcome State Fault Refusal :=
  issue .c r (fun c s => .ok (Done.one s (New.plain lat (.scalar d (f (s.ctx c)))))) s

/-- A C instruction that computes a predicate (R96: latency 1). -/
def predOp (r : Ring) (pd : PReg) (f : Ctx → Bool) (s : State) : Host.Outcome State Fault Refusal :=
  issue .c r (fun c s => .ok (Done.one s (New.plain 1 (.pred pd (f (s.ctx c)))))) s

/-- ADD (R100): sum modulo 2^64. -/
def execAdd (r : Ring) (d a b : SReg) (s : State) : Host.Outcome State Fault Refusal :=
  scalarOp 1 r d (fun x => x.sr a + x.sr b) s

/-- SUB (R100): difference modulo 2^64. -/
def execSub (r : Ring) (d a b : SReg) (s : State) : Host.Outcome State Fault Refusal :=
  scalarOp 1 r d (fun x => x.sr a - x.sr b) s

/-- AND (R100). -/
def execAnd (r : Ring) (d a b : SReg) (s : State) : Host.Outcome State Fault Refusal :=
  scalarOp 1 r d (fun x => x.sr a &&& x.sr b) s

/-- OR (R100). -/
def execOr (r : Ring) (d a b : SReg) (s : State) : Host.Outcome State Fault Refusal :=
  scalarOp 1 r d (fun x => x.sr a ||| x.sr b) s

/-- XOR (R100). -/
def execXor (r : Ring) (d a b : SReg) (s : State) : Host.Outcome State Fault Refusal :=
  scalarOp 1 r d (fun x => x.sr a ^^^ x.sr b) s

/-- ANDN (R100): a AND NOT b. -/
def execAndn (r : Ring) (d a b : SReg) (s : State) : Host.Outcome State Fault Refusal :=
  scalarOp 1 r d (fun x => x.sr a &&& ~~~(x.sr b)) s

/-- ORN (R100): a OR NOT b. -/
def execOrn (r : Ring) (d a b : SReg) (s : State) : Host.Outcome State Fault Refusal :=
  scalarOp 1 r d (fun x => x.sr a ||| ~~~(x.sr b)) s

/-- SLL (R100): left by b[5:0]. -/
def execSll (r : Ring) (d a b : SReg) (s : State) : Host.Outcome State Fault Refusal :=
  scalarOp 1 r d (fun x => x.sr a <<< shiftOf (x.sr b)) s

/-- SRL (R100): right by b[5:0], zeros in. -/
def execSrl (r : Ring) (d a b : SReg) (s : State) : Host.Outcome State Fault Refusal :=
  scalarOp 1 r d (fun x => x.sr a >>> shiftOf (x.sr b)) s

/-- SRA (R100): right by b[5:0], copies of a[63] in. -/
def execSra (r : Ring) (d a b : SReg) (s : State) : Host.Outcome State Fault Refusal :=
  scalarOp 1 r d (fun x => (x.sr a).sshiftRight (shiftOf (x.sr b))) s

/-- ROL (R100). -/
def execRol (r : Ring) (d a b : SReg) (s : State) : Host.Outcome State Fault Refusal :=
  scalarOp 1 r d (fun x => rotl (x.sr a) (shiftOf (x.sr b))) s

/-- ROR (R100). -/
def execRor (r : Ring) (d a b : SReg) (s : State) : Host.Outcome State Fault Refusal :=
  scalarOp 1 r d (fun x => rotl (x.sr a) ((64 - shiftOf (x.sr b)) % 64)) s

/-- SEL (R100): the old d, read at issue, selects a where set and b where clear. -/
def execSel (r : Ring) (d a b : SReg) (s : State) : Host.Outcome State Fault Refusal :=
  scalarOp 1 r d (fun x => (x.sr a &&& x.sr d) ||| (x.sr b &&& ~~~(x.sr d))) s

/-- MIN (R100): signed. -/
def execMin (r : Ring) (d a b : SReg) (s : State) : Host.Outcome State Fault Refusal :=
  scalarOp 1 r d (fun x => if (x.sr a).slt (x.sr b) then x.sr a else x.sr b) s

/-- MAX (R100): signed. -/
def execMax (r : Ring) (d a b : SReg) (s : State) : Host.Outcome State Fault Refusal :=
  scalarOp 1 r d (fun x => if (x.sr a).slt (x.sr b) then x.sr b else x.sr a) s

/-- MINN (R100): unsigned. -/
def execMinn (r : Ring) (d a b : SReg) (s : State) : Host.Outcome State Fault Refusal :=
  scalarOp 1 r d (fun x => if (x.sr a).ult (x.sr b) then x.sr a else x.sr b) s

/-- MAXN (R101): unsigned; latency 1 (R96). -/
def execMaxn (r : Ring) (d a b : SReg) (s : State) : Host.Outcome State Fault Refusal :=
  scalarOp 1 r d (fun x => if (x.sr a).ult (x.sr b) then x.sr b else x.sr a) s

/-- MUL (R101): the low half of the product. -/
def execMul (r : Ring) (d a b : SReg) (s : State) : Host.Outcome State Fault Refusal :=
  scalarOp 3 r d (fun x => x.sr a * x.sr b) s

/-- MULH (R101): the high half of the signed product. -/
def execMulh (r : Ring) (d a b : SReg) (s : State) : Host.Outcome State Fault Refusal :=
  scalarOp 3 r d (fun x => BitVec.ofInt 64 (((x.sr a).toInt * (x.sr b).toInt) / (2 ^ 64 : Int))) s

/-- MULHN (R101): the high half of the unsigned product. -/
def execMulhn (r : Ring) (d a b : SReg) (s : State) : Host.Outcome State Fault Refusal :=
  scalarOp 3 r d (fun x => BitVec.ofNat 64 ((x.sr a).toNat * (x.sr b).toNat / 2 ^ 64)) s

/-- DIV (R101): signed quotient truncated toward zero, with its borderline cases. -/
def execDiv (r : Ring) (d a b : SReg) (s : State) : Host.Outcome State Fault Refusal :=
  scalarOp 18 r d (fun x => quotS (x.sr a) (x.sr b)) s

/-- DIVN (R101): unsigned quotient. -/
def execDivn (r : Ring) (d a b : SReg) (s : State) : Host.Outcome State Fault Refusal :=
  scalarOp 18 r d (fun x => quotU (x.sr a) (x.sr b)) s

/-- REM (R101): signed remainder with the sign of a. -/
def execRem (r : Ring) (d a b : SReg) (s : State) : Host.Outcome State Fault Refusal :=
  scalarOp 18 r d (fun x => remS (x.sr a) (x.sr b)) s

/-- REMN (R101): unsigned remainder. -/
def execRemn (r : Ring) (d a b : SReg) (s : State) : Host.Outcome State Fault Refusal :=
  scalarOp 18 r d (fun x => remU (x.sr a) (x.sr b)) s

/-- CLZ (R102). -/
def execClz (r : Ring) (d a : SReg) (s : State) : Host.Outcome State Fault Refusal :=
  scalarOp 1 r d (fun x => clz64 (x.sr a)) s

/-- CTZ (R102). -/
def execCtz (r : Ring) (d a : SReg) (s : State) : Host.Outcome State Fault Refusal :=
  scalarOp 1 r d (fun x => ctz64 (x.sr a)) s

/-- POPC (R102). -/
def execPopc (r : Ring) (d a : SReg) (s : State) : Host.Outcome State Fault Refusal :=
  scalarOp 1 r d (fun x => popc64 (x.sr a)) s

/-- BREV (R102). -/
def execBrev (r : Ring) (d a : SReg) (s : State) : Host.Outcome State Fault Refusal :=
  scalarOp 1 r d (fun x => brev64 (x.sr a)) s

/-- BSWAP (R102). -/
def execBswap (r : Ring) (d a : SReg) (s : State) : Host.Outcome State Fault Refusal :=
  scalarOp 1 r d (fun x => bswap64 (x.sr a)) s

/-- SEXT (R102): the low w bits, with w1 holding w − 1. -/
def execSext (r : Ring) (d a : SReg) (w1 : BitVec 6) (s : State) : Host.Outcome State Fault Refusal :=
  scalarOp 1 r d (fun x => sextTo (x.sr a) (w1.toNat + 1)) s

/-- ZEXT (R102): the low w bits, with w1 holding w − 1. -/
def execZext (r : Ring) (d a : SReg) (w1 : BitVec 6) (s : State) : Host.Outcome State Fault Refusal :=
  scalarOp 1 r d (fun x => zextTo (x.sr a) (w1.toNat + 1)) s

/-- ADDI (R103). -/
def execAddi (r : Ring) (d a : SReg) (imm : BitVec 10) (s : State) : Host.Outcome State Fault Refusal :=
  scalarOp 1 r d (fun x => x.sr a + imm.signExtend 64) s

/-- ANDI (R103). -/
def execAndi (r : Ring) (d a : SReg) (imm : BitVec 10) (s : State) : Host.Outcome State Fault Refusal :=
  scalarOp 1 r d (fun x => x.sr a &&& imm.signExtend 64) s

/-- ORI (R103). -/
def execOri (r : Ring) (d a : SReg) (imm : BitVec 10) (s : State) : Host.Outcome State Fault Refusal :=
  scalarOp 1 r d (fun x => x.sr a ||| imm.signExtend 64) s

/-- XORI (R103). -/
def execXori (r : Ring) (d a : SReg) (imm : BitVec 10) (s : State) : Host.Outcome State Fault Refusal :=
  scalarOp 1 r d (fun x => x.sr a ^^^ imm.signExtend 64) s

/-- MULI (R103). -/
def execMuli (r : Ring) (d a : SReg) (imm : BitVec 10) (s : State) : Host.Outcome State Fault Refusal :=
  scalarOp 3 r d (fun x => x.sr a * imm.signExtend 64) s

/-- SLLI (R104). -/
def execSlli (r : Ring) (d a : SReg) (sh : BitVec 6) (s : State) : Host.Outcome State Fault Refusal :=
  scalarOp 1 r d (fun x => x.sr a <<< sh.toNat) s

/-- SRLI (R104). -/
def execSrli (r : Ring) (d a : SReg) (sh : BitVec 6) (s : State) : Host.Outcome State Fault Refusal :=
  scalarOp 1 r d (fun x => x.sr a >>> sh.toNat) s

/-- SRAI (R104). -/
def execSrai (r : Ring) (d a : SReg) (sh : BitVec 6) (s : State) : Host.Outcome State Fault Refusal :=
  scalarOp 1 r d (fun x => (x.sr a).sshiftRight sh.toNat) s

/-- RORI (R104). -/
def execRori (r : Ring) (d a : SReg) (sh : BitVec 6) (s : State) : Host.Outcome State Fault Refusal :=
  scalarOp 1 r d (fun x => rotl (x.sr a) ((64 - sh.toNat) % 64)) s

/-- MOVI (R105). -/
def execMovi (r : Ring) (d : SReg) (imm : BitVec 16) (s : State) : Host.Outcome State Fault Refusal :=
  scalarOp 1 r d (fun _ => imm.signExtend 64) s

/-- MOVK (R105): the old d moves up 16 bits and imm enters below. -/
def execMovk (r : Ring) (d : SReg) (imm : BitVec 16) (s : State) : Host.Outcome State Fault Refusal :=
  scalarOp 1 r d (fun x => (x.sr d <<< 16) ||| imm.setWidth 64) s

/-- ADDPC (R105): the address of the instruction plus two times the offset. -/
def execAddpc (r : Ring) (d : SReg) (imm : BitVec 16) (s : State) : Host.Outcome State Fault Refusal :=
  scalarOp 1 r d (fun x => x.strC.pc.setWidth 64 + 2 * imm.signExtend 64) s

/-- BFX (R106): the field sign-extended. -/
def execBfx (r : Ring) (d a b : SReg) (s : State) : Host.Outcome State Fault Refusal :=
  scalarOp 1 r d (fun x => bfxS (x.sr a) (x.sr b)) s

/-- BFXN (R106): the field zero-extended. -/
def execBfxn (r : Ring) (d a b : SReg) (s : State) : Host.Outcome State Fault Refusal :=
  scalarOp 1 r d (fun x => bfxU (x.sr a) (x.sr b)) s

/-- BFI (R106): the field replaced in the old d. -/
def execBfi (r : Ring) (d a b : SReg) (s : State) : Host.Outcome State Fault Refusal :=
  scalarOp 1 r d (fun x => bfiOf (x.sr d) (x.sr a) (x.sr b)) s

/-- FSHL (R107): the old d moves up, high bits of a fill in. -/
def execFshl (r : Ring) (d a b : SReg) (s : State) : Host.Outcome State Fault Refusal :=
  scalarOp 1 r d (fun x => fshlOf (x.sr d) (x.sr a) (shiftOf (x.sr b))) s

/-- FSHR (R107): the old d moves down, low bits of a fill in. -/
def execFshr (r : Ring) (d a b : SReg) (s : State) : Host.Outcome State Fault Refusal :=
  scalarOp 1 r d (fun x => fshrOf (x.sr d) (x.sr a) (shiftOf (x.sr b))) s

/-- MULW (R137): the sign-extended low half of a 32-bit product; its issue counts in DEPCOUNT (R89). -/
def execMulw (r : Ring) (d a b : SReg) (s : State) : Host.Outcome State Fault Refusal :=
  issue .c r (fun c s =>
    let x := s.ctx c
    .ok (Done.one (s.countDeprecated c)
      (New.plain 3 (.scalar d (sextTo (x.sr a * x.sr b) 32))))) s

/-- CMP (R108): the condition. -/
def execCmp (r : Ring) (pd : PReg) (cond : Cond) (a b : SReg) (s : State) :
    Host.Outcome State Fault Refusal :=
  predOp r pd (fun x => let k := condHolds cond (x.sr a) (x.sr b); k) s

/-- CMP (R108): AND into the old predicate. -/
def execCmpAnd (r : Ring) (pd : PReg) (cond : Cond) (a b : SReg) (s : State) :
    Host.Outcome State Fault Refusal :=
  predOp r pd (fun x => let k := condHolds cond (x.sr a) (x.sr b); x.pr pd && k) s

/-- CMP (R108): OR into the old predicate. -/
def execCmpOr (r : Ring) (pd : PReg) (cond : Cond) (a b : SReg) (s : State) :
    Host.Outcome State Fault Refusal :=
  predOp r pd (fun x => let k := condHolds cond (x.sr a) (x.sr b); x.pr pd || k) s

/-- CMPI (R109). -/
def execCmpi (r : Ring) (pd : PReg) (cond : Cond) (a : SReg) (imm : BitVec 10) (s : State) :
    Host.Outcome State Fault Refusal :=
  predOp r pd (fun x => condHolds cond (x.sr a) (imm.signExtend 64)) s

/-- PAND (R110). -/
def execPand (r : Ring) (pd pa pb : PReg) (s : State) : Host.Outcome State Fault Refusal :=
  predOp r pd (fun x => x.pr pa && x.pr pb) s

/-- POR (R110). -/
def execPor (r : Ring) (pd pa pb : PReg) (s : State) : Host.Outcome State Fault Refusal :=
  predOp r pd (fun x => x.pr pa || x.pr pb) s

/-- PXOR (R110). -/
def execPxor (r : Ring) (pd pa pb : PReg) (s : State) : Host.Outcome State Fault Refusal :=
  predOp r pd (fun x => x.pr pa != x.pr pb) s

/-- PNOT (R110). -/
def execPnot (r : Ring) (pd pa : PReg) (s : State) : Host.Outcome State Fault Refusal :=
  predOp r pd (fun x => !x.pr pa) s

/-- PMOV (R110). -/
def execPmov (r : Ring) (pd pa : PReg) (s : State) : Host.Outcome State Fault Refusal :=
  predOp r pd (fun x => x.pr pa) s

end Sys2Proof.Machine
end

