-- ==== Sys2Proof/Machine/VArith.lean ====
section
/-!
DEFINITION. Machine/VArith.lean: elementwise arithmetic, bitwise and shift instructions, compares, class tests, selects,
masks, reductions and scans of the V stream (R176 to R185, R194).
-/
namespace Sys2Proof.Machine

/-! ### Element functions -/

/-- Operand i of an element function. -/
def arg (l : List Nat) (i : Nat) : Nat := l.getD i 0

/-- Round a value with an event of the operation itself (R170, R176). -/
def Ctx.fround (x : Ctx) (f : Fmt) (v : Num) (ev : Ev) : Nat × Ev :=
  let r := roundNum f x.armCtl v
  (r.1, ev ||| r.2)

/-- INV when the operation is invalid. -/
def invIf (b : Bool) : Ev := if b then evInv else 0

/-- Whether the sign of an exact zero sum is negative: rounding toward −∞ (R176). -/
def Ctx.rdn (x : Ctx) : Bool := x.arm == 2

/-- The integer value of a code in an integer format (R141). -/
def ival (f : Fmt) (c : Nat) : Int := if f.isSigned then sgn f.width c else c

/-- Sum (R176). -/
def elAdd (f : Fmt) (x : Ctx) (a b : Nat) : Nat × Ev :=
  if f.isFloat then
    let r := (x.num f a).add x.rdn (x.num f b)
    x.fround f r.1 (invIf r.2)
  else ((a + b) % 2 ^ f.width, 0)

/-- Difference (R176). -/
def elSub (f : Fmt) (x : Ctx) (a b : Nat) : Nat × Ev :=
  if f.isFloat then
    let r := (x.num f a).add x.rdn (x.num f b).negate
    x.fround f r.1 (invIf r.2)
  else ((a + (2 ^ f.width - b)) % 2 ^ f.width, 0)

/-- Product (R176). -/
def elMul (f : Fmt) (x : Ctx) (a b : Nat) : Nat × Ev :=
  if f.isFloat then
    let r := (x.num f a).mul (x.num f b)
    x.fround f r.1 (invIf r.2)
  else (a * b % 2 ^ f.width, 0)

/-- Quotient (R176). -/
def elDiv (f : Fmt) (x : Ctx) (a b : Nat) : Nat × Ev :=
  let r := (x.num f a).div (x.num f b)
  x.fround f r.1 r.2

/-- The code of a float operand that min and max return: as DAZ left it, NaN canonical (R170, R176). -/
def pickCode (f : Fmt) (x : Ctx) (c : Nat) : Nat := if (x.num f c).isNan then f.nanCode else dazCode x.daz f c

/-- Whether a comes before b in the order of float min and max: −0 below +0 (R176). -/
def fBelow (f : Fmt) (x : Ctx) (a b : Nat) : Bool :=
  let p := x.num f a
  let q := x.num f b
  p.lt q || (p.eqv q && p.neg? && !q.neg?)

/-- The smaller, or the larger when big is set (R176). -/
def elPick (big : Bool) (f : Fmt) (x : Ctx) (a b : Nat) : Nat :=
  if f.isFloat then
    if (x.num f a).isNan || (x.num f b).isNan then f.nanCode
    else if (if big then fBelow f x a b else fBelow f x b a) then pickCode f x b else pickCode f x a
  else if (if big then decide (ival f a < ival f b) else decide (ival f b < ival f a)) then b else a

/-- Scaling by a power of two (R176). -/
def elScale (f : Fmt) (x : Ctx) (a b : Nat) : Nat × Ev :=
  let v := match x.num f a with
    | .fin n m e st => Num.fin n m (e + sgn f.width b) st
    | v => v
  x.fround f v 0

/-- The high half of the exact product (R176). -/
def elMulh (f : Fmt) (a b : Nat) : Nat := wrapInt f.width ((ival f a * ival f b).fdiv (2 ^ f.width : Nat))

/-- An integer clamped into its format's range (R176). -/
def clampInt (f : Fmt) (v : Int) : Nat × Ev :=
  if v < f.intMin then (wrapInt f.width f.intMin, evSat)
  else if f.intMax < v then (wrapInt f.width f.intMax, evSat)
  else (wrapInt f.width v, 0)

/-- The fused forms: the product negated when np is set, the addend when nc is set (R177). -/
def elFused (np nc : Bool) (f : Fmt) (x : Ctx) (a b c : Nat) : Nat × Ev :=
  let p := (x.num f a).mul (x.num f b)
  let q := if np then p.1.negate else p.1
  let z := if nc then (x.num f c).negate else x.num f c
  let r := q.add x.rdn z
  x.fround f r.1 (invIf (p.2 || r.2))

/-- Square root (R178). -/
def elSqrt (f : Fmt) (x : Ctx) (a : Nat) : Nat × Ev :=
  match x.num f a with
  | .nan => x.fround f .nan 0
  | .inf n => if n then x.fround f .nan evInv else x.fround f (.inf false) 0
  | .fin n m e _ => if m = 0 then x.fround f (.fin n 0 0 false) 0
    else if n then x.fround f .nan evInv else x.fround f (sqrtNum m e) 0

/-- Reciprocal (R178). -/
def elRcp (f : Fmt) (x : Ctx) (a : Nat) : Nat × Ev :=
  let r := (Num.ofInt 1).div (x.num f a)
  x.fround f r.1 r.2

/-- Reciprocal square root (R178). -/
def elRsq (f : Fmt) (x : Ctx) (a : Nat) : Nat × Ev :=
  match x.num f a with
  | .nan => x.fround f .nan 0
  | .inf n => if n then x.fround f .nan evInv else x.fround f (.fin false 0 0 false) 0
  | .fin n m e _ => if m = 0 then x.fround f (.inf n) evDze
    else if n then x.fround f .nan evInv else x.fround f (rsqrtNum m e) 0

/-- Power of two (R178). -/
def elExp2 (f : Fmt) (x : Ctx) (a : Nat) : Nat × Ev :=
  match x.num f a with
  | .nan => x.fround f .nan 0
  | .inf n => x.fround f (if n then .fin false 0 0 false else .inf false) 0
  | .fin n m e _ => x.fround f (exp2Num n m e) 0

/-- Binary logarithm (R178). -/
def elLog2 (f : Fmt) (x : Ctx) (a : Nat) : Nat × Ev :=
  match x.num f a with
  | .nan => x.fround f .nan 0
  | .inf n => if n then x.fround f .nan evInv else x.fround f (.inf false) 0
  | .fin n m e _ => if m = 0 then x.fround f (.inf true) evDze
    else if n then x.fround f .nan evInv else x.fround f (log2Num m e) 0

/-- Field extraction under a control word (R180). -/
def elBfx (f : Fmt) (a b : Nat) : Nat :=
  let w := f.width
  let pos := if w = 8 then b % 8 else b % 64
  let len0 := if w = 8 then b / 16 % 16 else b / 256 % 128
  let len := if w ≤ pos then 0 else min len0 (w - pos)
  let v := a / 2 ^ pos % 2 ^ len
  if len = 0 then 0 else if f.isSigned then wrapInt w (sgn len v) else v

/-- Zero bits above the highest set bit of w bits (R179). -/
def elClz (w a : Nat) : Nat := if a = 0 then w else w - 1 - Nat.log2 a

/-- A comparison (R182). -/
def elCmp (f : Fmt) (cond : Cond) (x : Ctx) (a b : Nat) : Bool :=
  if f.isFloat then
    let p := x.num f a
    let q := x.num f b
    let un := p.isNan || q.isNan
    match cond with
    | .eq => p.eqv q
    | .ne => !(p.eqv q)
    | .lt => p.lt q
    | .ge => !un && !(p.lt q)
    | .ltn => un || p.lt q
    | .gen => !(p.lt q)
    | .any => un
    | .none => !un
  else
    match cond with
    | .eq => a == b
    | .ne => a != b
    | .lt => decide (ival f a < ival f b)
    | .ge => decide (ival f b ≤ ival f a)
    | .ltn => decide (a < b)
    | .gen => decide (b ≤ a)
    | .any => a &&& b != 0
    | .none => a &&& b == 0

/-- The class of a float code (R183). -/
def elClass (f : Fmt) (a : Nat) : Nat :=
  match Num.ofCode f a with
  | .nan => 0
  | .inf n => if n then 1 else 2
  | .fin _ m _ _ => if m = 0 then 3 else if subnormalCode f a then 4 else 5

/-! ### Reductions (R194) -/

/-- The sum of float elements: NaN with INV when both infinities occur (R194). -/
def redSumF (f : Fmt) (x : Ctx) (cs : List Nat) : Nat × Ev :=
  let vs := cs.map (x.num f)
  let both := (vs.any fun v => v == .inf false) && (vs.any fun v => v == .inf true)
  let s := match vs with
    | [] => Num.fin false 0 0 false
    | v :: t => t.foldl (fun a b => (a.add false b).1) v
  x.fround f s (invIf both)

/-- The reduction operations of VRED and VSCAN (R194). -/
inductive RedOp | sum | min | max
  deriving DecidableEq, Repr

/-- The result for an empty set (R194). -/
def redEmpty (f : Fmt) (op : RedOp) : Nat :=
  match op with
  | .sum => 0
  | .min => if f.isFloat then f.infCode else wrapInt f.width f.intMax
  | .max => if f.isFloat then f.signed true f.infCode else wrapInt f.width f.intMin

/-- The reduction of a set of active elements (R194). -/
def reduce (f : Fmt) (op : RedOp) (x : Ctx) (cs : List Nat) : Nat × Ev :=
  match op, cs with
  | op, [] => (redEmpty f op, 0)
  | .sum, cs => if f.isFloat then redSumF f x cs else (cs.foldl (· + ·) 0 % 2 ^ f.width, 0)
  | .min, c :: t => (t.foldl (elPick false f x) (elPick false f x c c), 0)
  | .max, c :: t => (t.foldl (elPick true f x) (elPick true f x c c), 0)

/-- The active elements among the first n of a register. -/
def Ctx.activeElems (x : Ctx) (w n : Nat) (v : Vec) : List Nat :=
  ((List.range n).filter (x.active w)).map (elem v w)

/-- VRED: the reduction in element 0, zero elsewhere (R194). -/
def vecRed (f : Fmt) (op : RedOp) (vd va : VReg) (e : Bool) (c : CoreId) (s : State) : Res :=
  vecWhole (fun x => x.useActive f.width) 6 [va] vd e (fun x vs =>
    let r := reduce f op x (x.activeElems f.width (1024 / f.width) (vs.headD 0))
    (vecOf f.width [r.1], r.2)) c s

/-- VSCAN: the reduction of the active elements up to each place (R194). -/
def vecScan (f : Fmt) (op : RedOp) (vd va : VReg) (e : Bool) (c : CoreId) (s : State) : Res :=
  vecWhole (fun x => x.useActive f.width) 8 [va] vd e (fun x vs =>
    let rs := (List.range (1024 / f.width)).map fun j => reduce f op x (x.activeElems f.width (j + 1) (vs.headD 0))
    (vecOf f.width (rs.map (·.1)), evUnion rs)) c s

/-! ### Instructions -/

/-- A fused multiply-add of five-bit registers (R177). -/
def fusedOp (np nc : Bool) (f : Fmt) (vd va vb vc : VReg5) (e : Bool) (c : CoreId) (s : State) : Res :=
  vecMap f.width 5 [va.setWidth 6, vb.setWidth 6, vc.setWidth 6] (vd.setWidth 6) e
    (fun x l => elFused np nc f x (arg l 0) (arg l 1) (arg l 2)) c s

/-- Width of a class W element (R77). -/
def wbits (t : Wd) : Nat :=
  match t with
  | .w8 => 8 | .w16 => 16 | .w32 => 32 | .w64 => 64

/-- VADD (R176). -/
def execVadd (r : Ring) (t : Fmt) (e : Bool) (vd va vb : VReg) (s : State) : Host.Outcome State Fault Refusal :=
  issue .v r (vecMap t.width 3 [va, vb] vd e fun x l => elAdd t x (arg l 0) (arg l 1)) s

/-- VSUB (R176). -/
def execVsub (r : Ring) (t : Fmt) (e : Bool) (vd va vb : VReg) (s : State) : Host.Outcome State Fault Refusal :=
  issue .v r (vecMap t.width 3 [va, vb] vd e fun x l => elSub t x (arg l 0) (arg l 1)) s

/-- VMUL (R176). -/
def execVmul (r : Ring) (t : Fmt) (e : Bool) (vd va vb : VReg) (s : State) : Host.Outcome State Fault Refusal :=
  issue .v r (vecMap t.width 4 [va, vb] vd e fun x l => elMul t x (arg l 0) (arg l 1)) s

/-- VMIN (R176). -/
def execVmin (r : Ring) (t : Fmt) (e : Bool) (vd va vb : VReg) (s : State) : Host.Outcome State Fault Refusal :=
  issue .v r (vecMap t.width 3 [va, vb] vd e fun x l => (elPick false t x (arg l 0) (arg l 1), 0)) s

/-- VMAX (R176). -/
def execVmax (r : Ring) (t : Fmt) (e : Bool) (vd va vb : VReg) (s : State) : Host.Outcome State Fault Refusal :=
  issue .v r (vecMap t.width 3 [va, vb] vd e fun x l => (elPick true t x (arg l 0) (arg l 1), 0)) s

/-- VDIV (R176). -/
def execVdiv (r : Ring) (t : Fmt) (e : Bool) (vd va vb : VReg) (s : State) : Host.Outcome State Fault Refusal :=
  issue .v r (vecMap t.width 14 [va, vb] vd e fun x l => elDiv t x (arg l 0) (arg l 1)) s

/-- VSCALE (R176). -/
def execVscale (r : Ring) (t : Fmt) (e : Bool) (vd va vb : VReg) (s : State) : Host.Outcome State Fault Refusal :=
  issue .v r (vecMap t.width 3 [va, vb] vd e fun x l => elScale t x (arg l 0) (arg l 1)) s

/-- VMULH (R176). -/
def execVmulh (r : Ring) (t : Fmt) (e : Bool) (vd va vb : VReg) (s : State) : Host.Outcome State Fault Refusal :=
  issue .v r (vecMap t.width 4 [va, vb] vd e fun _ l => (elMulh t (arg l 0) (arg l 1), 0)) s

/-- VADDS (R176). -/
def execVadds (r : Ring) (t : Fmt) (e : Bool) (vd va vb : VReg) (s : State) : Host.Outcome State Fault Refusal :=
  issue .v r (vecMap t.width 3 [va, vb] vd e fun _ l => clampInt t (ival t (arg l 0) + ival t (arg l 1))) s

/-- VSUBS (R176). -/
def execVsubs (r : Ring) (t : Fmt) (e : Bool) (vd va vb : VReg) (s : State) : Host.Outcome State Fault Refusal :=
  issue .v r (vecMap t.width 3 [va, vb] vd e fun _ l => clampInt t (ival t (arg l 0) - ival t (arg l 1))) s

/-- VBFX (R180). -/
def execVbfx (r : Ring) (t : Fmt) (e : Bool) (vd va vb : VReg) (s : State) : Host.Outcome State Fault Refusal :=
  issue .v r (vecMap t.width 3 [va, vb] vd e fun _ l => (elBfx t (arg l 0) (arg l 1), 0)) s

/-- VFMA in f32, or in f64 with T set (R177). -/
def execVfmaF32F64 (r : Ring) (vd : VReg5) (e : Bool) (va vb vc : VReg5) (t : Bool) (s : State) : Host.Outcome State Fault Refusal :=
  issue .v r (fusedOp false false (if t then .f64 else .f32) vd va vb vc e) s

/-- VFMA in bf16, or in f16 with T set (R177). -/
def execVfmaBf16F16 (r : Ring) (vd : VReg5) (e : Bool) (va vb vc : VReg5) (t : Bool) (s : State) : Host.Outcome State Fault Refusal :=
  issue .v r (fusedOp false false (if t then .f16 else .bf16) vd va vb vc e) s

/-- VFMS in f32, or in f64 with T set (R177). -/
def execVfmsF32F64 (r : Ring) (vd : VReg5) (e : Bool) (va vb vc : VReg5) (t : Bool) (s : State) : Host.Outcome State Fault Refusal :=
  issue .v r (fusedOp false true (if t then .f64 else .f32) vd va vb vc e) s

/-- VFMS in bf16, or in f16 with T set (R177). -/
def execVfmsBf16F16 (r : Ring) (vd : VReg5) (e : Bool) (va vb vc : VReg5) (t : Bool) (s : State) : Host.Outcome State Fault Refusal :=
  issue .v r (fusedOp false true (if t then .f16 else .bf16) vd va vb vc e) s

/-- VFNMA in f32, or in f64 with T set (R177). -/
def execVfnmaF32F64 (r : Ring) (vd : VReg5) (e : Bool) (va vb vc : VReg5) (t : Bool) (s : State) : Host.Outcome State Fault Refusal :=
  issue .v r (fusedOp true false (if t then .f64 else .f32) vd va vb vc e) s

/-- VFNMA in bf16, or in f16 with T set (R177). -/
def execVfnmaBf16F16 (r : Ring) (vd : VReg5) (e : Bool) (va vb vc : VReg5) (t : Bool) (s : State) : Host.Outcome State Fault Refusal :=
  issue .v r (fusedOp true false (if t then .f16 else .bf16) vd va vb vc e) s

/-- VABS clears the sign bit (R178). -/
def execVabs (r : Ring) (t : Fmt) (e : Bool) (vd va : VReg) (s : State) : Host.Outcome State Fault Refusal :=
  issue .v r (vecMap t.width 2 [va] vd e fun _ l => (arg l 0 % t.signBit, 0)) s

/-- VNEG inverts the sign bit (R178). -/
def execVneg (r : Ring) (t : Fmt) (e : Bool) (vd va : VReg) (s : State) : Host.Outcome State Fault Refusal :=
  issue .v r (vecMap t.width 2 [va] vd e fun _ l => ((arg l 0 + t.signBit) % 2 ^ t.width, 0)) s

/-- VSQRT (R178). -/
def execVsqrt (r : Ring) (t : Fmt) (e : Bool) (vd va : VReg) (s : State) : Host.Outcome State Fault Refusal :=
  issue .v r (vecMap t.width 14 [va] vd e fun x l => elSqrt t x (arg l 0)) s

/-- VRCP (R178). -/
def execVrcp (r : Ring) (t : Fmt) (e : Bool) (vd va : VReg) (s : State) : Host.Outcome State Fault Refusal :=
  issue .v r (vecMap t.width 8 [va] vd e fun x l => elRcp t x (arg l 0)) s

/-- VRSQ (R178). -/
def execVrsq (r : Ring) (t : Fmt) (e : Bool) (vd va : VReg) (s : State) : Host.Outcome State Fault Refusal :=
  issue .v r (vecMap t.width 8 [va] vd e fun x l => elRsq t x (arg l 0)) s

/-- VEXP2 (R178). -/
def execVexp2 (r : Ring) (t : Fmt) (e : Bool) (vd va : VReg) (s : State) : Host.Outcome State Fault Refusal :=
  issue .v r (vecMap t.width 8 [va] vd e fun x l => elExp2 t x (arg l 0)) s

/-- VLOG2 (R178). -/
def execVlog2 (r : Ring) (t : Fmt) (e : Bool) (vd va : VReg) (s : State) : Host.Outcome State Fault Refusal :=
  issue .v r (vecMap t.width 8 [va] vd e fun x l => elLog2 t x (arg l 0)) s

/-- VPOPC (R179). -/
def execVpopc (r : Ring) (t : Wd) (e : Bool) (vd va : VReg) (s : State) : Host.Outcome State Fault Refusal :=
  issue .v r (vecMap (wbits t) 3 [va] vd e fun _ l => (popCount (wbits t) (arg l 0), 0)) s

/-- VCLZ (R179). -/
def execVclz (r : Ring) (t : Wd) (e : Bool) (vd va : VReg) (s : State) : Host.Outcome State Fault Refusal :=
  issue .v r (vecMap (wbits t) 3 [va] vd e fun _ l => (elClz (wbits t) (arg l 0), 0)) s

/-- VAND by byte (R179). -/
def execVand (r : Ring) (e : Bool) (vd va vb : VReg) (s : State) : Host.Outcome State Fault Refusal :=
  issue .v r (vecMap 8 2 [va, vb] vd e fun _ l => (arg l 0 &&& arg l 1, 0)) s

/-- VOR by byte (R179). -/
def execVor (r : Ring) (e : Bool) (vd va vb : VReg) (s : State) : Host.Outcome State Fault Refusal :=
  issue .v r (vecMap 8 2 [va, vb] vd e fun _ l => (arg l 0 ||| arg l 1, 0)) s

/-- VXOR by byte (R179). -/
def execVxor (r : Ring) (e : Bool) (vd va vb : VReg) (s : State) : Host.Outcome State Fault Refusal :=
  issue .v r (vecMap 8 2 [va, vb] vd e fun _ l => (arg l 0 ^^^ arg l 1, 0)) s

/-- VSLL (R179). -/
def execVsll (r : Ring) (t : Wd) (e : Bool) (vd va vb : VReg) (s : State) : Host.Outcome State Fault Refusal :=
  issue .v r (vecMap (wbits t) 2 [va, vb] vd e fun _ l => (arg l 0 * 2 ^ (arg l 1 % (wbits t)) % 2 ^ (wbits t), 0)) s

/-- VSRL (R179). -/
def execVsrl (r : Ring) (t : Wd) (e : Bool) (vd va vb : VReg) (s : State) : Host.Outcome State Fault Refusal :=
  issue .v r (vecMap (wbits t) 2 [va, vb] vd e fun _ l => (arg l 0 / 2 ^ (arg l 1 % (wbits t)), 0)) s

/-- VSRA (R179). -/
def execVsra (r : Ring) (t : Wd) (e : Bool) (vd va vb : VReg) (s : State) : Host.Outcome State Fault Refusal :=
  issue .v r (vecMap (wbits t) 2 [va, vb] vd e fun _ l =>
    (wrapInt (wbits t) ((sgn (wbits t) (arg l 0)).fdiv (2 ^ (arg l 1 % (wbits t)) : Nat)), 0)) s

/-- VFSH: the old vd is a source (R181). -/
def execVfsh (r : Ring) (t : Wd) (e : Bool) (vd va vb : VReg) (s : State) : Host.Outcome State Fault Refusal :=
  issue .v r (vecMap (wbits t) 3 [va, vb, vd] vd e fun _ l =>
    ((arg l 0 * 2 ^ (wbits t) + arg l 2) / 2 ^ (arg l 1 % (wbits t)) % 2 ^ (wbits t), 0)) s

/-- VCMP (R182). -/
def execVcmp (r : Ring) (md : KReg) (cond : Cond) (va vb : VReg) (t : Fmt) (s : State) : Host.Outcome State Fault Refusal :=
  issue .v r (vecTest t.width md [va, vb] fun x l => elCmp t cond x (arg l 0) (arg l 1)) s

/-- VCLASS (R183). -/
def execVclass (r : Ring) (md : KReg) (va : VReg) (set : BitVec 6) (t : Fmt) (s : State) : Host.Outcome State Fault Refusal :=
  issue .v r (vecTest t.width md [va] fun _ l => set.getLsbD (elClass t (arg l 0))) s

/-- VSEL writes all bytes (R184). -/
def execVsel (r : Ring) (e : Bool) (vd va vb : VReg) (s : State) : Host.Outcome State Fault Refusal :=
  issue .v r (vecWhole (fun _ => useAll) 2 [va, vb] vd e fun x vs =>
    (vecOf 8 ((List.range 128).map fun j => elem (vs.getD (if x.active 8 j then 0 else 1) 0) 8 j), 0)) s

/-- VMOV (R184). -/
def execVmov (r : Ring) (e : Bool) (vd va : VReg) (s : State) : Host.Outcome State Fault Refusal :=
  issue .v r (vecMap 8 2 [va] vd e fun _ l => (arg l 0, 0)) s

/-- VMSEL: the new mask is active from the next slot (R185). -/
def execVmsel (r : Ring) (mk : KReg) (s : State) : Host.Outcome State Fault Refusal :=
  issue .v r (fun c s => .ok (Done.plain (s.modCtx c fun x => { x with actm := mk }))) s


/-- VRED of sum (R194). -/
def execVredSum (r : Ring) (t : Fmt) (e : Bool) (vd va : VReg) (s : State) : Host.Outcome State Fault Refusal :=
  issue .v r (vecRed t .sum vd va e) s

/-- VRED of min (R194). -/
def execVredMin (r : Ring) (t : Fmt) (e : Bool) (vd va : VReg) (s : State) : Host.Outcome State Fault Refusal :=
  issue .v r (vecRed t .min vd va e) s

/-- VRED of max (R194). -/
def execVredMax (r : Ring) (t : Fmt) (e : Bool) (vd va : VReg) (s : State) : Host.Outcome State Fault Refusal :=
  issue .v r (vecRed t .max vd va e) s

/-- VSCAN of sum (R194). -/
def execVscanSum (r : Ring) (t : Fmt) (e : Bool) (vd va : VReg) (s : State) : Host.Outcome State Fault Refusal :=
  issue .v r (vecScan t .sum vd va e) s

/-- VSCAN of min (R194). -/
def execVscanMin (r : Ring) (t : Fmt) (e : Bool) (vd va : VReg) (s : State) : Host.Outcome State Fault Refusal :=
  issue .v r (vecScan t .min vd va e) s

/-- VSCAN of max (R194). -/
def execVscanMax (r : Ring) (t : Fmt) (e : Bool) (vd va : VReg) (s : State) : Host.Outcome State Fault Refusal :=
  issue .v r (vecScan t .max vd va e) s

end Sys2Proof.Machine
end

