-- ==== Sys2Proof/Machine/VConv.lean ====
section
/-!
DEFINITION. Machine/VConv.lean: conversions, group quantisation, lane movement and memory access of the V stream (R186 to
R193, R195 to R198).
-/
namespace Sys2Proof.Machine

/-! ### Conversion (R186 to R189) -/

/-- The control of VPACK, VUNPK and VQNT: SR acts as RNE (R188). -/
def Ctx.crmNoSr (x : Ctx) : RCtl := { x.crmCtl 0 with mode := (Rnd.ofCode x.crm.toNat).noSr }

/-- One element converted under a control, DAZ on the source (R170). -/
def Ctx.convert (x : Ctx) (ctl : RCtl) (fs fd : Fmt) (code : Nat) : Nat × Ev := roundNum fd ctl (x.num fs code)

/-- The random value of element j from the register after the source (R186). -/
def srOf (v : Vec) (k j : Nat) : Nat :=
  let w := elem v 32 (j % 32)
  let t := 8 * (j / 32) % 32
  (w / 2 ^ t + w * 2 ^ (32 - t)) % 2 ^ 32 % 2 ^ k

/-- The even register of a pair, and the odd one (R186). -/
def pairReg (vp : BitVec 5) (i : Nat) : VReg := BitVec.ofNat 6 (2 * vp.toNat + i)

/-- The bytes that VCVT takes: those of the source elements, and of the random words, of active elements of the result (R171,
R186). -/
def Ctx.useCvt (x : Ctx) (vp : BitVec 5) (fs fd : Fmt) : Use := fun r i =>
  (List.range (1024 / max fs.width fd.width)).any fun j => x.active fd.width j &&
    (if r = pairReg vp 0 then decide (fs.width * j / 8 ≤ i) && decide (8 * i < fs.width * (j + 1)) else j % 32 == i / 4)

/-- VCVT (R186). -/
def vecCvt (vd : VReg) (vp : BitVec 5) (e : Bool) (fs fd : Fmt) (c : CoreId) (s : State) : Res :=
  let sr := (s.ctx c).crm == 5
  let srcs := if sr then [pairReg vp 0, pairReg vp 1] else [pairReg vp 0]
  vecRead ((s.ctx c).useCvt vp fs fd) srcs [vd] none c s fun s reads =>
    let x := s.ctx c
    let a := s.vecAt c (pairReg vp 0)
    let b := if sr then s.vecAt c (pairReg vp 1) else 0
    let n := 1024 / max fs.width fd.width
    let act := fun j => x.active fd.width j
    let rs := (List.range n).map fun j =>
      if act j then x.convert (x.crmCtl (srOf b x.srk.toNat j)) fs fd (elem a fs.width j) else (0, 0)
    let top := BitVec.ofNat 1024 (2 ^ 1024 - 2 ^ (n * fd.width))
    .ok (vecDone s c 3 srcs vd e reads (vecOf fd.width (rs.map (·.1))) (elemBits fd.width n act ||| top) (evUnion rs))

/-- VPACK (R188). -/
def vecPack (vd : VReg) (vp : BitVec 5) (e : Bool) (fs fd : Fmt) (c : CoreId) (s : State) : Res :=
  vecWhole (fun _ => useAll) 4 [pairReg vp 0, pairReg vp 1] vd e (fun x vs =>
    let h := 1024 / fs.width
    let rs := (List.range (2 * h)).map fun j =>
      x.convert x.crmNoSr fs fd (elem (vs.getD (j / h) 0) fs.width (j % h))
    (vecOf fd.width (rs.map (·.1)), evUnion rs)) c s

/-- VUNPK: register vd + i lands 3 + i slots after issue; its occupancy is the group size (R189, R175). It has g landing
slots: the events of each register's elements enter VFLAGS as that register lands, and the six slots of a lent window are
added to the whole instruction when any of its views lies in one (R172, R175 speak of one landing; the model's choice, log
entry 123). -/
def vecUnpk (vd : VReg) (vp : BitVec 5) (fs fd : Fmt) (c : CoreId) (s : State) : Res :=
  let g := fd.width / unpkWidth fs
  let src := pairReg vp 0
  let dsts := (List.range g).map fun i => vd + BitVec.ofNat 6 i
  vecRead useAll [src] dsts none c s fun s reads =>
    let x := s.ctx c
    let a := s.vecAt c src
    let per := 1024 / fd.width
    let lands := dsts.zipIdx.map fun p =>
      let rs := (List.range per).map fun j => x.convert x.crmNoSr fs fd (elem a fs.width (p.2 * per + j))
      ({ lat := x.vecLat (3 + p.2) [src] p.1 false (dsts.any x.viewLent)
         dest := x.vecDest p.1 false (vecOf fd.width (rs.map (·.1))) (BitVec.allOnes 1024)
         vfl := evUnion rs, mfl := 0 } : New)
    .ok { s := s, lands := lands, occ := g, npc := none, reads := reads, cmd := false }

/-- VCVT (R186). -/
def execVcvt (r : Ring) (vd : VReg) (vp : BitVec 5) (e : Bool) (fs fd : Fmt) (s : State) : Host.Outcome State Fault Refusal :=
  issue .v r (vecCvt vd vp e fs fd) s

/-- VPACK (R188). -/
def execVpack (r : Ring) (vd : VReg) (vp : BitVec 5) (e : Bool) (fs fd : Fmt) (s : State) : Host.Outcome State Fault Refusal :=
  issue .v r (vecPack vd vp e fs fd) s

/-- VUNPK (R189). -/
def execVunpk (r : Ring) (vd : VReg) (vp : BitVec 5) (fs fd : Fmt) (s : State) : Host.Outcome State Fault Refusal :=
  issue .v r (vecUnpk vd vp fs fd) s

/-! ### Group quantisation (R190 to R192) -/

/-- The geometry code of VQNT and VDQNT (R190). -/
def qgeoCode (g : QGeo) : Nat :=
  match g with
  | .mx => 1 | .s16 => 2 | .s32 => 3 | .g32 => 4

/-- Magnitude comparison of finite values. -/
def magLt (a b : Num) : Bool :=
  match a, b with
  | .fin _ m e _, .fin _ n d _ => Num.lt (.fin false m e false) (.fin false n d false)
  | _, _ => false

/-- The value of largest magnitude (R191). -/
def amaxOf (l : List Num) : Num := l.foldl (fun a b => if magLt a b then b else a) (.fin false 0 0 false)

/-- The magnitude of a finite value. -/
def magOf (v : Num) : Num :=
  match v with
  | .fin _ m e st => .fin false m e st
  | v => v

/-- emax of a target format (R191). -/
def qEmax (t : Fmt) : Int :=
  match t with
  | .e4m3 => 8 | .e5m2 => 15 | .e3m2 => 4 | .e2m3 => 2 | .e2m1 => 2 | _ => 0

/-- floor(log2) of a nonzero finite value. -/
def ilog2 (v : Num) : Int :=
  match v with
  | .fin _ m e _ => e + (Nat.log2 m : Int)
  | _ => 0

/-- A quantised block: scale code, element codes, events. -/
structure QBlock where
  scale : Nat
  codes : List Nat
  ev : Ev
  deriving DecidableEq, Repr

/-- A finite value times a power of two. -/
def shiftNum (v : Num) (k : Int) : Num :=
  match v with
  | .fin n m e st => .fin n m (e + k) st
  | v => v

/-- Quantise one block of values (R191). -/
def quantBlock (t : Fmt) (g : QGeo) (ctl : RCtl) (xs : List Num) : QBlock :=
  let zeros := xs.map fun _ => 0
  let fin := fun v => match v with
    | Num.fin .. => true
    | _ => false
  let amax := amaxOf xs
  let up : RCtl := { RCtl.rne with mode := .rup, sat := true }
  let near : RCtl := { RCtl.rne with sat := true }
  let each := fun (f : Num → Num) =>
    let rs := xs.map fun v => roundNum t ctl (f v)
    (rs.map (·.1), evUnion rs)
  if !(xs.all fin) then
    { scale := match g with
        | .mx => 0xFF
        | .s16 => 0x7F
        | .s32 => 0x7F
        | .g32 => 0x7E00, codes := zeros, ev := evInv }
  else if amax.isZero then
    { scale := match g with
        | .mx => 0x7F
        | .s16 => 0
        | .s32 => 0
        | .g32 => 0x3C00, codes := zeros, ev := 0 }
  else
    match g with
    | .mx =>
      let code := (max 0 (min 254 (ilog2 amax - qEmax t + 127))).toNat
      let r := each fun v => shiftNum v (127 - (code : Int) + (if t = .i8 then 6 else 0))
      { scale := code, codes := r.1, ev := r.2 }
    | .g32 =>
      let lo := xs.foldl (fun a b => if b.lt a then b else a) (.fin false 0 0 false)
      let hi := xs.foldl (fun a b => if a.lt b then b else a) (.fin false 0 0 false)
      let sc := (roundNum .f16 up (((hi.add false lo.negate).1).div (Num.ofInt (t.intMax - t.intMin))).1).1
      let sv := Num.ofCode .f16 sc
      let zp := (roundNum .i8 near (((((Num.ofInt t.intMin).mul sv).1.add false lo.negate).1).div sv).1).1
      let r := each fun v => (((v.add false ((Num.ofInt (sgn 8 zp)).mul sv).1).1).div sv).1
      { scale := sc + zp * 2 ^ 16, codes := r.1, ev := r.2 }
    | _ =>
      let sc := (roundNum .e4m3 up ((magOf amax).div (Num.ofCode t t.maxCode)).1).1
      let sv := Num.ofCode .e4m3 sc
      let r := each fun v => (v.div sv).1
      { scale := sc, codes := r.1, ev := r.2 }

/-- The misaligned scale address of VQNT and VDQNT, if any (R190). -/
def qMis (g : QGeo) (a : Word) : Option Word :=
  if g = .g32 ∧ a.toNat % 4 ≠ 0 then some a else none

/-- VQNT: the vector and the scale both land six slots after issue (R191). -/
def vecQnt (t : Fmt) (e : Bool) (vd va : VReg) (sx : XReg) (g : QGeo) (c : CoreId) (s : State) : Res :=
  let a := (s.ctx c).xr sx
  vecRead useAll [va] [vd] (qMis g a) c s fun s reads =>
    let x := s.ctx c
    let v := s.vecAt c va
    let len := geoLen (qgeoCode g)
    let z := geoScale (qgeoCode g)
    let ctl := { x.crmNoSr with sat := true }
    let bs := (List.range (32 / len)).map fun b =>
      quantBlock t g ctl ((span (b * len) len).map fun j => x.num .f32 (elem v 32 j))
    let scales := (bs.map fun b => leBytes z b.scale).flatten
    let ev := bs.foldl (fun k b => k ||| b.ev) (0 : Ev)
    let lat := x.vecLat 6 [va] vd e false
    let dv := x.vecDest vd e (vecOf t.width (bs.map (·.codes)).flatten) (BitVec.allOnes 1024)
    .ok { s := s, lands := [New.plain lat (.cells .sm (scales.zipIdx.map fun p => (a.toNat + p.2, p.1))),
                            { lat := lat, dest := dv, vfl := ev, mfl := 0 }],
          occ := 1, npc := none, reads := reads, cmd := false }

/-- VDQNT: the scale is read at issue; no control bit acts (R192). -/
def vecDqnt (t : Fmt) (e : Bool) (vd va : VReg) (sx : XReg) (g : QGeo) (c : CoreId) (s : State) : Res :=
  let a := (s.ctx c).xr sx
  vecRead useAll [va] [vd] (qMis g a) c s fun s reads =>
    let v := s.vecAt c va
    let geo := qgeoCode g
    let len := geoLen geo
    let z := geoScale geo
    let as := span a.toNat (32 / len * z)
    match s.badOf c 1 .sm as with
    | some b => .fault .uncorrectableData (BitVec.ofNat 64 b) reads
    | none =>
      let rs := (List.range 32).map fun j =>
        let k := leNat (s.localBytes c 1 .sm (a.toNat + j / len * z) z)
        roundNum .f32 RCtl.rne (scaledElem t geo k (elem v t.width j))
      let s1 := s.oorNote c .v .sm false (minOf (s.outOf c .sm as))
      .ok (vecDone s1 c 6 [va] vd e reads (vecOf 32 (rs.map (·.1))) (BitVec.allOnes 1024) (evUnion rs))

/-- VQNT (R191). -/
def execVqnt (r : Ring) (t : Fmt) (e : Bool) (vd va : VReg) (sx : XReg) (g : QGeo) (s : State) :
    Host.Outcome State Fault Refusal :=
  issue .v r (vecQnt t e vd va sx g) s

/-- VDQNT (R192). -/
def execVdqnt (r : Ring) (t : Fmt) (e : Bool) (vd va : VReg) (sx : XReg) (g : QGeo) (s : State) :
    Host.Outcome State Fault Refusal :=
  issue .v r (vecDqnt t e vd va sx g) s

/-! ### Lane movement (R193) -/

/-- Elements of w bits in a register (R169). -/
def lanes (t : Wd) : Nat := 1024 / wbits t

/-- VBCAST (R193). -/
def execVbcast (r : Ring) (t : Wd) (e : Bool) (vd : VReg) (sx : XReg) (s : State) : Host.Outcome State Fault Refusal :=
  issue .v r (vecMove (wbits t) 2 [] vd e (fun _ _ _ => []) fun x _ _ => (x.xr sx).toNat) s

/-- VEXT: unmasked, sign-extended, into the exchange register sd (R81, R193). -/
def vecExt (t : Wd) (sd : XReg) (va : VReg) (sx : XReg) (c : CoreId) (s : State) : Res :=
  vecRead useAll [va] [] none c s fun s reads =>
    let x := s.ctx c
    let v := elem (s.vecAt c va) (wbits t) ((x.xr sx).toNat % lanes t)
    let lat := if x.lentRead [va] then 9 else 3
    .ok { Done.one s (New.plain lat (.scalar (BitVec.ofNat 6 (48 + sd.toNat)) (BitVec.ofInt 64 (sgn (wbits t) v)))) with
      reads := reads }

/-- VEXT (R193). -/
def execVext (r : Ring) (t : Wd) (sd : XReg) (va : VReg) (sx : XReg) (s : State) : Host.Outcome State Fault Refusal :=
  issue .v r (vecExt t sd va sx) s

/-- VINS: the index stands in the register after sx, wrapping from s63 to s48 (R193). -/
def execVins (r : Ring) (t : Wd) (e : Bool) (vd va : VReg) (sx : XReg) (s : State) : Host.Outcome State Fault Refusal :=
  issue .v r (vecMove (wbits t) 3 [va] vd e
    (fun x _ j => if j = (x.xr (sx + 1)).toNat % lanes t then [] else [(va, j)]) fun x vs j =>
    if j = (x.xr (sx + 1)).toNat % lanes t then (x.xr sx).toNat else vs.headD (fun _ => 0) j) s

/-- VPERM (R193). -/
def execVperm (r : Ring) (t : Wd) (e : Bool) (vd va vb : VReg) (s : State) : Host.Outcome State Fault Refusal :=
  issue .v r (vecMove (wbits t) 4 [va, vb] vd e
    (fun _ vs j => [(vb, j), (va, vs.getD 1 (fun _ => 0) j % lanes t)]) fun _ vs j =>
    vs.headD (fun _ => 0) (vs.getD 1 (fun _ => 0) j % lanes t)) s

/-- VROT down (R193). -/
def execVrotDn (r : Ring) (t : Wd) (e : Bool) (vd va : VReg) (sx : XReg) (s : State) : Host.Outcome State Fault Refusal :=
  issue .v r (vecMove (wbits t) 3 [va] vd e (fun x _ j => [(va, (j + (x.xr sx).toNat) % lanes t)]) fun x vs j =>
    vs.headD (fun _ => 0) ((j + (x.xr sx).toNat) % lanes t)) s

/-- VROT up (R193). -/
def execVrotUp (r : Ring) (t : Wd) (e : Bool) (vd va : VReg) (sx : XReg) (s : State) : Host.Outcome State Fault Refusal :=
  issue .v r (vecMove (wbits t) 3 [va] vd e
    (fun x _ j => [(va, (j + (lanes t - (x.xr sx).toNat % lanes t)) % lanes t)]) fun x vs j =>
    vs.headD (fun _ => 0) ((j + (lanes t - (x.xr sx).toNat % lanes t)) % lanes t)) s

/-- VSLIDE down (R193). -/
def execVslideDn (r : Ring) (t : Wd) (e : Bool) (vd va : VReg) (sx : XReg) (s : State) : Host.Outcome State Fault Refusal :=
  issue .v r (vecMove (wbits t) 3 [va] vd e
    (fun x _ j => if j + min (x.xr sx).toNat (lanes t) < lanes t then [(va, j + min (x.xr sx).toNat (lanes t))] else [])
    fun x vs j =>
    let k := min (x.xr sx).toNat (lanes t)
    if j + k < lanes t then vs.headD (fun _ => 0) (j + k) else 0) s

/-- VSLIDE up (R193). -/
def execVslideUp (r : Ring) (t : Wd) (e : Bool) (vd va : VReg) (sx : XReg) (s : State) : Host.Outcome State Fault Refusal :=
  issue .v r (vecMove (wbits t) 3 [va] vd e
    (fun x _ j => if min (x.xr sx).toNat (lanes t) ≤ j then [(va, j - min (x.xr sx).toNat (lanes t))] else [])
    fun x vs j =>
    let k := min (x.xr sx).toNat (lanes t)
    if k ≤ j then vs.headD (fun _ => 0) (j - k) else 0) s

/-! ### Memory access (R195 to R198) -/

/-- The space of a VX form (R76). -/
def vspSpace (sp : VSp) : Space :=
  match sp with
  | .xb => .xb
  | .ofs => .ofs

/-- Occupancy of the strided and indexed forms (R175). -/
def vecOcc (w : Nat) : Nat := if w = 8 then 4 else if w = 16 then 2 else 1

/-- A V load of elements of w bits at given addresses: only active elements are read (R195, R198). -/
def vecLoad (w : Nat) (sp : Space) (srcs : List VReg) (vd : VReg) (e : Bool) (occ : Nat) (mis : Ctx → Option Word)
    (at_ : Ctx → List Vec → Nat → Word) (c : CoreId) (s : State) : Res :=
  vecRead ((s.ctx c).useActive w) srcs [vd] (mis (s.ctx c)) c s fun s reads =>
    let x := s.ctx c
    let n := 1024 / w
    let vs := srcs.map (s.vecAt c)
    let spanOf := fun j => span (at_ x vs j).toNat (w / 8)
    let as := (((List.range n).filter (x.active w)).map spanOf).flatten
    let reads := reads ++ (match sp with
      | .ofs => as
      | _ => [])
    match s.ldBad c 1 sp as with
    | some b => .fault (s.readCause c sp b) (BitVec.ofNat 64 b) reads
    | none =>
      let codes := (List.range n).map fun j =>
        if x.active w j then leNat ((spanOf j).map (s.ldByte c 1 sp)) else 0
      let s1 := s.oorNote c .v sp false (minOf (s.ldOut c 1 sp as))
      let lat := x.vecLat 6 srcs vd e (as.any (inWindow sp))
      .ok { s := s1, lands := [New.plain lat (x.vecDest vd e (vecOf w codes) (elemBits w n (x.active w)))],
            occ := occ, npc := none, reads := reads, cmd := false }

/-- A V store of active elements in element order; ea is the address that a refusal reports for an element (R195, R198,
R299). -/
def vecStore (w : Nat) (sp : Space) (idx : List VReg) (vd : VReg) (occ : Nat) (mis : Ctx → Option Word)
    (at_ ea : Ctx → List Vec → Nat → Word) (c : CoreId) (s : State) : Res :=
  vecRead ((s.ctx c).useActive w) (idx ++ [vd]) [] (mis (s.ctx c)) c s fun s reads =>
    let x := s.ctx c
    let n := 1024 / w
    let vs := idx.map (s.vecAt c)
    let v := s.vecAt c vd
    let parts := ((List.range n).filter (x.active w)).map fun j =>
      let a := at_ x vs j
      (ea x vs j, (leBytes (w / 8) (elem v w j)).zipIdx.map fun p => (a.toNat + p.2, p.1))
    streamStores s c .v sp parts reads fun s1 => .ok { Done.plain s1 with occ := occ, reads := reads }

/-- The address of VLD and VST (R195). -/
def vldEa (sa sb : XReg) (x : Ctx) : Word := x.xr sa + x.xr sb

/-- Alignment of VLD and VST (R196). -/
def vldMis (sa sb : XReg) (x : Ctx) : Option Word :=
  let a := vldEa sa sb x
  if a.toNat % 128 ≠ 0 then some a else none

/-- Alignment of VLDS and VSTS (R196). -/
def vldsMis (w : Nat) (sa sb : XReg) (x : Ctx) : Option Word :=
  let b := x.xr sa
  if b.toNat % (w / 8) ≠ 0 then some b
  else if (x.xr sb).toNat % (w / 8) ≠ 0 then some (b + x.xr sb)
  else none

/-- Address of element j of VLDS and VSTS (R195). -/
def vldsAt (sa sb : XReg) (x : Ctx) (_ : List Vec) (j : Nat) : Word := x.xr sa + BitVec.ofNat 64 j * x.xr sb

/-- Alignment of the indexed forms (R196). -/
def idxMis (w : Nat) (base : Ctx → Word) (x : Ctx) : Option Word :=
  let b := base x
  if b.toNat % (w / 8) ≠ 0 then some b else none

/-- Address of element j of VGATH and VSCAT (R195). -/
def gathAt (w : Nat) (sa : XReg) (x : Ctx) (vs : List Vec) (j : Nat) : Word :=
  x.xr sa + BitVec.ofNat 64 (elem (vs.headD 0) w j * (w / 8))

/-- BASE of VLUT (R197). -/
def lutBase (sa : XReg) (x : Ctx) : Word := BitVec.ofNat 64 ((x.xr sa).toNat % 2 ^ 32)

/-- Address of element j of VLUT (R197). -/
def lutAt (w : Nat) (sa : XReg) (x : Ctx) (vs : List Vec) (j : Nat) : Word :=
  let k := (x.xr sa).toNat
  let len := min (k / 2 ^ 40 % 32) 16
  let i := elem (vs.headD 0) w j / 2 ^ (k / 2 ^ 32 % 64) % 2 ^ len
  lutBase sa x + BitVec.ofNat 64 (i * (w / 8))

/-- VLD: 128 bytes, masked by byte (R195). -/
def execVld (r : Ring) (e : Bool) (vd : VReg) (sa sb : XReg) (sp : VSp) (s : State) : Host.Outcome State Fault Refusal :=
  issue .v r (vecLoad 8 (vspSpace sp) [] vd e 1 (vldMis sa sb) fun x _ j => vldEa sa sb x + BitVec.ofNat 64 j) s

/-- VST (R195). -/
def execVst (r : Ring) (vd : VReg) (sa sb : XReg) (sp : VSp) (s : State) : Host.Outcome State Fault Refusal :=
  issue .v r (vecStore 8 (vspSpace sp) [] vd 1 (vldMis sa sb) (fun x _ j => vldEa sa sb x + BitVec.ofNat 64 j)
    fun x _ _ => vldEa sa sb x) s

/-- VLDS (R195). -/
def execVlds (r : Ring) (t : Wd) (e : Bool) (vd : VReg) (sa sb : XReg) (sp : VSp) (s : State) :
    Host.Outcome State Fault Refusal :=
  issue .v r (vecLoad (wbits t) (vspSpace sp) [] vd e (vecOcc (wbits t)) (vldsMis (wbits t) sa sb) (vldsAt sa sb)) s

/-- VSTS (R195). -/
def execVsts (r : Ring) (t : Wd) (vd : VReg) (sa sb : XReg) (sp : VSp) (s : State) : Host.Outcome State Fault Refusal :=
  issue .v r (vecStore (wbits t) (vspSpace sp) [] vd (vecOcc (wbits t)) (vldsMis (wbits t) sa sb) (vldsAt sa sb)
    (vldsAt sa sb)) s

/-- VGATH (R195). -/
def execVgath (r : Ring) (t : Wd) (e : Bool) (vd va : VReg) (sa : XReg) (s : State) : Host.Outcome State Fault Refusal :=
  issue .v r (vecLoad (wbits t) .xb [va] vd e (vecOcc (wbits t)) (idxMis (wbits t) fun x => x.xr sa)
    (gathAt (wbits t) sa)) s

/-- VSCAT (R195). -/
def execVscat (r : Ring) (t : Wd) (vd va : VReg) (sa : XReg) (s : State) : Host.Outcome State Fault Refusal :=
  issue .v r (vecStore (wbits t) .xb [va] vd (vecOcc (wbits t)) (idxMis (wbits t) fun x => x.xr sa)
    (gathAt (wbits t) sa) (gathAt (wbits t) sa)) s

/-- VLUT (R197). -/
def execVlut (r : Ring) (t : Wd) (e : Bool) (vd va : VReg) (sa : XReg) (s : State) : Host.Outcome State Fault Refusal :=
  issue .v r (vecLoad (wbits t) .xb [va] vd e (vecOcc (wbits t)) (idxMis (wbits t) (lutBase sa))
    (lutAt (wbits t) sa)) s

end Sys2Proof.Machine
end

