-- ==== Sys2Proof/Machine/Xfer.lean ====
section
/-!
DEFINITION. Machine/Xfer.lean: the instructions that start engine commands: the X stream, and MNEST (R341 to R349, R355,
R363 to R365, R373 to R375).
-/
namespace Sys2Proof.Machine

/-! ### Field checks (R348, R349, R359 to R363) -/

/-- Source spaces of a command (R348, R360, R361). -/
def srcAllowed (k : CmdKind) (sp : Space) : Bool :=
  match k with
  | .mcast => [Space.ofs, .acs, .xb, .cr, .t1].contains sp
  | .strm => sp == .virt
  | _ => [Space.ofs, .acs, .xb, .cr, .t1, .t2, .t3, .t4, .virt].contains sp

/-- Destination spaces of a command (R348, R359, R360). -/
def dstAllowed (k : CmdKind) (sp : Space) : Bool :=
  match k with
  | .mcast => [Space.xb, .wb].contains sp
  | .acc => [Space.ofs, .xb, .t1, .t2, .t3, .t4, .virt].contains sp
  | _ => [Space.ofs, .wb, .xb, .sm, .cr, .t1, .t2, .t3, .t4, .virt].contains sp

/-- Formats of XACC's source (R359). -/
def accSrc (f : Option Fmt) : Bool :=
  match f with
  | some f => [Fmt.f32, .bf16, .f16, .e4m3, .e5m2].contains f
  | none => false

/-- Formats of XACC's destination (R359). -/
def accDst (f : Option Fmt) : Bool :=
  match f with
  | some f => [Fmt.f32, .bf16, .e4m3, .e5m2].contains f
  | none => false

/-- Formats of XSTRM's destination (R361). -/
def strmDst (f : Option Fmt) : Bool :=
  match f with
  | some f => [Fmt.f32, .bf16].contains f
  | none => false

/-- Whether CTL passes for a command (R346, R348). -/
def ctlOk (k : CmdKind) (b : BitVec 512) : Bool :=
  (match blkSspc b with
    | some sp => srcAllowed k sp && (sp == .virt || blkShi b == 0)
    | none => false) &&
  (match blkDspc b with
    | some sp => dstAllowed k sp && (sp == .virt || blkDhi b == 0)
    | none => false) &&
  (match k with
    | .acc => decide (blkRnd b ≤ 5) && (blkRnd b != 5 || (decide (8 ≤ blkSrk b) && decide (blkSrk b ≤ 23))) &&
        accSrc (fmtOf (blkSfmt b)) && accDst (fmtOf (blkDfmt b))
    | .strm => blkRnd b == 0 && blkSfmt b == 0 && strmDst (fmtOf (blkDfmt b)) && !blkSat b
    | _ => blkRnd b == 0 && blkSfmt b == 0 && blkDfmt b == 0 && !blkSat b) &&
  (match k with
    | .copy => decide (blkRepk b ≤ 3)
    | _ => blkRepk b == 0 && blkSmBase b == 0) &&
  blkCtl b / 2 ^ 17 % 2 == 0

/-- Whether TGT passes for a command of a core (R347, R360). -/
def tgtOk (k : CmdKind) (c : CoreId) (b : BitVec 512) : Bool :=
  blkTgt b / 2 ^ 60 % 8 == 0 && blkTgt b / 2 ^ 50 % 64 == 0 &&
  (match k with
    | .mcast => blkMc b != 0 && blkMc b / 2 ^ clusterPos c % 2 == 0
    | _ => blkMc b == 0)

/-- Required multiples of SRC with SSTR and of DST with DSTR (R356, R359, R361). -/
def blkAligns (k : CmdKind) (b : BitVec 512) : Nat × Nat :=
  let bytes := fun (f : Option Fmt) => match f with
    | some f => max 1 (f.width / 8)
    | none => 1
  match k with
  | .acc => (if accSrc (fmtOf (blkSfmt b)) then bytes (fmtOf (blkSfmt b)) else 1,
             if accDst (fmtOf (blkDfmt b)) then bytes (fmtOf (blkDfmt b)) else 1)
  | .strm => (65536, if strmDst (fmtOf (blkDfmt b)) then bytes (fmtOf (blkDfmt b)) else 1)
  | _ => (1, 1)

/-- The first field of a block that fails, with its offset (R349 step 3). -/
def blkFault (k : CmdKind) (c : CoreId) (b : BitVec 512) : Option (Cause × Nat) :=
  let (sa, da) := blkAligns k b
  if blkSrc b % sa ≠ 0 then some (.misaligned, 0x00)
  else if blkDst b % da ≠ 0 then some (.misaligned, 0x08)
  else if blkField b 0x10 4 % sa ≠ 0 then some (.misaligned, 0x10)
  else if blkField b 0x14 4 % da ≠ 0 then some (.misaligned, 0x14)
  else if k = .strm ∧ blkLen b ≠ 0 then some (.protection, 0x18)
  else if !ctlOk k b then some (.protection, 0x20)
  else if !tgtOk k c b then some (.protection, 0x28)
  else none

/-- The first instance extreme of a copy nest outside 0 to 2^64 − 1 (R373, R375). R345 leaves the CTR of another body than an
accumulation unchecked, R375 names the CTR of any instance: the model checks it for every body (log entry 153). -/
def copyExtreme (t b : BitVec 512) : Option Word :=
  ([(0, blkSrc b), (1, blkDst b), (2, blkCtr b)] : List (Nat × Nat)).findSome? fun p =>
    [false, true].findSome? fun top =>
      let v : Int := (p.2 : Int) + tabExtreme t p.1 top * (2 ^ tabUnit t p.1 : Nat)
      if v < 0 ∨ 2 ^ 64 ≤ v then some (nestWord p.1 (tabLevel t p.1 top) 5) else none

/-- The checks of a copy nest's table (R375). -/
def Ctx.copyNestFault (x : Ctx) (t b : BitVec 512) : Option Word :=
  if nd t 0 / 2 ^ 16 ≠ 0 ∨ nd t 0 / 2 ^ 6 % 2 ^ 9 ≠ 0 ∨ nd t 1 / 2 ^ 32 ≠ 0 ∨ nd t 1 % 2 ^ 8 ≠ 0 ∨
      (List.range 6).any (fun l => nd t (2 + l) % 2 ^ 13 != 0) then some (nestWord 0 15 2)
  else if tabGated t ∧ !(x.regs.has (tabEntry t)) then some (nestWord 0 15 4)
  else copyExtreme t b

/-! ### Enqueue (R341, R343, R349) -/

/-- The number behind bytes, as a block. -/
def blkOf (bs : List Byte) : BitVec 512 := BitVec.ofNat 512 (leNat bs)

/-- What an enqueuing instruction does with its block: the checks, then the command. -/
def enqueue (k : CmdKind) (nest : Bool) (ix : Option Nat) (r : Ring) (addr : Word) (bs : List Byte) (c : CoreId)
    (s : State) : Res :=
  let b := blkOf (bs.take 64)
  let t := blkOf (bs.drop 64)
  match blkFault k c b with
  | some (f, off) => .faultIn s f (addr + BitVec.ofNat 64 off) []
  | none =>
    match ix with
    | some i => if i % 4 ≠ 0 then .faultIn s .misaligned (BitVec.ofNat 64 i) [] else go b t s
    | none => go b t s
where
  go (b t : BitVec 512) (s : State) : Res :=
    match if nest then (s.ctx c).copyNestFault t b else none with
    | some w => .faultIn s .nestBounds w []
    | none =>
      let cmd : XCmd :=
        { kind := k, nest := if nest then some { tab := t, step := 0, opened := false, f0 := 0, waited := 0 } else none,
          blk := b, blkAddr := addr, ix := ix.getD 0, sp := r.sp, sn := r.sn, started := false, item := 0,
          finished := false, failed := false, owed := none, arrive := false, old := false }
      .ok { Done.plain (s.modCtx c fun x => { x with cmds := x.cmds ++ [cmd] }) with cmd := true }

/-- An instruction that enqueues a command with a parameter block (R343, R349). -/
def xIssue (k : CmdKind) (nest : Bool) (r : Ring) (pb : XReg) (pv : Bool) (ax : Option XReg) (c : CoreId) (s : State) : Res :=
  let x := s.ctx c
  let addr := x.xr pb
  let n := if nest then 128 else 64
  let ix := ax.map fun a => (x.xr a).toNat % 2 ^ 32
  if 16 ≤ x.cmds.length then .wait otherWait id
  else if addr.toNat % 64 ≠ 0 then .fault .misaligned addr []
  else if pv then
    ask .x (.blk (s.vaOf c addr) n) (fun s a =>
      match a with
      | .fault f w => .faultIn s f w []
      | .bytes bs => enqueue k nest ix r addr bs c s
      | _ => .ok (Done.plain s)) c s
  else
    let as := span addr.toNat n
    match s.badOf c 3 .cr as with
    | some q => .fault .uncorrectableData (BitVec.ofNat 64 q) []
    | none =>
      enqueue k nest ix r addr (s.localBytes c 3 .cr addr.toNat n) c (s.oorNote c .x .cr false (minOf (s.outOf c .cr as)))

/-- XCOPY (R356). -/
def execXcopy (r : Ring) (pb : XReg) (pv : Bool) (s : State) : Host.Outcome State Fault Refusal :=
  issue .x r (xIssue .copy false r pb pv none) s

/-- XNEST with an XCOPY body (R375). -/
def execXnestCopy (r : Ring) (pb : XReg) (pv : Bool) (s : State) : Host.Outcome State Fault Refusal :=
  issue .x r (xIssue .copy true r pb pv none) s

/-- XNEST with an XACC body (R375). -/
def execXnestAcc (r : Ring) (pb : XReg) (pv : Bool) (s : State) : Host.Outcome State Fault Refusal :=
  issue .x r (xIssue .acc true r pb pv none) s

/-- XNEST with an XMCAST body (R375). -/
def execXnestMcast (r : Ring) (pb : XReg) (pv : Bool) (s : State) : Host.Outcome State Fault Refusal :=
  issue .x r (xIssue .mcast true r pb pv none) s

/-- XNEST with an XSTRM body (R375). -/
def execXnestStrm (r : Ring) (pb : XReg) (pv : Bool) (s : State) : Host.Outcome State Fault Refusal :=
  issue .x r (xIssue .strm true r pb pv none) s

/-- XMCAST (R360). -/
def execXmcast (r : Ring) (pb : XReg) (pv : Bool) (s : State) : Host.Outcome State Fault Refusal :=
  issue .x r (xIssue .mcast false r pb pv none) s

/-- XACC (R359). -/
def execXacc (r : Ring) (pb : XReg) (pv : Bool) (s : State) : Host.Outcome State Fault Refusal :=
  issue .x r (xIssue .acc false r pb pv none) s

/-- XSTRM (R361). -/
def execXstrm (r : Ring) (pb : XReg) (pv : Bool) (s : State) : Host.Outcome State Fault Refusal :=
  issue .x r (xIssue .strm false r pb pv none) s

/-- XGATH (R363). -/
def execXgath (r : Ring) (pb ax : XReg) (pv : Bool) (s : State) : Host.Outcome State Fault Refusal :=
  issue .x r (xIssue .gath false r pb pv (some ax)) s

/-- XWAIT (R365). -/
def execXwait (r : Ring) (n : BitVec 5) (s : State) : Host.Outcome State Fault Refusal :=
  issue .x r (fun c s => if (s.ctx c).cmds.length ≤ n.toNat then .ok (Done.plain s) else .wait otherWait id) s

/-- XFENCE (R364): a command without items. -/
def fenceIssue (r : Ring) (c : CoreId) (s : State) : Res :=
  if 16 ≤ (s.ctx c).cmds.length then .wait otherWait id
  else
    let cmd : XCmd :=
      { kind := .fence, nest := none, blk := 0, blkAddr := 0, ix := 0, sp := r.sp, sn := r.sn, started := true, item := 0,
        finished := true, failed := false, owed := none, arrive := false, old := false }
    .ok { Done.plain (s.modCtx c fun x => { x with cmds := x.cmds ++ [cmd] }) with cmd := true }

/-- XFENCE (R364). -/
def execXfence (r : Ring) (s : State) : Host.Outcome State Fault Refusal := issue .x r (fenceIssue r) s

/-- PARAMETER_BLOCK_READ (R343): the block that a held X instruction asked for returns. -/
def execParameterBlockRead (core : CoreId) (s : State) : Host.Outcome State Fault Refusal :=
  .next (s.answer core .x)

/-! ### MNEST (R222, R373, R374) -/

/-- The body of a matrix nest: its form, and the register of its scalar (R214, R373). -/
def nestBody (w : Nat) : Option (MmaForm × XReg) :=
  let plain := fun (r : Ring) => !(r.wp || r.wn || r.sp || r.sn)
  match decodeWord .m w with
  | .ok (.mma r acc ta tb z wb) =>
    if plain r then some ({ kind := .plain, geo := 0, acc := acc, ta := ta, tb := tb, z := z, w := wb }, 0) else none
  | .ok (.mmai r acc ta tb z wb g sx) =>
    if plain r then some ({ kind := .group, geo := igeoCode g, acc := acc, ta := ta, tb := tb, z := z, w := wb }, sx) else none
  | .ok (.mmax r acc ta tb z wb g sx) =>
    if plain r then some ({ kind := .block, geo := xgeoCode g, acc := acc, ta := ta, tb := tb, z := z, w := wb }, sx) else none
  | _ => none

/-- The shadow table as one number (R366, R367). -/
def Ctx.shadowTab (x : Ctx) : BitVec 512 :=
  BitVec.ofNat 512 ((List.range 8).foldl (fun a i => a + (x.mn.getD i 0).toNat * 2 ^ (64 * i)) 0)

/-- Reserved fields of a matrix nest's table, and those that an MMA body must leave zero (R373 step 2). -/
def matReserved (t : BitVec 512) (kind : MmaKind) : Bool :=
  nd t 0 / 2 ^ 6 % 2 ^ 9 != 0 || nd t 1 % 2 ^ 8 != 0 ||
    (kind == .plain && (nd t 1 / 2 ^ 20 % 2 ^ 12 != 0 || (List.range 6).any fun l => tabStr t l 3 != 0))

/-- The part of the OF space in which n bytes lie: 0 local, 1 to 3 a granted window. -/
def State.ofPlace (s : State) (c : CoreId) (a : Int) (n : Nat) : Option Nat :=
  if a < 0 then none
  else if a.toNat + n ≤ (s.core c).inRange .ofs then some 0
  else match windowOf .ofs a.toNat with
    | some (i, o) => if (s.ctx c).granted i && decide (o + n ≤ 0x30000) then some (i + 1) else none
    | none => none

/-- The place of an operand's extent (R373 step 4). -/
def State.nestPlace (s : State) (c : CoreId) (sp : Space) (a : Int) (n : Nat) : Option Nat :=
  match sp with
  | .ofs => s.ofPlace c a n
  | .acs => if 0x40000 ≤ a ∧ a + n ≤ 0x40000 + (s.core c).inRange .acs then some 0 else none
  | _ => if 0 ≤ a ∧ a + n ≤ (s.core c).inRange .wb then some 0 else none

/-- The first operand extreme that leaves its place (R373 step 4). -/
def State.nestExtreme (s : State) (c : CoreId) (t : BitVec 512) (ops : List (Nat × Space × TView)) : Option Word :=
  ops.findSome? fun p =>
    let at' := fun top => (tabBase t p.1 : Int) + tabExtreme t p.1 top * (64 * 2 ^ tabUnit t p.1 : Nat)
    match s.nestPlace c p.2.1 (at' false) p.2.2.extent with
    | none => some (nestWord p.1 (tabLevel t p.1 false) 3)
    | some q =>
      if s.nestPlace c p.2.1 (at' true) p.2.2.extent = some q then none
      else some (nestWord p.1 (tabLevel t p.1 true) 3)

/-- The least (false) or greatest (true) offset of SABASE (0) or SBBASE (1) over all instances (R370). -/
def tabScaleExtreme (t : BitVec 512) (b : Nat) (top : Bool) : Int :=
  (List.range 6).foldl (fun (a : Int) (l : Nat) =>
    if tabSel t l b then a + (tabCnt t l : Int) * (if top then max 0 (tabStr t l 3) else min 0 (tabStr t l 3)) else a) 0

/-- LVL of a reported extreme of a scale base: the strides are the STR3 of the levels that SSEL selects (R373). -/
def tabScaleLevel (t : BitVec 512) (b : Nat) (top : Bool) : Nat :=
  ((List.range 6).find? fun l => decide (0 < tabCnt t l) && tabSel t l b &&
    (if top then decide (0 < tabStr t l 3) else decide (tabStr t l 3 < 0))).getD 15

/-- The first extreme of the scales, SABASE before SBBASE, that leaves the in-range SM (R373 step 4, log entry 54). Each entry
gives the base number, the base at the MNEST's issue and the bytes from it to the end of the last scale (R203). -/
def State.scaleExtreme (s : State) (c : CoreId) (t : BitVec 512) (ops : List (Nat × Nat × Nat)) : Option Word :=
  ops.findSome? fun p =>
    let out := fun top =>
      let a : Int := (p.2.1 : Int) + tabScaleExtreme t p.1 top
      decide (a < 0) || decide (((s.core c).inRange .sm : Int) < a + (p.2.2 : Int))
    if out false then some (nestWord 3 (tabScaleLevel t p.1 false) 3)
    else if out true then some (nestWord 3 (tabScaleLevel t p.1 true) 3)
    else none

/-- The scale operands of a body: the bytes that the scales of all rows and groups span (R203). -/
def scaleOps (j : MmaJob) (k : Scales) : List (Nat × Nat × Nat) :=
  let n := j.ng * geoScale j.geo
  match j.kind with
  | .plain => []
  | _ => [(0, k.sa, (j.a.rows - 1) * k.saPitch + n), (1, k.sb, (j.b.cols - 1) * k.sbPitch + n)]

/-- Whether SABASE and SBBASE of every instance are multiples of 4 (R373 step 3). -/
def scaleStepsAligned (t : BitVec 512) : Bool :=
  (List.range 6).all fun l =>
    tabCnt t l == 0 || tabStr t l 3 % 4 == 0 || !(tabSel t l 0 || tabSel t l 1)

/-- The slots of a stream after which every result that is now in flight has landed. -/
def Stream.drained (t : Stream) : Nat := if t.queue.isEmpty then 0 else t.queue.foldl (fun a l => max a l.left) 0 + 1

/-- MNEST (R222, R373, R374). -/
def mnestIssue (r : Ring) (c : CoreId) (s : State) : Res :=
  let x := s.ctx c
  let t := x.shadowTab
  if x.nestRuns then .wait otherWait id
  else match nestBody (nd t 1 / 2 ^ 32) with
    | none => .fault .nestBounds (nestWord 0 15 1) []
    | some (f, sx) =>
      if matReserved t f.kind then .fault .nestBounds (nestWord 0 15 2) []
      else match s.mmaOperands c f with
        | .error w => .fault .viewInvalid w []
        | .ok (a, b, v) =>
          let sc := match f.kind with
            | .group => x.xr sx
            | .block => x.xr (sx + 1)
            | .plain => 0
          let k := Scales.ofWord sc
          if f.kind = .group ∧ (!k.aligned ∨ !scaleStepsAligned t) then .fault .misaligned sc []
          else match s.nestExtreme c t [(0, .ofs, a), (1, if f.w then .wb else .ofs, b), (2, .acs, v)] with
            | some w => .fault .nestBounds w []
            | none =>
            match s.scaleExtreme c t (scaleOps (f.job a b v ((x.xr sx).setWidth 32) false) k) with
            | some w => .fault .nestBounds w []
            | none =>
              if tabGated t ∧ !(x.regs.has (tabEntry t)) then .fault .nestBounds (nestWord 0 15 4) []
              else
                let n : MNest :=
                  { tab := t, job := f.job a b v ((x.xr sx).setWidth 32) false, z := f.z, saBase := k.sa, saPitch := k.saPitch,
                    sbBase := k.sb, sbPitch := k.sbPitch, step := 0, f0 := x.firesNow t, waited := 0, sp := r.sp, sn := r.sn,
                    fail := none, ahead := x.strM.drained, seen := 0, old := false }
                .ok { Done.plain (s.setNest c (some n)) with cmd := true }

/-- MNEST (R222). -/
def execMnest (r : Ring) (s : State) : Host.Outcome State Fault Refusal := issue .m r (mnestIssue r) s

end Sys2Proof.Machine
end

