-- ==== Sys2Proof/Machine/Dispatch.lean ====
section
/-!
DEFINITION. Machine/Dispatch.lean: one arm per instruction or event; each calls its meaning.
-/
namespace Sys2Proof.Machine

/-- What each instruction or event does. -/
def exec (i : Instr) (s : State) : Host.Outcome State Fault Refusal :=
  match i with
  | .add r d a b => Sys2Proof.Machine.execAdd r d a b s
  | .sub r d a b => Sys2Proof.Machine.execSub r d a b s
  | .and r d a b => Sys2Proof.Machine.execAnd r d a b s
  | .or r d a b => Sys2Proof.Machine.execOr r d a b s
  | .xor r d a b => Sys2Proof.Machine.execXor r d a b s
  | .andn r d a b => Sys2Proof.Machine.execAndn r d a b s
  | .orn r d a b => Sys2Proof.Machine.execOrn r d a b s
  | .sll r d a b => Sys2Proof.Machine.execSll r d a b s
  | .srl r d a b => Sys2Proof.Machine.execSrl r d a b s
  | .sra r d a b => Sys2Proof.Machine.execSra r d a b s
  | .rol r d a b => Sys2Proof.Machine.execRol r d a b s
  | .ror r d a b => Sys2Proof.Machine.execRor r d a b s
  | .sel r d a b => Sys2Proof.Machine.execSel r d a b s
  | .min r d a b => Sys2Proof.Machine.execMin r d a b s
  | .max r d a b => Sys2Proof.Machine.execMax r d a b s
  | .minn r d a b => Sys2Proof.Machine.execMinn r d a b s
  | .mul r d a b => Sys2Proof.Machine.execMul r d a b s
  | .mulh r d a b => Sys2Proof.Machine.execMulh r d a b s
  | .mulhn r d a b => Sys2Proof.Machine.execMulhn r d a b s
  | .div r d a b => Sys2Proof.Machine.execDiv r d a b s
  | .divn r d a b => Sys2Proof.Machine.execDivn r d a b s
  | .rem r d a b => Sys2Proof.Machine.execRem r d a b s
  | .remn r d a b => Sys2Proof.Machine.execRemn r d a b s
  | .maxn r d a b => Sys2Proof.Machine.execMaxn r d a b s
  | .clz r d a => Sys2Proof.Machine.execClz r d a s
  | .ctz r d a => Sys2Proof.Machine.execCtz r d a s
  | .popc r d a => Sys2Proof.Machine.execPopc r d a s
  | .brev r d a => Sys2Proof.Machine.execBrev r d a s
  | .bswap r d a => Sys2Proof.Machine.execBswap r d a s
  | .sext r d a w1 => Sys2Proof.Machine.execSext r d a w1 s
  | .zext r d a w1 => Sys2Proof.Machine.execZext r d a w1 s
  | .addi r d a imm => Sys2Proof.Machine.execAddi r d a imm s
  | .andi r d a imm => Sys2Proof.Machine.execAndi r d a imm s
  | .ori r d a imm => Sys2Proof.Machine.execOri r d a imm s
  | .xori r d a imm => Sys2Proof.Machine.execXori r d a imm s
  | .muli r d a imm => Sys2Proof.Machine.execMuli r d a imm s
  | .slli r d a sh => Sys2Proof.Machine.execSlli r d a sh s
  | .srli r d a sh => Sys2Proof.Machine.execSrli r d a sh s
  | .srai r d a sh => Sys2Proof.Machine.execSrai r d a sh s
  | .rori r d a sh => Sys2Proof.Machine.execRori r d a sh s
  | .movi r d imm => Sys2Proof.Machine.execMovi r d imm s
  | .movk r d imm => Sys2Proof.Machine.execMovk r d imm s
  | .addpc r d imm => Sys2Proof.Machine.execAddpc r d imm s
  | .bfx r d a b => Sys2Proof.Machine.execBfx r d a b s
  | .bfxn r d a b => Sys2Proof.Machine.execBfxn r d a b s
  | .bfi r d a b => Sys2Proof.Machine.execBfi r d a b s
  | .fshl r d a b => Sys2Proof.Machine.execFshl r d a b s
  | .fshr r d a b => Sys2Proof.Machine.execFshr r d a b s
  | .cmp r pd cond a b => Sys2Proof.Machine.execCmp r pd cond a b s
  | .cmpAnd r pd cond a b => Sys2Proof.Machine.execCmpAnd r pd cond a b s
  | .cmpOr r pd cond a b => Sys2Proof.Machine.execCmpOr r pd cond a b s
  | .cmpi r pd cond a imm => Sys2Proof.Machine.execCmpi r pd cond a imm s
  | .pand r pd pa pb => Sys2Proof.Machine.execPand r pd pa pb s
  | .por r pd pa pb => Sys2Proof.Machine.execPor r pd pa pb s
  | .pxor r pd pa pb => Sys2Proof.Machine.execPxor r pd pa pb s
  | .pnot r pd pa => Sys2Proof.Machine.execPnot r pd pa s
  | .pmov r pd pa => Sys2Proof.Machine.execPmov r pd pa s
  | .br r p neg off => Sys2Proof.Machine.execBr r p neg off s
  | .jmp r off => Sys2Proof.Machine.execJmp r off s
  | .call r off => Sys2Proof.Machine.execCall r off s
  | .jr r a => Sys2Proof.Machine.execJr r a s
  | .jalr r d a => Sys2Proof.Machine.execJalr r d a s
  | .ret r => Sys2Proof.Machine.execRet r s
  | .loop r d imm => Sys2Proof.Machine.execLoop r d imm s
  | .nop r => Sys2Proof.Machine.execNop r s
  | .skip r p neg n => Sys2Proof.Machine.execSkip r p neg n s
  | .join r k => Sys2Proof.Machine.execJoin r k s
  | .exit r => Sys2Proof.Machine.execExit r s
  | .ld r d a sz sp off => Sys2Proof.Machine.execLd r d a sz sp off s
  | .st r d a sz sp off => Sys2Proof.Machine.execSt r d a sz sp off s
  | .ldx r d a b sz sp => Sys2Proof.Machine.execLdx r d a b sz sp s
  | .stx r d a b sz sp => Sys2Proof.Machine.execStx r d a b sz sp s
  | .pft r a sz sp off => Sys2Proof.Machine.execPft r a sz sp off s
  | .ldVm r d a sz off => Sys2Proof.Machine.execLdVm r d a sz off s
  | .stVm r d a sz off => Sys2Proof.Machine.execStVm r d a sz off s
  | .ldxVm r d a b sz => Sys2Proof.Machine.execLdxVm r d a b sz s
  | .stxVm r d a b sz => Sys2Proof.Machine.execStxVm r d a b sz s
  | .pftVm r a sz off => Sys2Proof.Machine.execPftVm r a sz off s
  | .amoAdd r d a b => Sys2Proof.Machine.execAmoAdd r d a b s
  | .amoAnd r d a b => Sys2Proof.Machine.execAmoAnd r d a b s
  | .amoOr r d a b => Sys2Proof.Machine.execAmoOr r d a b s
  | .amoXor r d a b => Sys2Proof.Machine.execAmoXor r d a b s
  | .amoMin r d a b => Sys2Proof.Machine.execAmoMin r d a b s
  | .amoMax r d a b => Sys2Proof.Machine.execAmoMax r d a b s
  | .amoMinn r d a b => Sys2Proof.Machine.execAmoMinn r d a b s
  | .amoMaxn r d a b => Sys2Proof.Machine.execAmoMaxn r d a b s
  | .amoSwap r d a b => Sys2Proof.Machine.execAmoSwap r d a b s
  | .cas r d a b => Sys2Proof.Machine.execCas r d a b s
  | .arm r d a b => Sys2Proof.Machine.execArm r d a b s
  | .arrv r d a b => Sys2Proof.Machine.execArrv r d a b s
  | .await r pd a b => Sys2Proof.Machine.execAwait r pd a b s
  | .bari r sp a b => Sys2Proof.Machine.execBari r sp a b s
  | .bara r sp a c1 drop => Sys2Proof.Machine.execBara r sp a c1 drop s
  | .barw r pd a b => Sys2Proof.Machine.execBarw r pd a b s
  | .seal r a => Sys2Proof.Machine.execSeal r a s
  | .unseal r a => Sys2Proof.Machine.execUnseal r a s
  | .fence r sc => Sys2Proof.Machine.execFence r sc s
  | .csrr r g csr => Sys2Proof.Machine.execCsrr r g csr s
  | .csrw r g csr => Sys2Proof.Machine.execCsrw r g csr s
  | .csrs r g csr => Sys2Proof.Machine.execCsrs r g csr s
  | .csrc r g csr => Sys2Proof.Machine.execCsrc r g csr s
  | .time r g => Sys2Proof.Machine.execTime r g s
  | .view r vd a => Sys2Proof.Machine.execView r vd a s
  | .tdesc r d a b => Sys2Proof.Machine.execTdesc r d a b s
  | .trap r code => Sys2Proof.Machine.execTrap r code s
  | .eret r => Sys2Proof.Machine.execEret r s
  | .token r dir n => Sys2Proof.Machine.execToken r dir n s
  | .twait r dir n => Sys2Proof.Machine.execTwait r dir n s
  | .launch r d a b => Sys2Proof.Machine.execLaunch r d a b s
  | .launchCr r d a b => Sys2Proof.Machine.execLaunchCr r d a b s
  | .cancelTask r d a b => Sys2Proof.Machine.execCancelTask r d a b s
  | .cancelLaunch r d a => Sys2Proof.Machine.execCancelLaunch r d a s
  | .cancelGraph r d a => Sys2Proof.Machine.execCancelGraph r d a s
  | .cancelPhase r d a => Sys2Proof.Machine.execCancelPhase r d a s
  | .cancelJob r d a => Sys2Proof.Machine.execCancelJob r d a s
  | .phase r d => Sys2Proof.Machine.execPhase r d s
  | .ckpt r d => Sys2Proof.Machine.execCkpt r d s
  | .estim r a => Sys2Proof.Machine.execEstim r a s
  | .clstep r d a b => Sys2Proof.Machine.execClstep r d a b s
  | .clwait r pd a b => Sys2Proof.Machine.execClwait r pd a b s
  | .mulw r d a b => Sys2Proof.Machine.execMulw r d a b s
  | .dictionaryCode e ix => Sys2Proof.Machine.execDictionaryCode e ix s
  | .vadd r t e vd va vb => Sys2Proof.Machine.execVadd r t e vd va vb s
  | .vsub r t e vd va vb => Sys2Proof.Machine.execVsub r t e vd va vb s
  | .vmul r t e vd va vb => Sys2Proof.Machine.execVmul r t e vd va vb s
  | .vmin r t e vd va vb => Sys2Proof.Machine.execVmin r t e vd va vb s
  | .vmax r t e vd va vb => Sys2Proof.Machine.execVmax r t e vd va vb s
  | .vdiv r t e vd va vb => Sys2Proof.Machine.execVdiv r t e vd va vb s
  | .vfmaF32F64 r vd e va vb vc t => Sys2Proof.Machine.execVfmaF32F64 r vd e va vb vc t s
  | .vfmaBf16F16 r vd e va vb vc t => Sys2Proof.Machine.execVfmaBf16F16 r vd e va vb vc t s
  | .vfmsF32F64 r vd e va vb vc t => Sys2Proof.Machine.execVfmsF32F64 r vd e va vb vc t s
  | .vfmsBf16F16 r vd e va vb vc t => Sys2Proof.Machine.execVfmsBf16F16 r vd e va vb vc t s
  | .vfnmaF32F64 r vd e va vb vc t => Sys2Proof.Machine.execVfnmaF32F64 r vd e va vb vc t s
  | .vfnmaBf16F16 r vd e va vb vc t => Sys2Proof.Machine.execVfnmaBf16F16 r vd e va vb vc t s
  | .vabs r t e vd va => Sys2Proof.Machine.execVabs r t e vd va s
  | .vneg r t e vd va => Sys2Proof.Machine.execVneg r t e vd va s
  | .vsqrt r t e vd va => Sys2Proof.Machine.execVsqrt r t e vd va s
  | .vrcp r t e vd va => Sys2Proof.Machine.execVrcp r t e vd va s
  | .vrsq r t e vd va => Sys2Proof.Machine.execVrsq r t e vd va s
  | .vexp2 r t e vd va => Sys2Proof.Machine.execVexp2 r t e vd va s
  | .vlog2 r t e vd va => Sys2Proof.Machine.execVlog2 r t e vd va s
  | .vscale r t e vd va vb => Sys2Proof.Machine.execVscale r t e vd va vb s
  | .vand r e vd va vb => Sys2Proof.Machine.execVand r e vd va vb s
  | .vor r e vd va vb => Sys2Proof.Machine.execVor r e vd va vb s
  | .vxor r e vd va vb => Sys2Proof.Machine.execVxor r e vd va vb s
  | .vsll r t e vd va vb => Sys2Proof.Machine.execVsll r t e vd va vb s
  | .vsrl r t e vd va vb => Sys2Proof.Machine.execVsrl r t e vd va vb s
  | .vsra r t e vd va vb => Sys2Proof.Machine.execVsra r t e vd va vb s
  | .vmulh r t e vd va vb => Sys2Proof.Machine.execVmulh r t e vd va vb s
  | .vadds r t e vd va vb => Sys2Proof.Machine.execVadds r t e vd va vb s
  | .vsubs r t e vd va vb => Sys2Proof.Machine.execVsubs r t e vd va vb s
  | .vcmp r md cond va vb t => Sys2Proof.Machine.execVcmp r md cond va vb t s
  | .vsel r e vd va vb => Sys2Proof.Machine.execVsel r e vd va vb s
  | .vclass r md va set t => Sys2Proof.Machine.execVclass r md va set t s
  | .vcvt r vd vp e fs fd => Sys2Proof.Machine.execVcvt r vd vp e fs fd s
  | .vpack r vd vp e fs fd => Sys2Proof.Machine.execVpack r vd vp e fs fd s
  | .vunpk r vd vp fs fd => Sys2Proof.Machine.execVunpk r vd vp fs fd s
  | .vmov r e vd va => Sys2Proof.Machine.execVmov r e vd va s
  | .vbcast r t e vd sx => Sys2Proof.Machine.execVbcast r t e vd sx s
  | .vext r t sd va sx => Sys2Proof.Machine.execVext r t sd va sx s
  | .vins r t e vd va sx => Sys2Proof.Machine.execVins r t e vd va sx s
  | .vperm r t e vd va vb => Sys2Proof.Machine.execVperm r t e vd va vb s
  | .vrotDn r t e vd va sx => Sys2Proof.Machine.execVrotDn r t e vd va sx s
  | .vrotUp r t e vd va sx => Sys2Proof.Machine.execVrotUp r t e vd va sx s
  | .vslideDn r t e vd va sx => Sys2Proof.Machine.execVslideDn r t e vd va sx s
  | .vslideUp r t e vd va sx => Sys2Proof.Machine.execVslideUp r t e vd va sx s
  | .vredSum r t e vd va => Sys2Proof.Machine.execVredSum r t e vd va s
  | .vredMin r t e vd va => Sys2Proof.Machine.execVredMin r t e vd va s
  | .vredMax r t e vd va => Sys2Proof.Machine.execVredMax r t e vd va s
  | .vscanSum r t e vd va => Sys2Proof.Machine.execVscanSum r t e vd va s
  | .vscanMin r t e vd va => Sys2Proof.Machine.execVscanMin r t e vd va s
  | .vscanMax r t e vd va => Sys2Proof.Machine.execVscanMax r t e vd va s
  | .vld r e vd sa sb sp => Sys2Proof.Machine.execVld r e vd sa sb sp s
  | .vst r vd sa sb sp => Sys2Proof.Machine.execVst r vd sa sb sp s
  | .vlds r t e vd sa sb sp => Sys2Proof.Machine.execVlds r t e vd sa sb sp s
  | .vsts r t vd sa sb sp => Sys2Proof.Machine.execVsts r t vd sa sb sp s
  | .vgath r t e vd va sa => Sys2Proof.Machine.execVgath r t e vd va sa s
  | .vscat r t vd va sa => Sys2Proof.Machine.execVscat r t vd va sa s
  | .vlut r t e vd va sa => Sys2Proof.Machine.execVlut r t e vd va sa s
  | .vbfx r t e vd va vb => Sys2Proof.Machine.execVbfx r t e vd va vb s
  | .vfsh r t e vd va vb => Sys2Proof.Machine.execVfsh r t e vd va vb s
  | .vpopc r t e vd va => Sys2Proof.Machine.execVpopc r t e vd va s
  | .vclz r t e vd va => Sys2Proof.Machine.execVclz r t e vd va s
  | .vqnt r t e vd va sx g => Sys2Proof.Machine.execVqnt r t e vd va sx g s
  | .vdqnt r t e vd va sx g => Sys2Proof.Machine.execVdqnt r t e vd va sx g s
  | .vmsel r mk => Sys2Proof.Machine.execVmsel r mk s
  | .vnop r => Sys2Proof.Machine.execVnop r s
  | .vJoin r k => Sys2Proof.Machine.execVJoin r k s
  | .vExit r => Sys2Proof.Machine.execVExit r s
  | .mma r acc ta tb z w => Sys2Proof.Machine.execMma r acc ta tb z w s
  | .mmai r acc ta tb z w g sx => Sys2Proof.Machine.execMmai r acc ta tb z w g sx s
  | .mmax r acc ta tb z w g sx => Sys2Proof.Machine.execMmax r acc ta tb z w g sx s
  | .aclr r x => Sys2Proof.Machine.execAclr r x s
  | .aadd r x y z => Sys2Proof.Machine.execAadd r x y z s
  | .ald r x y => Sys2Proof.Machine.execAld r x y s
  | .ast r x y tr => Sys2Proof.Machine.execAst r x y tr s
  | .acvt r x y sat scl sx => Sys2Proof.Machine.execAcvt r x y sat scl sx s
  | .tld r x sx => Sys2Proof.Machine.execTld r x sx s
  | .tst r x y sat => Sys2Proof.Machine.execTst r x y sat s
  | .ttr r x y => Sys2Proof.Machine.execTtr r x y s
  | .trepk r x y => Sys2Proof.Machine.execTrepk r x y s
  | .trepkPk r x y => Sys2Proof.Machine.execTrepkPk r x y s
  | .mnest r => Sys2Proof.Machine.execMnest r s
  | .mwait r => Sys2Proof.Machine.execMwait r s
  | .mstat r => Sys2Proof.Machine.execMstat r s
  | .mstatClr r => Sys2Proof.Machine.execMstatClr r s
  | .mnop r => Sys2Proof.Machine.execMnop r s
  | .mJoin r k => Sys2Proof.Machine.execMJoin r k s
  | .mExit r => Sys2Proof.Machine.execMExit r s
  | .xcopy r pb pv => Sys2Proof.Machine.execXcopy r pb pv s
  | .xnestCopy r pb pv => Sys2Proof.Machine.execXnestCopy r pb pv s
  | .xnestAcc r pb pv => Sys2Proof.Machine.execXnestAcc r pb pv s
  | .xnestMcast r pb pv => Sys2Proof.Machine.execXnestMcast r pb pv s
  | .xnestStrm r pb pv => Sys2Proof.Machine.execXnestStrm r pb pv s
  | .xmcast r pb pv => Sys2Proof.Machine.execXmcast r pb pv s
  | .xacc r pb pv => Sys2Proof.Machine.execXacc r pb pv s
  | .xstrm r pb pv => Sys2Proof.Machine.execXstrm r pb pv s
  | .xgath r pb ax pv => Sys2Proof.Machine.execXgath r pb ax pv s
  | .xwait r n => Sys2Proof.Machine.execXwait r n s
  | .xfence r => Sys2Proof.Machine.execXfence r s
  | .xnop r => Sys2Proof.Machine.execXnop r s
  | .xJoin r k => Sys2Proof.Machine.execXJoin r k s
  | .xExit r => Sys2Proof.Machine.execXExit r s
  | .resultLanding core e => Sys2Proof.Machine.execResultLanding core e s
  | .accumulatorRead core => Sys2Proof.Machine.execAccumulatorRead core s
  | .ringTimeout core e => Sys2Proof.Machine.execRingTimeout core e s
  | .handlerEntry core => Sys2Proof.Machine.execHandlerEntry core s
  | .frozenTaskReport core => Sys2Proof.Machine.execFrozenTaskReport core s
  | .deferredFaultDelivery core e => Sys2Proof.Machine.execDeferredFaultDelivery core e s
  | .taskEnd core => Sys2Proof.Machine.execTaskEnd core s
  | .launchAcceptance core => Sys2Proof.Machine.execLaunchAcceptance core s
  | .placement core lid tidx budget => Sys2Proof.Machine.execPlacement core lid tidx budget s
  | .ageLevelRise lid tidx => Sys2Proof.Machine.execAgeLevelRise lid tidx s
  | .preload core => Sys2Proof.Machine.execPreload core s
  | .withdrawal core => Sys2Proof.Machine.execWithdrawal core s
  | .bindCommit core => Sys2Proof.Machine.execBindCommit core s
  | .lateStart lid tidx => Sys2Proof.Machine.execLateStart lid tidx s
  | .governorWindow core mw => Sys2Proof.Machine.execGovernorWindow core mw s
  | .phaseBoundary ctr => Sys2Proof.Machine.execPhaseBoundary ctr s
  | .phaseWatchdog core => Sys2Proof.Machine.execPhaseWatchdog core s
  | .cancelRelease core => Sys2Proof.Machine.execCancelRelease core s
  | .homeAtomic core => Sys2Proof.Machine.execHomeAtomic core s
  | .barwBoundExpiry core => Sys2Proof.Machine.execBarwBoundExpiry core s
  | .homeControllerAnswer core e => Sys2Proof.Machine.execHomeControllerAnswer core e s
  | .storePerformed core => Sys2Proof.Machine.execStorePerformed core s
  | .regionCount die idx => Sys2Proof.Machine.execRegionCount die idx s
  | .rearmRefire die idx => Sys2Proof.Machine.execRearmRefire die idx s
  | .awaitBoundExpiry core => Sys2Proof.Machine.execAwaitBoundExpiry core s
  | .generationBump asid => Sys2Proof.Machine.execGenerationBump asid s
  | .requestReplay core e => Sys2Proof.Machine.execRequestReplay core e s
  | .sweepComplete asid => Sys2Proof.Machine.execSweepComplete asid s
  | .sealComplete core => Sys2Proof.Machine.execSealComplete core s
  | .unsealComplete core => Sys2Proof.Machine.execUnsealComplete core s
  | .replicaPlacement die idx lvl tdie => Sys2Proof.Machine.execReplicaPlacement die idx lvl tdie s
  | .bankMarkFailing die lvl bank => Sys2Proof.Machine.execBankMarkFailing die lvl bank s
  | .layerFailureNoSpare die lvl bank => Sys2Proof.Machine.execLayerFailureNoSpare die lvl bank s
  | .recoveryPoint die lvl => Sys2Proof.Machine.execRecoveryPoint die lvl s
  | .shedComplete die lvl => Sys2Proof.Machine.execShedComplete die lvl s
  | .patrolScrub die lvl word => Sys2Proof.Machine.execPatrolScrub die lvl word s
  | .parameterBlockRead core => Sys2Proof.Machine.execParameterBlockRead core s
  | .commandStart core => Sys2Proof.Machine.execCommandStart core s
  | .itemPerformed core slot => Sys2Proof.Machine.execItemPerformed core slot s
  | .commandComplete core slot => Sys2Proof.Machine.execCommandComplete core slot s
  | .itemFailure core slot => Sys2Proof.Machine.execItemFailure core slot s
  | .errorRecordDrain q => Sys2Proof.Machine.execErrorRecordDrain q s
  | .nestStepStart core => Sys2Proof.Machine.execNestStepStart core s
  | .nestStepWatchdog core => Sys2Proof.Machine.execNestStepWatchdog core s
  | .nestComplete core => Sys2Proof.Machine.execNestComplete core s
  | .preemptionChoice core lid tidx => Sys2Proof.Machine.execPreemptionChoice core lid tidx s
  | .checkpointSettle core => Sys2Proof.Machine.execCheckpointSettle core s
  | .checkpointWrite core => Sys2Proof.Machine.execCheckpointWrite core s
  | .saveFaultService core served => Sys2Proof.Machine.execSaveFaultService core served s
  | .checkpointRelease core => Sys2Proof.Machine.execCheckpointRelease core s
  | .hangWatchdog core => Sys2Proof.Machine.execHangWatchdog core s
  | .emergencyCopy lid tidx => Sys2Proof.Machine.execEmergencyCopy lid tidx s
  | .restore core => Sys2Proof.Machine.execRestore core s
  | .killAndRerun core => Sys2Proof.Machine.execKillAndRerun core s
  | .budgetOverrun core => Sys2Proof.Machine.execBudgetOverrun core s
  | .coreSelfCheckFailure core => Sys2Proof.Machine.execCoreSelfCheckFailure core s
  | .regrow core => Sys2Proof.Machine.execRegrow core s
  | .packageReset => Sys2Proof.Machine.execPackageReset s
  | .packageFreeze => Sys2Proof.Machine.execPackageFreeze s
  | .freeze h => Sys2Proof.Machine.execFreeze h s
  | .freezeResume => Sys2Proof.Machine.execFreezeResume s
  | .ptpEventFrame port offset rate => Sys2Proof.Machine.execPtpEventFrame port offset rate s
  | .linkTrainingDone port => Sys2Proof.Machine.execLinkTrainingDone port s
  | .linkLoss port => Sys2Proof.Machine.execLinkLoss port s
  | .frameReceive port bytes fcsOk => Sys2Proof.Machine.execFrameReceive port bytes fcsOk s
  | .fabricPacketReceive p => Sys2Proof.Machine.execFabricPacketReceive p s
  | .fabricAck id cause => Sys2Proof.Machine.execFabricAck id cause s
  | .linkTimeout id => Sys2Proof.Machine.execLinkTimeout id s
  | .collectiveStepStart core => Sys2Proof.Machine.execCollectiveStepStart core s
  | .collectiveStepComplete core => Sys2Proof.Machine.execCollectiveStepComplete core s
  | .clwaitBoundExpiry core => Sys2Proof.Machine.execClwaitBoundExpiry core s
  | .toclLaunch h q pkt => Sys2Proof.Machine.execToclLaunch h q pkt s
  | .toclCancel h lvl id tidx => Sys2Proof.Machine.execToclCancel h lvl id tidx s
  | .toclWrite h va bytes => Sys2Proof.Machine.execToclWrite h va bytes s
  | .toclRead h va len => Sys2Proof.Machine.execToclRead h va len s
  | .regionCreate h die idx w0 w1 w2 w3 w4 => Sys2Proof.Machine.execRegionCreate h die idx w0 w1 w2 w3 w4 s
  | .regionDestroy h die idx => Sys2Proof.Machine.execRegionDestroy h die idx s
  | .regionRead h die idx => Sys2Proof.Machine.execRegionRead h die idx s
  | .counterSet h kind n target clk => Sys2Proof.Machine.execCounterSet h kind n target clk s
  | .sessionBind h n asid unbind => Sys2Proof.Machine.execSessionBind h n asid unbind s
  | .regRead h num => Sys2Proof.Machine.execRegRead h num s
  | .regWrite h num v => Sys2Proof.Machine.execRegWrite h num v s
  | .groupSet h g asid devs rank => Sys2Proof.Machine.execGroupSet h g asid devs rank s
  | .ingestSet h q w0 w1 w2 => Sys2Proof.Machine.execIngestSet h q w0 w1 w2 s
  | .portSet h port v => Sys2Proof.Machine.execPortSet h port v s
  | .ruleSet h port rule v => Sys2Proof.Machine.execRuleSet h port rule v s
  | .routeSet h dev port => Sys2Proof.Machine.execRouteSet h dev port s
  | .queueSet h q level asid base k cons => Sys2Proof.Machine.execQueueSet h q level asid base k cons s
  | .saveSet h asid base size => Sys2Proof.Machine.execSaveSet h asid base size s
  | .subSet h n w0 w1 w2 w3 w4 => Sys2Proof.Machine.execSubSet h n w0 w1 w2 w3 w4 s
  | .trimSet island mv => Sys2Proof.Machine.execTrimSet island mv s
  | .clkSet req => Sys2Proof.Machine.execClkSet req s
  | .attest h nonce => Sys2Proof.Machine.execAttest h nonce s
  | .fwStage h r => Sys2Proof.Machine.execFwStage h r s
  | .fwCommit h => Sys2Proof.Machine.execFwCommit h s
  | .handoverReady => Sys2Proof.Machine.execHandoverReady s
  | .handoverTimeout => Sys2Proof.Machine.execHandoverTimeout s
  | .sensorSample n v => Sys2Proof.Machine.execSensorSample n v s
  | .holdTimerExpiry core => Sys2Proof.Machine.execHoldTimerExpiry core s
  | .wakeRequest core => Sys2Proof.Machine.execWakeRequest core s
  | .wakeAdmit die => Sys2Proof.Machine.execWakeAdmit die s
  | .wakeRampDone core parityOk => Sys2Proof.Machine.execWakeRampDone core parityOk s
  | .encodingFault core e => Sys2Proof.Machine.execEncodingFault core e s
  | .instructionFetchFault core e => Sys2Proof.Machine.execInstructionFetchFault core e s
  | .parkedRecordWrite die ix core rec => Sys2Proof.Machine.execParkedRecordWrite die ix core rec s

end Sys2Proof.Machine
end

