-- ==== Sys2Proof/Machine/Turn.lean ====
section
/-!
DEFINITION. Machine/Turn.lean: what a stream and the engines of a core do in a cycle, and which offered events may happen.
-/
namespace Sys2Proof.Machine

/-- The instruction that a stream comes up with: the held word or code, decoded and executed (R65, R69, R88). -/
def State.comeUp (s : State) (c : CoreId) (e : Strm) (h : Held) : Host.Outcome State Fault Refusal :=
  match decodeWord e ((s.ctx c).heldWord h).toNat with
  | .error _ => execEncodingFault c e s
  | .ok i => exec i s

/-- The attempt of a live stream that may issue in this cycle. A word is fetched whole before any of its waits: a fetch fault of its
second parcel is taken at once, also where the first parcel names a token that has not come (R67; log entry 153). -/
def State.tryIssue (s : State) (c : CoreId) (e : Strm) : Host.Outcome State Fault Refusal :=
  match ((s.ctx c).str e).held with
  | some h => s.comeUp c e h
  | none =>
    match s.fetch c e with
    | .error _ => execInstructionFetchFault c e s
    | .ok (.code i) => execDictionaryCode e i s
    | .ok h => (s.hold c e h).comeUp c e h

/-- A C instruction whose request has been sent completes before its core stops (R393): it issues once it is answered;
one that is answered with a fault issues again after the resume. -/
def State.settleTurn (s : State) (c : CoreId) : Host.Outcome State Fault Refusal :=
  let t := (s.ctx c).strC
  let faulted := match t.sent with
    | some q =>
      match q.ans with
      | some (.fault _ _) => true
      | _ => false
    | none => false
  if faulted && (s.core c).frz.isSome then .next (s.modStr c .c fun t => { t with sent := none })
  else match t.held with
    | some h => s.comeUp c .c h
    | none => .next s

/-- A stream's turn (R45, R47, R48, R116, R136, R251, R351, R393). A deferred fault ends the back-pressure of a FENCE (R351). -/
def State.strmTurn (s : State) (c : CoreId) (e : Strm) : Host.Outcome State Fault Refusal :=
  let k := s.core c
  let t := k.ctx.str e
  if s.idleTurn c e then .next (s.landingTurn c e)
  else
    let s := { s with sched := s.sched.drop 1, cur := c }
    if k.govHolds e s.cycle then .next (if s.runs c e then s.heldWait c e else s)
    else if !(s.runs c e) then .next s
    else if e == .c && !(k.free && k.saveLets .c) then s.settleTurn c
    else if t.dfault.isSome && !k.ctx.te && t.skip == 0 then execDeferredFaultDelivery c e s
    else if t.fence && !k.pend.isEmpty then .next s
    else
      let s := s.modStr c e fun t => { t with fence := false }
      if t.skip ≠ 0 then .next (s.annul c e) else s.tryIssue c e

/-- A borrower whose turn has written into the window of a failed lender freezes; the bytes stand in the lender's storage, from
which they are saved where they hold their parity (R420). -/
def State.windowHook (s : State) (c : CoreId) : State :=
  if (List.range 3).any fun i =>
      (s.ctx c).granted i && (s.core (lenderCore c i)).dead && !(s.core (lenderCore c i)).wlog.isEmpty then
    s.freezeCore c .coreFrozen
  else s

/-- What follows a turn of a core: a fault withdraws the record of its next slot (R246), and a write into a failed lender
freezes the borrower (R420). -/
def State.afterTurn (old s : State) (c : CoreId) : State :=
  let k0 := old.core c
  let k := s.core c
  let s1 := if (!k0.ctx.te && k.ctx.te) || (k0.frz.isNone && k.frz.isSome) then s.withdraw c else s
  if k.ctx.lend = 0 then s1 else s1.windowHook c

/-- A turn of a stream with what follows it. -/
def State.streamStep (s : State) (c : CoreId) (e : Strm) : Host.Outcome State Fault Refusal :=
  match s.strmTurn c e with
  | .next s1 => .next (s.afterTurn s1 c)
  | .fault f => .fault f
  | .refused r => .refused r

/-- The turn of the engines of a core. -/
def State.engineStep (s : State) (c : CoreId) : State :=
  let s := { s with sched := s.sched.drop 1, cur := c }
  s.afterTurn ((s.engineTurn c).collTurn c) c

/-! ### Offered events -/

/-- The messages of the host over TOCL. -/
def isToc (i : Instr) : Bool := (tocOf i).isSome

/-- The requests of the host that only read, which a frozen package answers too (R422). -/
def readsOut (i : Instr) : Bool :=
  match i with
  | .toclRead .. => true
  | .regionRead .. => true
  | .regRead .. => true
  | _ => false

/-- The requests that are no management commands (R453). -/
def isDataReq (i : Instr) : Bool :=
  match i with
  | .freeze .. => true
  | .toclLaunch .. => true
  | .toclCancel .. => true
  | .toclWrite .. => true
  | .toclRead .. => true
  | _ => false

/-- Whether a request of the host is held: an earlier one of its session is still to come or to be answered, or it is a management
command in a quiescent point (R453, R479). -/
def State.tocWaits (s : State) (i : Instr) : Bool :=
  match tocOf i with
  | none => false
  | some h =>
    s.bootOk && (match s.seqOf h with
      | none => false
      | some q => (h.seq != q && !(h.seq - q).msb) ||
          (h.seq == q && (s.tocBusy h.sess || (!isDataReq i && s.fwStage != .idle))))

/-- Whether an offered event may happen: a frozen package is only read out, resumed or reset (R422), one that has failed to boot
only answers the host (R475). An instruction of a stream is no event. -/
def State.mayHappen (s : State) (i : Instr) : Bool :=
  match i with
  | .packageReset => true
  | .freezeResume => s.frozen
  | i => (!s.frozen || readsOut i) && (s.bootOk || isToc i) && (encode i).isNone

/-- What follows an event: on each core, what follows a turn of it (R246, R420). -/
def State.afterEvent (old s : State) : State := (s.cores.map (·.1)).foldl (fun t c => old.afterTurn t (BitVec.ofNat 9 c)) s

/-- An event that Botra, the host or the environment has offered, with what follows it; a request of the host may have to wait
(R453, R479). -/
def State.offered (s : State) (i : Instr) : Host.Outcome State Fault Refusal :=
  if s.mayHappen i then
    if s.tocWaits i then .next { s with tocHeld := if s.tocHeld.contains i then s.tocHeld else s.tocHeld ++ [i] }
    else match exec i s with
      | .next t => .next (s.afterEvent t)
      | o => o
  else .next s

/-- A held request that waits no longer is acted on. -/
def State.tryHeld (s : State) (i : Instr) : State :=
  if s.tocWaits i then s
  else match exec i { s with tocHeld := s.tocHeld.filter fun j => j != i } with
    | .next t => t
    | _ => s

/-- Every held request, in the order of their coming. -/
def State.heldReqs (s : State) : State := s.tocHeld.foldl State.tryHeld s

end Sys2Proof.Machine
end

