-- ==== Sys2Proof/Machine/Tick.lean ====
section
/-!
DEFINITION. Machine/Tick.lean: the end of a cycle: time moves on, writes of the cycle are performed and counted, and
everything that the hardware does by itself takes place (R28, R53, R243, R257, R290, R300, R434 and the rules of each part).
-/
namespace Sys2Proof.Machine

/-- What a cycle adds to DEVTIME, in 2^-32 ns (R434): 10 × 2^32 ÷ (f in 100 MHz), trimmed by RATE. -/
def Mgmt.tickUnits (m : Mgmt) : Nat := (10 * 2 ^ 32 * (10 ^ 9 + m.devRate.toInt) / ((m.clkCur.toNat : Int) * 10 ^ 9)).toNat

/-- CYCLE and DEVTIME move on (R56, R434). -/
def State.advance (s : State) : State :=
  let t := s.devTime.toNat * 2 ^ 32 + s.devFrac.toNat + s.mgmt.tickUnits
  { s with cycle := s.cycle + 1, devTime := BitVec.ofNat 64 (t / 2 ^ 32), devFrac := BitVec.ofNat 32 t
           mgmt := { s.mgmt with clkNow := false } }

/-- The cores that have something to do, by number. -/
def State.listed (s : State) : List CoreId := s.cores.map fun e => BitVec.ofNat 9 e.1

/-- Do the same for each of some cores. -/
def State.each (s : State) (l : List CoreId) (f : State → CoreId → State) : State := l.foldl f s

/-- What a write of the cycle does to the tag of its page (R286). -/
def XTag.apply (t : FMap XTag) (o : Nat × Nat × Option XTag) : FMap XTag :=
  match o.2.2 with
  | some g => t.set o.2.1 g
  | none => t.del o.2.1

/-- Tokens deposited in the cycle can be consumed now, its out-of-range record stands, and page tags are as its writes leave them
(R28, R53, R60, R286). -/
def Ctx.newCycle (x : Ctx) : Ctx :=
  { x with tags := writeOrder.foldl (fun t g => (x.tagOps.filter (·.1 == g)).foldl XTag.apply t) x.tags, tagOps := [], vLanded := [], tok := x.fresh.foldl (fun (m : FMap Nat) q => m.put q.1 (m.getD q.1 0 + q.2) 0) x.tok, fresh := [], oorFresh := false, oorNow := none, vNow := 0, mNow := 0, firedNow := [] }

/-- The writes of the cycle reach a core's buffers, and its tokens are settled (R28, R53). -/
def State.coreCycle (s : State) (c : CoreId) : State :=
  s.modCore c fun k =>
    let k1 := k.applyLog
    { k1 with ctx := k1.ctx.newCycle }

/-- The entries of a core that may fire again. -/
def State.refireCores (s : State) (c : CoreId) : State := ((s.ctx c).regs.map (·.1)).foldl (fun s i => s.refireCore c i) s

/-- The controllers' part of a cycle, at its end and so after its ARMs: accepted stores are performed, writes counted, those of
streams first, for which there was room when they were accepted, and acknowledged; then comes the firing test of the entries that
have not yet fired in the cycle (R290, R297 to R300, R302). -/
def State.homes (s : State) (l : List CoreId) : State :=
  let s1 := if s.memHold then s else s.each l State.performStores
  let due := s1.counts.filter CountMsg.kept ++ s1.counts.filter fun m => !m.kept
  let s2 := (due.foldl State.countDie { s1 with counts := [] }).retireAcks
  let s3 := (s2.regions.map (·.1)).foldl (fun s i => s.refireDie i) s2
  { s3.each l State.refireCores with refire := [] }

/-- A frozen core gives the record of its next slot back (R246). -/
def State.frozenGivesBack (s : State) (c : CoreId) : State := if (s.core c).frz.isSome then s.withdraw c else s

/-- What the hardware of a core does by itself between two cycles: a stop settles, a task ends, a save or a restore goes
on. -/
def State.coreSelf (s : State) (c : CoreId) : State :=
  ((((((((((s.settle c).frozenGivesBack c).frozenReport c).saveSettle c).saveStep c).hangCheck c).restoreStep c).killEnds
    c).cancelEnds c).taskEnd c).budgetCheck c

/-- Commit the record of a core's next slot (R243). -/
def State.commitTurn (s : State) (c : CoreId) : State := if s.commitOk c then s.commit c else s

/-- The cores that a commit needs which lacks nothing but power (R472). -/
def State.needs (s : State) (c : CoreId) : List CoreId :=
  if s.commitReady c then
    match (s.core c).next with
    | some b => c :: b.lenders c
    | none => []
  else []

/-- Wake the cores that commits need, a core that is held among them, in the order of their numbers (R472, R473). -/
def State.wakeNeeded (s : State) (l : List CoreId) : State :=
  let ks : FMap Unit := ((l.map s.needs).flatten).foldl (fun m k => m.set k.toNat ()) []
  ks.foldl (fun s k => s.wake (BitVec.ofNat 9 k.1) s.cycle.toNat) s

/-- Power: ramps end, and the arbiter of a die admits while it has places (R472, R473). -/
def State.powerSelf (s : State) (l : List CoreId) : State :=
  let s1 := s.each l State.wakeDone
  let s2 := (List.range 4).foldl (fun s d => (s.arbiter.getD d []).foldl (fun s _ => s.admitWake d) s) s1
  s2.each l State.holdStart

/-- Packets that have credit leave; those whose acknowledgement is late fail their steps (R444, R446). -/
def State.linkLate (s : State) : State :=
  s.sendDue.outPkts.foldl (fun s p =>
    if p.sent && decide (p.sentNs + s.linkNs ≤ s.devTime.toNat) then s.stepFail p.core p.handle p.step (.watchdog, 0) else s) s.sendDue

/-- What the package does by itself between two cycles. -/
def State.selfActs (s : State) : State :=
  let l := s.listed
  let s1 := s.each l State.coreSelf
  let s2 := ((s1.movesParked s1.parkedGo).lateTasks.closeTasks).cancelAnswers
  let s3 := (s2.phases.map (·.1)).foldl (fun s n => s.phaseBoundary n) s2
  let s4 := ((s3.listed).foldl State.commitTurn s3).wakeNeeded s3.listed
  let s5 := (s4.powerSelf s4.listed).linkLate.handoverLate
  let s6 := (s5.layers.map (·.1)).foldl (fun s n => s.shedSweep n) s5
  let s7 := (s6.queues.map (·.1)).foldl (fun s q => s.drainQueue q) s6
  ((s7.homeQ.map (·.1)).foldl (fun s h => s.drainHome h) s7).heldReqs

/-- The agents of a core that take a turn in a cycle. -/
def agentsOf (c : CoreId) : List Agent := [.strm c .c, .strm c .v, .strm c .m, .strm c .x, .engine c]

/-- Whether the C stream of a core comes up with an ARM next. -/
def State.armNext (s : State) (c : CoreId) : Bool :=
  let x := s.ctx c
  let held := match x.strC.held with
    | some h => some h
    | none => (s.fetch c .c).toOption
  x.strC.live == .live && (match held with
    | none => false
    | some h => (match decodeWord .c (x.heldWord h).toNat with
      | .ok (.arm ..) => true
      | _ => false))

/-- The agents of the cycle that begins: within a core in the order of R28, and the C streams that come up with an ARM before all
others, since a home takes the ARMs of a cycle first (R302). -/
def State.agents (s : State) : List Agent :=
  let l := (s.cores.filter fun e => e.2.run.isSome).map fun e => BitVec.ofNat 9 e.1
  match l with
  | [c] => agentsOf c
  | l =>
    let first := (l.filter s.armNext).map fun c => Agent.strm c .c
    first ++ ((l.map agentsOf).flatten.filter fun a => !first.contains a)

/-- The end of a cycle: its writes reach their homes and the buffers. -/
def State.cycleEnd (s : State) : State :=
  let s1 := s.homes s.listed
  s1.each s1.listed State.coreCycle

/-- The end of a cycle, and the beginning of the next. -/
def State.tick (s : State) : State :=
  let s1 := s.cycleEnd.advance
  let s2 := ((s1.ageTasks (s1.devTime.toNat - s.devTime.toNat)).selfActs).microActs s.devTime
  { s2 with sched := s2.agents }

/-! ### A program placed from outside -/

/-- Where `loaded` puts its tables and its code: the tables map the first 4 TiB of an address space onto LPDDR6 one to one. -/
def loadAsid : BitVec 16 := 0xFFFF
/-- The code's address. -/
def loadPc : Nat := 0x100000

/-- The page tables of `loaded`: a root, a table of level 4, and a leaf at level 3 with R, W and X (R282, R283). -/
def State.loadTables (s : State) : State :=
  ((s.memWrite 0x10000 (leBytes 8 0x20001)).memWrite 0x20000 (leBytes 8 0x30001)).memWrite 0x30000 (leBytes 8 0x1F)

/-- The sealed region that covers the code of `loaded` (R67). -/
def loadRegion : Region :=
  { spc := .virt, base := loadPc, asid := loadAsid, gen := 0, k := 12, sealed := true, rearm := false, act := 0, flt := false,
    ovf := false, fired := false, valid := true, fires := 0, count := 0, target := 0, arg := 0 }

/-- The launch of `loaded`: one task, DRAIN set (R233, R234). -/
def loadLaunch : Launch :=
  { pkt := BitVec.ofNat 1024 (2 ^ (8 * 0x38) + 2 ^ (8 * 0x3C + 18)), q := 0, asid := loadAsid, foot := [], done := 0, failed := 0,
    mark0 := false, mark1 := false, cred0 := 0, cred1 := 0, lastCore := none, reported := false, top := [],
    tasks := [(0, { Task.fresh with st := .running, core := some 0, passed := true })] }

/-- A machine whose core 0 runs a task with one live stream, at a word of code that stands in sealed, executable memory,
and whose next turn is that stream's. It stands for the loading of a program from outside. -/
def State.loaded (s : State) (e : Strm) (w : Nat) : State :=
  let s1 := s.loadTables.memWrite loadPc (leBytes 8 w)
  let s2 : State :=
    { s1 with
      spaces := s1.spaces.set loadAsid.toNat
        { gen := 0, retired := false, root := 0x10000, sweep := false, saveBase := 0, saveSize := 0 }
      regions := s1.regions.set 0 loadRegion
      launches := s1.launches.set 0 loadLaunch
      agenda := [], sched := [.strm 0 e], frozen := false, bootFail := none, memHold := false }
  s2.modCore 0 fun k =>
    { k with
      run := some { lid := 0, tidx := 0, grants := 0, budget := 0 }
      ctx := { k.ctx.setStr e { Stream.reset with live := .live, pc := BitVec.ofNat 72 loadPc } with te := false }
      frz := none, save := none, restore := none, stop := none, gov := false, tlb := [], pwr := .active, lender := none }

end Sys2Proof.Machine
end

