-- ==== Sys2Proof/Machine/Step.lean ====
section
/-!
DEFINITION. Machine/Step.lean: one step of the machine, and a word placed where the next step fetches it.
-/
namespace Sys2Proof.Machine

/-- One step: an offered event; else, unless the package is frozen or has failed to boot, the turn of the next agent of the
cycle, or the end of the cycle. -/
def step (s : State) : Host.Outcome State Fault Refusal :=
  match s.agenda with
  | i :: rest => State.offered { s with agenda := rest } i
  | [] =>
    if s.frozen || !s.bootOk then .next s
    else match s.sched with
      | .strm c e :: _ => s.streamStep c e
      | .engine c :: _ => .next (s.engineStep c)
      | [] => .next s.tick

/-- The state with an instruction's word placed so that the next step fetches and runs it. -/
def State.withFetchWord (s : State) (nbits w : Nat) : State := s.loaded ((tableStrm (w % 2 ^ nbits)).getD .c) (w % 2 ^ nbits)

end Sys2Proof.Machine
end

