-- ==== Sys2Proof/Safety.lean ====
section
/-!
DEFINITION. Safety.lean: the terms in which statements are made: an instruction that comes up in an open slot, the state in
which it completes, what stays as it was, and the machine's invariants.
-/
namespace Sys2Proof.Machine

/-! ### An open slot (R26, R28, R45, R48) -/

/-- The ring conditions of an instruction: every wait bit finds a token, every signal bit a free place of the 15 (R26,
R28). -/
structure RingOpen (x : Ctx) (e : Strm) (r : Ring) : Prop where
  wp : r.wp = true → 1 ≤ x.ready (inQueue e true)
  wn : r.wn = true → 1 ≤ x.ready (inQueue e false)
  sp : r.sp = true → x.taken (outQueue e true) < 15
  sn : r.sn = true → x.taken (outQueue e false) < 15

/-- The state in which an instruction of stream e of the current core is carried out: the results due in its slot have
landed, and the matrix reads of the slot are made (R45, R205, R206). -/
def State.slot (s : State) (e : Strm) : State := (s.beginSlot s.cur e).1

/-- The context of the current core in that state. -/
def State.slotCtx (s : State) (e : Strm) : Ctx := (s.slot e).ctx s.cur

/-- An instruction with ring bits r comes up in an open slot: its ring conditions hold, and no read of an earlier matrix
instruction fails in this slot (R26, R28, R206). -/
structure State.Opens (s : State) (e : Strm) (r : Ring) : Prop where
  ring : RingOpen (s.ctx s.cur) e r
  reads : (s.beginSlot s.cur e).2 = none

/-! ### Completion -/

/-- An instruction issues with one result and no other effect: the result lands lat slots later. -/
def State.yields (s : State) (e : Strm) (r : Ring) (lat : Nat) (d : Dest) : State :=
  State.complete s.cur e r (Done.one (s.slot e) (New.plain lat d))

/-- An instruction issues without a result: its effect is at once, on the state of its slot. -/
def State.passes (s : State) (e : Strm) (r : Ring) (f : State → State) : State :=
  State.complete s.cur e r (Done.plain (f (s.slot e)))

/-- An instruction of C transfers control: results, occupancy, target if it goes there. -/
def State.jumps (s : State) (r : Ring) (lands : List New) (occ : Nat) (dst : Option VAddr) : State :=
  State.complete s.cur .c r { Done.plain (s.slot .c) with lands := lands, occ := occ, npc := dst }

/-- A precise fault is taken in an instruction's slot (R393). -/
def State.traps (s : State) (e : Strm) (k : Cause) (addr : Word) : State := (s.slot e).takeFault s.cur e k addr false

/-- In state t core c has, beside the context x, everything that it has in state s, and so has the rest of the machine. -/
def State.onlyCtx (s t : State) (c : CoreId) (x : Ctx) : Prop := t = s.modCtx c fun _ => x

/-- A context of y with the stream e and the ring of x: everything else is as in y. -/
def Ctx.but (y x : Ctx) (e : Strm) : Ctx := { y.setStr e (x.str e) with tok := x.tok, fresh := x.fresh, rsv := x.rsv }

/-- The answer to a request of a stream's instruction is there, in the state w (R48, R290): the request has been sent and
answered, or the controllers answer it at once. -/
def State.asked (s : State) (c : CoreId) (e : Strm) (q : Req) (w : State) (a : Ans) : Prop :=
  (∃ t, ((s.ctx c).str e).sent = some t ∧ t.ans = some a ∧ w = s) ∨
    (((s.ctx c).str e).sent = none ∧ s.memHold = false ∧ s.serve c q = (w, a))

/-- The request of a stream's instruction has to be sent, or is under way (R48). -/
def State.unanswered (s : State) (c : CoreId) (e : Strm) : Prop :=
  (∃ t, ((s.ctx c).str e).sent = some t ∧ t.ans = none) ∨ (((s.ctx c).str e).sent = none ∧ s.memHold = true)

/-- A landing entry of stream e turns the context z into y (R27, R28, R172, R210): its events are set, each of its signals deposits
a token for the next cycle in the place reserved for it, and nothing else of z changes. -/
structure Landing.turns (l : Landing) (e : Strm) (z y : Ctx) : Prop where
  rest : y = { z with vflags := z.vflags ||| l.vfl, vNow := z.vNow ||| l.vfl, mflags := z.mflags ||| l.mfl,
                      mNow := z.mNow ||| l.mfl, fresh := y.fresh, rsv := y.rsv }
  deposits : ∀ q, y.fresh.getD q 0 = z.fresh.getD q 0 + (if l.sp = true ∧ q = outQueue e true then 1 else 0) +
    (if l.sn = true ∧ q = outQueue e false then 1 else 0)
  releases : ∀ q, y.rsv.getD q 0 = z.rsv.getD q 0 - (if l.sp = true ∧ q = outQueue e true then 1 else 0) -
    (if l.sn = true ∧ q = outQueue e false then 1 else 0)

/-- The context x with the out-of-range record of y (R60, R61). -/
def Ctx.withOor (x y : Ctx) : Ctx :=
  { x with oorFlag := y.oorFlag, oorFresh := y.oorFresh, oorNow := y.oorNow, oorStream := y.oorStream, oorSpace := y.oorSpace,
           oorWrite := y.oorWrite, oorAddr := y.oorAddr }

/-! ### Instructions of one shape -/

/-- The NOP of a stream (R117, R185, R224, R365). -/
def nopOf (e : Strm) (r : Ring) : Instr :=
  match e with
  | .c => .nop r | .v => .vnop r | .m => .mnop r | .x => .xnop r

/-- The state after n NOPs without ring bits in C (R117). -/
def State.afterNops (s : State) (n : Nat) : State :=
  match n with
  | 0 => s
  | n + 1 =>
    match exec (.nop ⟨false, false, false, false⟩) (s.afterNops n) with
    | .next t => t
    | _ => s

/-- JOIN of a stream (R117, R481). -/
def joinOf (e : Strm) (r : Ring) (k : BitVec 6) : Instr :=
  match e with
  | .c => .join r k | .v => .vJoin r k | .m => .mJoin r k | .x => .xJoin r k

/-- EXIT of a stream (R117, R481). -/
def exitOf (e : Strm) (r : Ring) : Instr :=
  match e with
  | .c => .exit r | .v => .vExit r | .m => .mExit r | .x => .xExit r

/-- The ring bits of a C instruction that computes a scalar register or a predicate and does nothing else (R100 to R110). -/
def registerForm (i : Instr) : Option Ring :=
  match i with
  | .add r _ _ _ => some r | .sub r _ _ _ => some r | .and r _ _ _ => some r | .or r _ _ _ => some r
  | .xor r _ _ _ => some r | .andn r _ _ _ => some r | .orn r _ _ _ => some r | .sll r _ _ _ => some r
  | .srl r _ _ _ => some r | .sra r _ _ _ => some r | .rol r _ _ _ => some r | .ror r _ _ _ => some r
  | .sel r _ _ _ => some r | .min r _ _ _ => some r | .max r _ _ _ => some r | .minn r _ _ _ => some r
  | .mul r _ _ _ => some r | .mulh r _ _ _ => some r | .mulhn r _ _ _ => some r | .div r _ _ _ => some r
  | .divn r _ _ _ => some r | .rem r _ _ _ => some r | .remn r _ _ _ => some r | .maxn r _ _ _ => some r
  | .clz r _ _ => some r | .ctz r _ _ => some r | .popc r _ _ => some r | .brev r _ _ => some r
  | .bswap r _ _ => some r | .sext r _ _ _ => some r | .zext r _ _ _ => some r | .addi r _ _ _ => some r
  | .andi r _ _ _ => some r | .ori r _ _ _ => some r | .xori r _ _ _ => some r | .muli r _ _ _ => some r
  | .slli r _ _ _ => some r | .srli r _ _ _ => some r | .srai r _ _ _ => some r | .rori r _ _ _ => some r
  | .movi r _ _ => some r | .movk r _ _ => some r | .addpc r _ _ => some r | .bfx r _ _ _ => some r
  | .bfxn r _ _ _ => some r | .bfi r _ _ _ => some r | .fshl r _ _ _ => some r | .fshr r _ _ _ => some r
  | .cmp r _ _ _ _ => some r | .cmpAnd r _ _ _ _ => some r | .cmpOr r _ _ _ _ => some r | .cmpi r _ _ _ _ => some r
  | .pand r _ _ _ => some r | .por r _ _ _ => some r | .pxor r _ _ _ => some r | .pnot r _ _ => some r
  | .pmov r _ _ => some r | .time r _ => some r
  | _ => none

/-! ### Operands and results of the V stream (R51, R169, R171 to R173, R175) -/

/-- The byte at offset b of source q of a V instruction, at address a, is read from OF and cannot be: it is one of those that the
instruction takes (R171), and it is uncorrectable or stands in the window of a lender that has failed (R173, R420). -/
def State.spoils (s : State) (takes : VReg → Nat → Prop) (q : VReg) (a : Nat) : Prop :=
  (s.slotCtx .v).tag q = none ∧ ∃ b, b < 128 ∧ a = (s.slotCtx .v).view q + b ∧ takes q b ∧
    (s.slot .v).badAt s.cur 1 .ofs a = true

/-- The sources and destinations of a V instruction pass the checks of R173, in which only the bytes that it takes count (R171), and
no source meets the refresh of its bank in this cycle (R52). -/
structure State.VecReady (s : State) (srcs dsts : List VReg) (takes : VReg → Nat → Prop) : Prop where
  views : ∀ q ∈ srcs ++ dsts, (s.slotCtx .v).viewBad q = false
  fresh : ∀ q ∈ srcs, (s.slotCtx .v).expired q = false
  clean : ∀ q ∈ srcs, ∀ a, ¬ s.spoils takes q a
  still : ∀ q ∈ srcs, s.refreshHit ((s.slotCtx .v).regSpan q) = false

/-- The state of a V slot once the sources are read: out-of-range bytes are recorded (R44). -/
def State.vecSeen (s : State) (srcs : List VReg) : State :=
  (s.slot .v).oorNote s.cur .v .ofs false
    (minOf ((s.slot .v).outOf s.cur .ofs ((srcs.map (s.slotCtx .v).regSpan).flatten)))

/-- The read of a bad byte in a slot faults with its address (R173, R393), or freezes the core where the byte stands in the window
of a lender that has failed (R420). -/
def State.FailsRead (s : State) (e : Strm) (i : Instr) (sp : Space) (a : Nat) : Prop :=
  let lost := sp ≠ .t2 ∧ ∃ o, (s.slot e).cellOf s.cur sp a = some o ∧ o.1 ≠ s.cur ∧ ((s.slot e).core o.1).dead = true
  (lost → exec i s = .next ((s.slot e).freezeCore s.cur .coreFrozen)) ∧
  (¬ lost → exec i s = .next (s.traps e .uncorrectableData (BitVec.ofNat 64 a)))

/-- Every byte of every source. -/
def allBytes (_ : VReg) (_ : Nat) : Prop := True

/-- Element j of a source of a V instruction as read in its slot (R51, R169). -/
def State.vecElem (s : State) (w : Nat) (q : VReg) (j : Nat) : Nat := elem ((s.slot .v).vecAt s.cur q) w j

/-- Whether element j of w bits is active in a V slot (R36). -/
def State.vecActive (s : State) (w j : Nat) : Bool :=
  ((s.slotCtx .v).kr (s.slotCtx .v).actm).getLsbD (w * j / 8)

/-- A V instruction issues with one vector result: value, written bits, events (R171, R172, R175). -/
def State.vecLands (s : State) (r : Ring) (base : Nat) (srcs : List VReg) (vd : VReg) (e : Bool) (v bits : Vec) (ev : Ev) :
    State :=
  let x := s.slotCtx .v
  let far := srcs.any (fun q => (x.tag q).isNone && inWindow .ofs (x.view q)) || (!e && inWindow .ofs (x.view vd))
  State.complete s.cur .v r (Done.one (s.vecSeen srcs)
    { lat := if far then base + 6 else base
      dest := if e then .eph vd (v &&& bits) else .vec vd (x.view vd) v bits, vfl := ev, mfl := 0 })

/-- The width of the elements that a V instruction takes one by one, each for the same element of its result (R171, R175). -/
def elemWidth (i : Instr) : Option Nat :=
  match i with
  | .vadd _ t _ _ _ _ | .vsub _ t _ _ _ _ | .vmul _ t _ _ _ _ | .vmin _ t _ _ _ _ | .vmax _ t _ _ _ _ | .vdiv _ t _ _ _ _
  | .vscale _ t _ _ _ _ | .vmulh _ t _ _ _ _ | .vadds _ t _ _ _ _ | .vsubs _ t _ _ _ _ | .vbfx _ t _ _ _ _ => some t.width
  | .vfmaF32F64 _ _ _ _ _ _ t | .vfmsF32F64 _ _ _ _ _ _ t | .vfnmaF32F64 _ _ _ _ _ _ t => some (if t then 64 else 32)
  | .vfmaBf16F16 .. | .vfmsBf16F16 .. | .vfnmaBf16F16 .. => some 16
  | .vabs _ t _ _ _ | .vneg _ t _ _ _ | .vsqrt _ t _ _ _ | .vrcp _ t _ _ _ | .vrsq _ t _ _ _ | .vexp2 _ t _ _ _
  | .vlog2 _ t _ _ _ | .vredSum _ t _ _ _ | .vredMin _ t _ _ _ | .vredMax _ t _ _ _ | .vscanSum _ t _ _ _
  | .vscanMin _ t _ _ _ | .vscanMax _ t _ _ _ => some t.width
  | .vcmp _ _ _ _ _ t | .vclass _ _ _ _ t => some t.width
  | .vsll _ t _ _ _ _ | .vsrl _ t _ _ _ _ | .vsra _ t _ _ _ _ | .vfsh _ t _ _ _ _ => some (wbits t)
  | .vpopc _ t _ _ _ | .vclz _ t _ _ _ => some (wbits t)
  | .vand .. | .vor .. | .vxor .. | .vmov .. => some 8
  | _ => none

/-- Which bytes of its source registers a V instruction takes (R171): those of active elements; in a lane movement those of the
elements that an active element of the result comes from (R193); in VCVT those of the elements that it converts and of their random
words (R186); in the others all. -/
def State.takes (s : State) (i : Instr) (q : VReg) (b : Nat) : Prop :=
  let S := fun (sx : XReg) => ((s.slotCtx .v).sr (48 + sx.setWidth 6)).toNat
  let from' := fun (t : Wd) (src : Nat → Nat → Prop) =>
    ∃ j, j < 1024 / wbits t ∧ s.vecActive (wbits t) j = true ∧ src j (8 * b / wbits t)
  match elemWidth i with
  | some w => s.vecActive w (8 * b / w) = true
  | none =>
    match i with
    | .vcvt _ _ vp _ fs fd => ∃ j, j < 1024 / max fs.width fd.width ∧ s.vecActive fd.width j = true ∧
        if q = vp.setWidth 6 <<< 1 then fs.width * j ≤ 8 * b + 7 ∧ 8 * b < fs.width * (j + 1) else b / 4 = j % 32
    | .vins _ t _ _ _ sx => from' t fun j k => j ≠ S (sx + 1) % (1024 / wbits t) ∧ k = j
    | .vperm _ t _ _ va vb => from' t fun j k => (q = vb ∧ k = j) ∨ (q = va ∧ k = s.vecElem (wbits t) vb j % (1024 / wbits t))
    | .vrotDn _ t _ _ _ sx => from' t fun j k => k = (j + S sx) % (1024 / wbits t)
    | .vrotUp _ t _ _ _ sx => from' t fun j k => k = (j + (1024 / wbits t - S sx % (1024 / wbits t))) % (1024 / wbits t)
    | .vslideDn _ t _ _ _ sx => from' t fun j k => k = j + S sx
    | .vslideUp _ t _ _ _ sx => from' t fun j k => j = k + S sx
    | _ => True

/-- An instruction works element by element (R169 to R172): with its operands ready it issues; every active element of the
result is the value that el gives from the sources' elements, and is written whole; no inactive one is written; the events are
those of the active elements. -/
def State.Elementwise (s : State) (i : Instr) (r : Ring) (w base : Nat) (srcs : List VReg) (vd : VReg) (e : Bool)
    (el : List Nat → Nat × Ev) : Prop :=
  s.VecReady srcs [vd] (s.takes i) → ∃ v bits ev, exec i s = .next (s.vecLands r base srcs vd e v bits ev) ∧
    (∀ j, j < 1024 / w →
      let q := el (srcs.map fun a => s.vecElem w a j)
      (s.vecActive w j = true → elem v w j = q.1 % 2 ^ w ∧ elem bits w j = 2 ^ w - 1 ∧
        ∀ k, q.2.getLsbD k = true → ev.getLsbD k = true) ∧
      (s.vecActive w j = false → elem bits w j = 0)) ∧
    ∀ k, ev.getLsbD k = true → ∃ j, j < 1024 / w ∧ s.vecActive w j = true ∧
      (el (srcs.map fun a => s.vecElem w a j)).2.getLsbD k = true

/-- An instruction gives every element of its result, whatever the mask writes (R193): active ones are written, by el. -/
def State.LaneWise (s : State) (i : Instr) (r : Ring) (w base : Nat) (srcs : List VReg) (vd : VReg) (e : Bool)
    (el : Nat → Nat) : Prop :=
  s.VecReady srcs [vd] (s.takes i) → ∃ v bits, exec i s = .next (s.vecLands r base srcs vd e v bits 0) ∧
    ∀ j, j < 1024 / w → elem v w j = el j % 2 ^ w ∧ elem bits w j = if s.vecActive w j then 2 ^ w - 1 else 0

/-- An instruction writes all 1,024 bits of its result (R171). -/
def State.WholeWise (s : State) (i : Instr) (r : Ring) (base : Nat) (srcs : List VReg) (vd : VReg) (e : Bool) (v : Vec)
    (ev : Ev) : Prop :=
  s.VecReady srcs [vd] (s.takes i) → exec i s = .next (s.vecLands r base srcs vd e v (BitVec.allOnes 1024) ev)

/-- Ring bits, sources and destinations of the V instructions that name registers only (R76 to R81, R173). -/
def vectorForm (i : Instr) : Option (Ring × List VReg × List VReg) :=
  match i with
  | .vadd r _ _ d a b => some (r, [a, b], [d]) | .vsub r _ _ d a b => some (r, [a, b], [d])
  | .vmul r _ _ d a b => some (r, [a, b], [d]) | .vmin r _ _ d a b => some (r, [a, b], [d])
  | .vmax r _ _ d a b => some (r, [a, b], [d]) | .vdiv r _ _ d a b => some (r, [a, b], [d])
  | .vfmaF32F64 r d _ a b c _ => some (r, [a.setWidth 6, b.setWidth 6, c.setWidth 6], [d.setWidth 6])
  | .vfmaBf16F16 r d _ a b c _ => some (r, [a.setWidth 6, b.setWidth 6, c.setWidth 6], [d.setWidth 6])
  | .vfmsF32F64 r d _ a b c _ => some (r, [a.setWidth 6, b.setWidth 6, c.setWidth 6], [d.setWidth 6])
  | .vfmsBf16F16 r d _ a b c _ => some (r, [a.setWidth 6, b.setWidth 6, c.setWidth 6], [d.setWidth 6])
  | .vfnmaF32F64 r d _ a b c _ => some (r, [a.setWidth 6, b.setWidth 6, c.setWidth 6], [d.setWidth 6])
  | .vfnmaBf16F16 r d _ a b c _ => some (r, [a.setWidth 6, b.setWidth 6, c.setWidth 6], [d.setWidth 6])
  | .vabs r _ _ d a => some (r, [a], [d]) | .vneg r _ _ d a => some (r, [a], [d]) | .vsqrt r _ _ d a => some (r, [a], [d])
  | .vrcp r _ _ d a => some (r, [a], [d]) | .vrsq r _ _ d a => some (r, [a], [d]) | .vexp2 r _ _ d a => some (r, [a], [d])
  | .vlog2 r _ _ d a => some (r, [a], [d]) | .vscale r _ _ d a b => some (r, [a, b], [d])
  | .vand r _ d a b => some (r, [a, b], [d]) | .vor r _ d a b => some (r, [a, b], [d])
  | .vxor r _ d a b => some (r, [a, b], [d]) | .vsll r _ _ d a b => some (r, [a, b], [d])
  | .vsrl r _ _ d a b => some (r, [a, b], [d]) | .vsra r _ _ d a b => some (r, [a, b], [d])
  | .vmulh r _ _ d a b => some (r, [a, b], [d]) | .vadds r _ _ d a b => some (r, [a, b], [d])
  | .vsubs r _ _ d a b => some (r, [a, b], [d]) | .vcmp r _ _ a b _ => some (r, [a, b], [])
  | .vsel r _ d a b => some (r, [a, b], [d]) | .vclass r _ a _ _ => some (r, [a], [])
  | .vmov r _ d a => some (r, [a], [d]) | .vbcast r _ _ d _ => some (r, [], [d]) | .vext r _ _ a _ => some (r, [a], [])
  | .vins r _ _ d a _ => some (r, [a], [d]) | .vperm r _ _ d a b => some (r, [a, b], [d])
  | .vrotDn r _ _ d a _ => some (r, [a], [d]) | .vrotUp r _ _ d a _ => some (r, [a], [d])
  | .vslideDn r _ _ d a _ => some (r, [a], [d]) | .vslideUp r _ _ d a _ => some (r, [a], [d])
  | .vredSum r _ _ d a => some (r, [a], [d]) | .vredMin r _ _ d a => some (r, [a], [d])
  | .vredMax r _ _ d a => some (r, [a], [d]) | .vscanSum r _ _ d a => some (r, [a], [d])
  | .vscanMin r _ _ d a => some (r, [a], [d]) | .vscanMax r _ _ d a => some (r, [a], [d])
  | .vbfx r _ _ d a b => some (r, [a, b], [d]) | .vfsh r _ _ d a b => some (r, [a, b, d], [d])
  | .vpopc r _ _ d a => some (r, [a], [d]) | .vclz r _ _ d a => some (r, [a], [d])
  | _ => none

/-! ### Views of the M stream (R38, R41, R202, R213) -/

/-- Tile register n of a context holds the valid view v, whose window, if it is a lent one, is granted (R38). -/
def Ctx.tileIs (x : Ctx) (n : TReg) (v : TView) : Prop :=
  x.tv.get? n.toNat = some v ∧ ∀ i o, windowOf .ofs v.base = some (i, o) → x.granted i = true

/-- Accumulator register n holds a valid view; v is that view by AS addresses (R41). -/
def Ctx.accIs (x : Ctx) (n : TReg) (v : TView) : Prop :=
  ∃ w, x.av.get? n.toNat = some w ∧ v = { w with base := ((w.base : Int) - 0x40000).toNat }

/-- Weight register n holds the valid view v (R213). -/
def Ctx.weightIs (x : Ctx) (n : Nat) (v : TView) : Prop := (x.wv.getD n 0).getLsbD 63 = true ∧ wvView (x.wv.getD n 0) = some v

/-- The rational value of a number that is finite and exact. -/
def Num.val (v : Num) : Rat :=
  match v with
  | .fin n m e _ => (if n then -1 else 1) * m * (2 : Rat) ^ e
  | _ => 0

/-- A finite number without a discarded part. -/
def Num.exact (v : Num) : Prop := ∃ n m e, v = .fin n m e false

/-- Grid value z of a float format, counted in magnitude codes from zero, with the first one past the largest finite value
(R139, R150 step 1). -/
def gridVal (f : Fmt) (z : Nat) : Rat :=
  let v := fun c => (Num.ofCode f c).val
  if z ≤ f.maxCode then v z else v f.maxCode + (v f.maxCode - v (f.maxCode - 1))

/-- Whether a mode takes hi in place of lo, whose mantissa field is odd or not, for the fraction f of the way (R150 step 5, R151). -/
def RCtl.takesHi (ctl : RCtl) (neg odd : Bool) (frac : Rat) : Bool :=
  decide (frac ≠ 0) && match ctl.mode with
    | .rne => decide (1 / 2 < frac) || (decide (frac = 1 / 2) && odd)
    | .rna => decide (1 / 2 ≤ frac)
    | .rtz => false
    | .rup => !neg
    | .rdn => neg
    | .sr => decide ((2 : Int) ^ ctl.rand.k ≤ (frac * 2 ^ ctl.rand.k).floor + ctl.rand.r)

/-- A number that stands for a positive real y from below: its own value when nothing is discarded, else one between its mantissa
and the next, with bits enough for every format; le and eq compare a rational with y (R150, R178). -/
def Num.floors (v : Num) (neg : Bool) (le : Rat → Prop) (eq : Rat → Prop) : Prop :=
  ∃ r k st, v = .fin neg r k st ∧ 64 ≤ Nat.log2 r ∧ le (Num.fin false r k false).val ∧ ¬ le (Num.fin false (r + 1) k false).val ∧
    (st = false ↔ eq (Num.fin false r k false).val)

/-- Operands and ring bits of a V instruction that names registers only, the register pairs of the conversions resolved
(R76 to R81, R173, R186, R188, R189). -/
def Ctx.registerOperands (x : Ctx) (i : Instr) : Option (Ring × List VReg × List VReg) :=
  let lo := fun (vp : BitVec 5) => (vp.setWidth 6 <<< 1 : VReg)
  match i with
  | .vcvt r d vp _ _ _ => some (r, if x.crm = 5 then [lo vp, lo vp + 1] else [lo vp], [d])
  | .vpack r d vp _ _ _ => some (r, [lo vp, lo vp + 1], [d])
  | .vunpk r d vp fs fd => some (r, [lo vp], (List.range (fd.width / unpkWidth fs)).map fun n => d + BitVec.ofNat 6 n)
  | i => vectorForm i

/-! ### Invariants -/

/-- The canonical form of memory holds. -/
def State.MemoryCanonical (s : State) : Prop := Memory.wf s.mem = true

end Sys2Proof.Machine
end

