-- ==== Sys2Proof/Certificates/Slice0/Obligations.lean ====
section
/-!
DEFINITION. Certificates/Slice0/Obligations.lean: the statements about this machine, each a proposition named for what it
states. (The model's own choices that a statement rests on are named in its docstring with their log entry.)
-/
open Sys2Proof Sys2Proof.Machine


/-! ### The C stream: arithmetic -/

/-- ALU-A (R100): every instruction of major 0x01 issues in an open slot and its result lands one slot later. ALU-B (R101,
latencies of R96): products, quotients and remainders with their borderline cases, and MAXN. MULW (R137) lands the
sign-extended low half of the 32-bit product and counts its issue. Immediate arithmetic (R103), shifts by an immediate (R104)
and wide constants (R105). The words of R100, R101, R103 and R104: every major and operation code with its fields, the other codes reserved. -/
def Obligations.ScalarArithmeticResults : Prop :=
  (∀ (s : State) (r : Ring) (d a b : SReg), s.Opens .c r →
     let A := (s.slotCtx .c).sr a
     let B := (s.slotCtx .c).sr b
     let D := (s.slotCtx .c).sr d
     let n := B.toNat % 64
     let lands := fun (v : Word) => Host.Outcome.next (s.yields .c r 1 (.scalar d v))
     exec (.add r d a b) s = lands (BitVec.ofNat 64 (A.toNat + B.toNat)) ∧
     exec (.sub r d a b) s = lands (BitVec.ofInt 64 ((A.toNat : Int) - B.toNat)) ∧
     exec (.and r d a b) s = lands (A &&& B) ∧
     exec (.or r d a b) s = lands (A ||| B) ∧
     exec (.xor r d a b) s = lands (A ^^^ B) ∧
     exec (.andn r d a b) s = lands (A &&& ~~~B) ∧
     exec (.orn r d a b) s = lands (A ||| ~~~B) ∧
     exec (.sll r d a b) s = lands (BitVec.ofNat 64 (A.toNat * 2 ^ n)) ∧
     exec (.srl r d a b) s = lands (BitVec.ofNat 64 (A.toNat / 2 ^ n)) ∧
     exec (.sra r d a b) s = lands (BitVec.ofInt 64 (A.toInt / 2 ^ n)) ∧
     exec (.rol r d a b) s = lands (A.rotateLeft n) ∧
     exec (.ror r d a b) s = lands (A.rotateRight n) ∧
     exec (.sel r d a b) s = lands ((A &&& D) ||| (B &&& ~~~D)) ∧
     exec (.min r d a b) s = lands (BitVec.ofInt 64 (min A.toInt B.toInt)) ∧
     exec (.max r d a b) s = lands (BitVec.ofInt 64 (max A.toInt B.toInt)) ∧
     exec (.minn r d a b) s = lands (BitVec.ofNat 64 (min A.toNat B.toNat))) ∧
  (∀ (s : State) (r : Ring) (d a b : SReg), s.Opens .c r →
     let A := (s.slotCtx .c).sr a
     let B := (s.slotCtx .c).sr b
     let lands := fun (lat : Nat) (v : Word) => Host.Outcome.next (s.yields .c r lat (.scalar d v))
     exec (.mul r d a b) s = lands 3 (BitVec.ofNat 64 (A.toNat * B.toNat)) ∧
     exec (.mulh r d a b) s = lands 3 (BitVec.ofInt 64 (A.toInt * B.toInt / 2 ^ 64)) ∧
     exec (.mulhn r d a b) s = lands 3 (BitVec.ofNat 64 (A.toNat * B.toNat / 2 ^ 64)) ∧
     exec (.div r d a b) s = lands 18 (if B = 0 then 0xFFFFFFFFFFFFFFFF else BitVec.ofInt 64 (A.toInt.tdiv B.toInt)) ∧
     exec (.divn r d a b) s = lands 18 (if B = 0 then 0xFFFFFFFFFFFFFFFF else BitVec.ofNat 64 (A.toNat / B.toNat)) ∧
     exec (.rem r d a b) s = lands 18 (if B = 0 then A else BitVec.ofInt 64 (A.toInt.tmod B.toInt)) ∧
     exec (.remn r d a b) s = lands 18 (if B = 0 then A else BitVec.ofNat 64 (A.toNat % B.toNat)) ∧
     (A = 0x8000000000000000 → B = 0xFFFFFFFFFFFFFFFF →
       exec (.div r d a b) s = lands 18 0x8000000000000000 ∧ exec (.rem r d a b) s = lands 18 0) ∧
     exec (.maxn r d a b) s = lands 1 (BitVec.ofNat 64 (max A.toNat B.toNat)) ∧
     exec (.mulw r d a b) s = .next (State.complete s.cur .c r (Done.one ((s.slot .c).countDeprecated s.cur)
       (New.plain 3 (.scalar d ((BitVec.ofNat 32 (A.toNat * B.toNat)).signExtend 64)))))) ∧
  (∀ (s : State) (r : Ring) (d a : SReg) (imm : BitVec 10) (sh : BitVec 6) (wide : BitVec 16), s.Opens .c r →
     let A := (s.slotCtx .c).sr a
     let D := (s.slotCtx .c).sr d
     let i := imm.signExtend 64
     let pc := (s.slotCtx .c).strC.pc
     let lands := fun (lat : Nat) (v : Word) => Host.Outcome.next (s.yields .c r lat (.scalar d v))
     exec (.addi r d a imm) s = lands 1 (BitVec.ofInt 64 (A.toInt + imm.toInt)) ∧
     exec (.andi r d a imm) s = lands 1 (A &&& i) ∧
     exec (.ori r d a imm) s = lands 1 (A ||| i) ∧
     exec (.xori r d a imm) s = lands 1 (A ^^^ i) ∧
     exec (.muli r d a imm) s = lands 3 (BitVec.ofInt 64 (A.toInt * imm.toInt)) ∧
     exec (.slli r d a sh) s = lands 1 (BitVec.ofNat 64 (A.toNat * 2 ^ sh.toNat)) ∧
     exec (.srli r d a sh) s = lands 1 (BitVec.ofNat 64 (A.toNat / 2 ^ sh.toNat)) ∧
     exec (.srai r d a sh) s = lands 1 (BitVec.ofInt 64 (A.toInt / 2 ^ sh.toNat)) ∧
     exec (.rori r d a sh) s = lands 1 (A.rotateRight sh.toNat) ∧
     exec (.movi r d wide) s = lands 1 (BitVec.ofInt 64 wide.toInt) ∧
     exec (.movk r d wide) s = lands 1 (D.extractLsb' 0 48 ++ wide) ∧
     exec (.addpc r d wide) s = lands 1 (BitVec.ofInt 64 (pc.toNat + 2 * wide.toInt))) ∧
  (∀ w : Nat, w < 2 ^ 32 →
     let r : Ring :=
       { wp := w.testBit 6
         wn := w.testBit 7
         sp := w.testBit 8
         sn := w.testBit 9 }
     let d := BitVec.ofNat 6 (w / 2 ^ 10)
     let a := BitVec.ofNat 6 (w / 2 ^ 16)
     let b := BitVec.ofNat 6 (w / 2 ^ 22)
     let imm := BitVec.ofNat 10 (w / 2 ^ 22)
     let f := w / 2 ^ 28
     let rows := fun (l : List Instr) => (∀ i, l[f]? = some i → decodeWord .c w = .ok i) ∧
       (l[f]? = none → decodeWord .c w = .error .reservedField)
     (w % 64 = 0x01 → rows [.add r d a b, .sub r d a b, .and r d a b, .or r d a b, .xor r d a b, .andn r d a b, .orn r d a b,
       .sll r d a b, .srl r d a b, .sra r d a b, .rol r d a b, .ror r d a b, .sel r d a b, .min r d a b, .max r d a b,
       .minn r d a b]) ∧
     (w % 64 = 0x02 → rows [.mul r d a b, .mulh r d a b, .mulhn r d a b, .div r d a b, .divn r d a b, .rem r d a b,
       .remn r d a b, .maxn r d a b]) ∧
     (w % 64 = 0x08 → rows [.slli r d a b, .srli r d a b, .srai r d a b, .rori r d a b]) ∧
     (w % 64 = 0x04 → decodeWord .c w = .ok (.addi r d a imm)) ∧
     (w % 64 = 0x05 → decodeWord .c w = .ok (.andi r d a imm)) ∧
     (w % 64 = 0x06 → decodeWord .c w = .ok (.ori r d a imm)) ∧
     (w % 64 = 0x07 → decodeWord .c w = .ok (.xori r d a imm)) ∧
     (w % 64 = 0x09 → decodeWord .c w = .ok (.muli r d a imm)))

/-- Bit counts, reversals and extensions (R102), bit fields (R106) and funnel shifts (R107), bit by bit: each result lands one slot later. -/
def Obligations.BitAndFieldResults : Prop :=
  (∀ (s : State) (r : Ring) (d a : SReg) (w1 : BitVec 6), s.Opens .c r →
     let A := (s.slotCtx .c).sr a
     let result := fun (i : Instr) (v : Word) => exec i s = .next (s.yields .c r 1 (.scalar d v))
     (∃ v, result (.clz r d a) v ∧ (A = 0 → v = 64) ∧ (A ≠ 0 → v.toNat < 64 ∧ A.getLsbD (63 - v.toNat) = true ∧
       ∀ i, 63 - v.toNat < i → A.getLsbD i = false)) ∧
     (∃ v, result (.ctz r d a) v ∧ (A = 0 → v = 64) ∧ (A ≠ 0 → v.toNat < 64 ∧ A.getLsbD v.toNat = true ∧
       ∀ i, i < v.toNat → A.getLsbD i = false)) ∧
     result (.popc r d a) (BitVec.ofNat 64 ((List.range 64).countP fun i => A.getLsbD i)) ∧
     (∃ v, result (.brev r d a) v ∧ ∀ i, i < 64 → v.getLsbD (63 - i) = A.getLsbD i) ∧
     (∃ v, result (.bswap r d a) v ∧ ∀ i, i < 8 → v.extractLsb' (8 * (7 - i)) 8 = A.extractLsb' (8 * i) 8) ∧
     result (.sext r d a w1) ((A.extractLsb' 0 (w1.toNat + 1)).signExtend 64) ∧
     result (.zext r d a w1) ((A.extractLsb' 0 (w1.toNat + 1)).setWidth 64)) ∧
  (∀ (s : State) (r : Ring) (d a b : SReg), s.Opens .c r →
     let A := (s.slotCtx .c).sr a
     let B := (s.slotCtx .c).sr b
     let D := (s.slotCtx .c).sr d
     let pos := B.toNat % 64
     let len := min (B.toNat / 256 % 128) (64 - pos)
     let n := B.toNat % 64
     let result := fun (i : Instr) (v : Word) => exec i s = .next (s.yields .c r 1 (.scalar d v))
     (∃ v, result (.bfxn r d a b) v ∧ ∀ i, i < 64 → v.getLsbD i = (decide (i < len) && A.getLsbD (pos + i))) ∧
     (∃ v, result (.bfx r d a b) v ∧ ∀ i, i < 64 → v.getLsbD i =
       if i < len then A.getLsbD (pos + i) else decide (0 < len) && A.getLsbD (pos + len - 1)) ∧
     (∃ v, result (.bfi r d a b) v ∧ ∀ i, i < 64 → v.getLsbD i =
       if pos ≤ i ∧ i < pos + len then A.getLsbD (i - pos) else D.getLsbD i) ∧
     (∃ v, result (.fshl r d a b) v ∧ ∀ i, i < 64 → v.getLsbD i =
       if n ≤ i then D.getLsbD (i - n) else A.getLsbD (64 + i - n)) ∧
     (∃ v, result (.fshr r d a b) v ∧ ∀ i, i < 64 → v.getLsbD i =
       if i + n < 64 then D.getLsbD (i + n) else A.getLsbD (i + n - 64)))

/-- Compares (R74, R108, R109) and predicate logic (R110): the result lands in pd one slot later. Their words: every
major, operation code and condition code with its fields; the other operation codes, and a nonzero bit where zero is required, are reserved. -/
def Obligations.PredicateResults : Prop :=
  (∀ (s : State) (r : Ring) (pd pa pb : PReg) (k : Cond) (a b : SReg) (imm : BitVec 10), s.Opens .c r →
    let A := (s.slotCtx .c).sr a
    let B := (s.slotCtx .c).sr b
    let I := imm.signExtend 64
    let P := (s.slotCtx .c).pr pa
    let Q := (s.slotCtx .c).pr pb
    let old := (s.slotCtx .c).pr pd
    let holds := fun (x y : Word) => match k with
      | .eq => decide (x = y)
      | .ne => decide (x ≠ y)
      | .lt => decide (x.toInt < y.toInt)
      | .ge => decide (y.toInt ≤ x.toInt)
      | .ltn => decide (x.toNat < y.toNat)
      | .gen => decide (y.toNat ≤ x.toNat)
      | .any => decide (x &&& y ≠ 0)
      | .none => decide (x &&& y = 0)
    let lands := fun (v : Bool) => Host.Outcome.next (s.yields .c r 1 (.pred pd v))
    exec (.cmp r pd k a b) s = lands (holds A B) ∧
    exec (.cmpAnd r pd k a b) s = lands (old && holds A B) ∧
    exec (.cmpOr r pd k a b) s = lands (old || holds A B) ∧
    exec (.cmpi r pd k a imm) s = lands (holds A I) ∧
    exec (.pand r pd pa pb) s = lands (P && Q) ∧
    exec (.por r pd pa pb) s = lands (P || Q) ∧
    exec (.pxor r pd pa pb) s = lands (xor P Q) ∧
    exec (.pnot r pd pa) s = lands (!P) ∧
    exec (.pmov r pd pa) s = lands P) ∧
  (∀ w : Nat, w < 2 ^ 32 →
     let r : Ring :=
       { wp := w.testBit 6
         wn := w.testBit 7
         sp := w.testBit 8
         sn := w.testBit 9 }
     let pd := BitVec.ofNat 3 (w / 2 ^ 10)
     let pa := BitVec.ofNat 3 (w / 2 ^ 16)
     let pb := BitVec.ofNat 3 (w / 2 ^ 19)
     let a := BitVec.ofNat 6 (w / 2 ^ 16)
     let b := BitVec.ofNat 6 (w / 2 ^ 22)
     let f := w / 2 ^ 28
     let zeros := w / 2 ^ 13 % 8 = 0 ∧ w / 2 ^ 22 % 64 = 0
     (∀ k, [Cond.eq, .ne, .lt, .ge, .ltn, .gen, .any, .none][w / 2 ^ 13 % 8]? = some k →
       (w % 64 = 0x11 → (∀ i, [Instr.cmp r pd k a b, .cmpAnd r pd k a b, .cmpOr r pd k a b][f]? = some i →
         decodeWord .c w = .ok i) ∧ (3 ≤ f → decodeWord .c w = .error .reservedField)) ∧
       (w % 64 = 0x12 → decodeWord .c w = .ok (.cmpi r pd k a (BitVec.ofNat 10 (w / 2 ^ 22))))) ∧
     (w % 64 = 0x13 →
       (zeros → ∀ i, [Instr.pand r pd pa pb, .por r pd pa pb, .pxor r pd pa pb][f]? = some i → decodeWord .c w = .ok i) ∧
       (zeros → w / 2 ^ 19 % 8 = 0 → ∀ i, [Instr.pnot r pd pa, .pmov r pd pa][f - 3]? = some i → 3 ≤ f →
         decodeWord .c w = .ok i) ∧
       (¬ zeros ∨ 5 ≤ f ∨ (3 ≤ f ∧ w / 2 ^ 19 % 8 ≠ 0) → decodeWord .c w = .error .reservedField)))

/-! ### The slot, the ring and landings -/

/-- The ring conditions (R26, R28, R30): an instruction whose wait bits lack a token or whose signal bits lack a place does not
issue; the cycle counts against WDOG.LIMIT, and past it RING_TIMEOUT is taken with the queue's index. Stated of the four NOPs,
whose only conditions these are. That WP is named before WN, SP and SN is the model's reading (log entry 30).
It rests on readings and choices of the model: log entries 29, 30, 121 and 122. -/
def Obligations.RingConditionsHoldIssue : Prop :=
  ∀ (s : State) (e : Strm) (r : Ring),
    let x := s.ctx s.cur
    let missing := fun (q : Nat) =>
      (r.wp = true ∧ x.ready (inQueue e true) = 0 ∧ q = inQueue e true) ∨
      ((r.wp = true → 0 < x.ready (inQueue e true)) ∧ r.wn = true ∧ x.ready (inQueue e false) = 0 ∧ q = inQueue e false) ∨
      ((r.wp = true → 0 < x.ready (inQueue e true)) ∧ (r.wn = true → 0 < x.ready (inQueue e false)) ∧
        r.sp = true ∧ 15 ≤ x.taken (outQueue e true) ∧ q = outQueue e true) ∨
      ((r.wp = true → 0 < x.ready (inQueue e true)) ∧ (r.wn = true → 0 < x.ready (inQueue e false)) ∧
        (r.sp = true → x.taken (outQueue e true) < 15) ∧ r.sn = true ∧ 15 ≤ x.taken (outQueue e false) ∧ q = outQueue e false)
    (¬ RingOpen x e r → ∃ q, missing q) ∧
    ∀ q, missing q →
      let n := (x.str e).waited q
      ((x.str e).wait = none → n = 1) ∧ (∀ k m, (x.str e).wait = some (k, m) → k < 8 → n = m + 1) ∧
      (n ≤ x.limit → exec (nopOf e r) s = .next (s.modStr s.cur e fun t => { t with wait := some (q, n) })) ∧
      (x.limit < n → exec (nopOf e r) s = .next (s.takeFault s.cur e .ringTimeout (BitVec.ofNat 64 q) false))

/-- Every completed issue slot (R26, R28, R45, R47, R65): the results enter the stream's landing queue and come one slot nearer,
the last of them carries the signal bits; the PC goes to the target or on; the occupancy is kept; tokens are consumed for the wait
bits; a signal without a result is deposited at once, one with a result or a command holds its reservation. Nothing else changes
but the ages of the ephemeral windows of V and, in a slot of M, how many slots a matrix nest still waits for earlier results (R222).
It rests on readings and choices of the model: log entries 14 and 19. -/
def Obligations.IssueSlotBookkeeping : Prop :=
  ∀ (c : CoreId) (e : Strm) (r : Ring) (d : Done),
    let x := d.s.ctx c
    let t0 := x.str e
    let now := d.lands = [] ∧ d.cmd = false
    ∃ (y : Ctx) (ls : List Landing), State.complete c e r d = d.s.modCtx c (fun _ => y) ∧
      y.str e = { t0 with queue := (t0.queue ++ ls).map Landing.tick
                          pc := match d.npc with
                            | some a => a
                            | none => nextPc t0
                          occ := d.occ - 1, wait := none, held := none, sent := none, join := none, bar := none } ∧
      ls.map (fun l => (l.left, l.dest, l.vfl, l.mfl)) = d.lands.map (fun n => (n.lat, n.dest, n.vfl, n.mfl)) ∧
      (d.cmd = false → ∀ l, ls.getLast? = some l → l.sp = r.sp ∧ l.sn = r.sn) ∧
      y = { (x.but y e) with eph := y.eph, mnest := y.mnest } ∧
      y.mnest = (if e = .m then x.mnest.map fun n => { n with ahead := n.ahead - 1 } else x.mnest) ∧
      (e ≠ .v → y.eph = x.eph) ∧
      (e = .v → ∀ k, y.eph.get? k = (x.eph.get? k).map fun p => (p.1, min 4 (p.2 + 1))) ∧
      (∀ q, y.ready q = x.ready q - (if r.wp = true ∧ q = inQueue e true then 1 else 0) -
        (if r.wn = true ∧ q = inQueue e false then 1 else 0)) ∧
      (∀ q, (now → y.fresh.getD q 0 = x.fresh.getD q 0 + (if r.sp = true ∧ q = outQueue e true then 1 else 0) +
          (if r.sn = true ∧ q = outQueue e false then 1 else 0) ∧ y.rsv.getD q 0 = x.rsv.getD q 0) ∧
        (¬ now → y.fresh.getD q 0 = x.fresh.getD q 0 ∧
          y.rsv.getD q 0 = x.rsv.getD q 0 + (if r.sp = true ∧ q = outQueue e true then 1 else 0) +
            (if r.sn = true ∧ q = outQueue e false then 1 else 0)))

/-- The frame of the register forms of C (R45, R48, R100 to R110, R127): in an open slot nothing changes but the C stream's own
bookkeeping and the ring; the result is in flight, in one entry that names a scalar register or a predicate, and no register,
flag, special register, buffer or byte of memory has changed yet.
It rests on readings and choices of the model: log entry 14. -/
def Obligations.RegisterFormsChangeOnlyTheirQueue : Prop :=
  ∀ (s t : State) (i : Instr) (r : Ring), registerForm i = some r → s.Opens .c r → exec i s = .next t →
    let x := s.slotCtx .c
    let t0 := x.strC
    t = (s.slot .c).modCtx s.cur (fun _ => x.but (t.ctx s.cur) .c) ∧
    t.mem = (s.slot .c).mem ∧ (∀ a, t.memByte a = (s.slot .c).memByte a) ∧
    ∃ l : Landing, (t.ctx s.cur).strC = { t0 with
        queue := (t0.queue ++ [l]).map Landing.tick, pc := nextPc t0, occ := 0, wait := none, held := none, sent := none,
        join := none, bar := none } ∧
      l.sp = r.sp ∧ l.sn = r.sn ∧ l.vfl = 0 ∧ l.mfl = 0 ∧ 1 ≤ l.left ∧
      ((∃ d v, l.dest = .scalar d v) ∨ ∃ pd v, l.dest = .pred pd v)

/-- Latency (R45): a result that has n slots to go is read from the nth slot on, and the old value in every slot before it.
Stated of the C stream with one result in flight and NOPs in its slots. What a landing does (R27, R34, R45, R51, R128, R130): the
destination takes its value (a scalar, predicate, mask, view with its ephemeral tag cleared, tile or accumulator view, ephemeral tag,
MSNAP, or control register), unless it is s0, p0 or m0, whose writes are dropped; the entry's events are set; each signal it carries
deposits a token in its reserved place; nothing else changes. Of two results of one cycle for a scalar register V's stands (R174). A result for a buffer (R44, R171): the in-range bytes of the
destination take theirs, the others are recorded, and no other byte, register or flag changes where no region entry counts the
space; a product or a tile lands so with its events. The window of R51: a tag counts the slots since its landing and expires after four.
It rests on readings and choices of the model: log entries 14, 27 and 121. -/
def Obligations.LandingsTakeEffectInTheirSlot : Prop :=
  (∀ (s : State) (l : Landing) (d : SReg) (v : Word), (s.ctx s.cur).strC.queue = [l] → l.dest = .scalar d v → d ≠ 0 →
     d.toNat ∉ (s.ctx s.cur).vLanded → l.sp = false → l.sn = false →
     (∀ j, j < l.left → ((s.afterNops j).slotCtx .c).sr d = (s.ctx s.cur).sr d) ∧
     ((s.afterNops l.left).slotCtx .c).sr d = v ∧
     (s.afterNops l.left).mem = s.mem ∧
     ∀ k, k ≠ d → ((s.afterNops l.left).slotCtx .c).sr k = (s.ctx s.cur).sr k) ∧
  (∀ (s : State) (c : CoreId) (e : Strm) (l : Landing),
     let x := s.ctx c
     let t := s.landEntry c e l
     let y := t.ctx c
     let becomes := fun (z : Ctx) => t = s.modCtx c (fun _ => y) ∧ l.turns e z y
     (l.dest = .nothing → becomes x) ∧
     (∀ d v, l.dest = .scalar d v →
       let late := e = .c ∧ d.toNat ∈ x.vLanded
       becomes { x with s := y.s, vLanded := if e = .v then d.toNat :: x.vLanded else x.vLanded } ∧ y.sr 0 = 0 ∧
       (d ≠ 0 → ¬ late → y.sr d = v) ∧ (late → y.sr d = x.sr d) ∧ ∀ k, k ≠ d → y.sr k = x.sr k) ∧
     (∀ d v, l.dest = .pred d v → becomes { x with p := y.p } ∧ y.pr 0 = true ∧ (d ≠ 0 → y.pr d = v) ∧
       ∀ k, k ≠ d → y.pr k = x.pr k) ∧
     (∀ d v, l.dest = .mask d v → becomes { x with k := y.k } ∧ y.kr 0 = BitVec.allOnes 128 ∧ (d ≠ 0 → y.kr d = v) ∧
       ∀ k, k ≠ d → y.kr k = x.kr k) ∧
     (∀ d b, l.dest = .view d b → becomes { x with views := y.views, eph := y.eph } ∧ y.view d = b.toNat ∧ y.tag d = none ∧
       ∀ k, k ≠ d → y.view k = x.view k ∧ y.tag k = x.tag k) ∧
     (∀ d v, l.dest = .tview d v → becomes { x with tv := y.tv } ∧ y.tv.get? d.toNat = v ∧
       ∀ k, k ≠ d.toNat → y.tv.get? k = x.tv.get? k) ∧
     (∀ d v, l.dest = .aview d v → becomes { x with av := y.av } ∧ y.av.get? d.toNat = v ∧
       ∀ k, k ≠ d.toNat → y.av.get? k = x.av.get? k) ∧
     (∀ d v, l.dest = .eph d v → becomes { x with eph := y.eph } ∧ y.tag d = some (v, 0) ∧
       ∀ k, k ≠ d → y.tag k = x.tag k) ∧
     (∀ n op v, l.dest = .csr n op v → becomes ((s.csrWrite c n.toNat op v).ctx c)) ∧
     (∀ clr, l.dest = .mstat clr →
       becomes { x with msnap := x.mflags, mflags := if clr = true then x.mNow else x.mflags })) ∧
  (∀ (s : State) (c : CoreId) (e : Strm) (l : Landing),
     let x := s.ctx c
     let t := s.landEntry c e l
     let y := t.ctx c
     let see := fun (u : State) (sp : Space) (a : Nat) => u.localByte c e.num sp a
     let apart := fun (sp : Space) (as : List Nat) => (∀ k q, q ∈ (s.ctx k).regs → q.2.spc ≠ sp) → sp ≠ .t2 →
       (∀ q a, q ≠ .t2 → ¬ (q = sp ∧ a ∈ as) → see t q a = see s q a) ∧ t.mem = s.mem ∧ t.t2 = s.t2
     (∀ d a v bits, l.dest = .vec d a v bits →
       let m := fun (i : Nat) => bits.extractLsb' (8 * i) 8
       apart .ofs ((List.range 128).map (a + ·)) ∧
       ((∀ k q, q ∈ (s.ctx k).regs → q.2.spc ≠ .ofs) →
         l.turns e { (x.withOor y) with eph := y.eph } y ∧ y.tag d = none ∧ (∀ k, k ≠ d → y.tag k = x.tag k) ∧
         ∀ i, i < 128 → see t .ofs (a + i) = if (s.cellOf c .ofs (a + i)).isSome then
           v.extractLsb' (8 * i) 8 &&& m i ||| see s .ofs (a + i) &&& ~~~(m i) else 0)) ∧
     (∀ sp bs, l.dest = .cells sp bs → (bs.map (·.1)).Nodup →
       apart sp (bs.map (·.1)) ∧
       ((∀ k q, q ∈ (s.ctx k).regs → q.2.spc ≠ sp) → sp ≠ .t2 →
         l.turns e { (x.withOor y) with tagOps := y.tagOps } y ∧ (sp ≠ .xb → y.tagOps = x.tagOps) ∧
         ∀ q ∈ bs, see t sp q.1 = if (s.cellOf c sp q.1).isSome then q.2 else 0)) ∧
     (∀ j, l.dest = .mma j →
       t = s.landEntry c e { l with dest := .cells .acs j.result.1, mfl := l.mfl ||| j.result.2 }) ∧
     (∀ j, l.dest = .tile j →
       t = s.landEntry c e { l with dest := .cells .ofs j.result.1, mfl := l.mfl ||| j.result.2 })) ∧
  (∀ (s : State) (c : CoreId) (d : VReg) (v : Vec) (age : Nat), (s.ctx c).tag d = some (v, age) →
     ((s.endSlot c .v).ctx c).tag d = some (v, min 4 (age + 1)) ∧ ((s.ctx c).expired d = true ↔ 4 ≤ age))

/-! ### Control transfer, rendezvous and explicit tokens -/

/-- Branches, jumps and SKIP (R111 to R116): targets, links, occupancies. An odd target in a register faults with MISALIGNED, and JALR then
writes no link. When p XOR neg = 1 the stream of a SKIP has n instructions to annul. An instruction that is annulled, whatever it is, takes one slot of
its stream: its parcels are fetched and may fault, the PC goes on and the count falls by one; it issues nothing, takes no other fault
and, with nothing in flight, changes nothing else.
It rests on readings and choices of the model: log entries 14, 19 and 38. -/
def Obligations.ControlTransferResults : Prop :=
  (∀ (s : State) (r : Ring) (p : PReg) (neg : Bool) (o18 : BitVec 18) (o22 : BitVec 22) (o16 : BitVec 16) (d a : SReg),
     s.Opens .c r →
     let x := s.slotCtx .c
     let pc := x.strC.pc
     let at' := fun (o : Int) => pc.extractLsb' 64 8 ++ BitVec.ofInt 64 (pc.toNat + 2 * o)
     let link := BitVec.ofNat 64 (pc.toNat + if x.strC.fromDict then 2 else 4)
     let k := x.sr d - 1
     let jr := fun (i : Instr) (dst : Word) (lands : List New) =>
       (dst.getLsbD 0 = false → exec i s = .next (s.jumps r lands 3 (some (pc.extractLsb' 64 8 ++ dst)))) ∧
       (dst.getLsbD 0 = true → exec i s = .next (s.traps .c .misaligned dst))
     exec (.br r p neg o18) s = .next (s.jumps r [] 1 (if xor (x.pr p) neg then some (at' o18.toInt) else none)) ∧
     exec (.jmp r o22) s = .next (s.jumps r [] 1 (some (at' o22.toInt))) ∧
     exec (.call r o22) s = .next (s.jumps r [New.plain 1 (.scalar 47 link)] 1 (some (at' o22.toInt))) ∧
     jr (.jr r a) (x.sr a) [] ∧ jr (.jalr r d a) (x.sr a) [New.plain 1 (.scalar d link)] ∧ jr (.ret r) (x.sr 47) [] ∧
     exec (.loop r d o16) s =
       .next (s.jumps r [New.plain 1 (.scalar d k)] 1 (if k = 0 then none else some (at' o16.toInt)))) ∧
  (∀ (s : State) (r : Ring) (p : PReg) (neg : Bool) (n : BitVec 6), s.Opens .c r →
     (xor ((s.slotCtx .c).pr p) neg = true →
       exec (.skip r p neg n) s = .next (s.passes .c r fun s1 => s1.modStr s.cur .c fun t => { t with skip := n.toNat })) ∧
     (xor ((s.slotCtx .c).pr p) neg = false → exec (.skip r p neg n) s = .next (s.passes .c r id))) ∧
  (∀ (s : State) (c : CoreId) (e : Strm),
     let t := (s.ctx c).str e
     let u : State := { s with sched := s.sched.drop 1, cur := c }
     let step := fun (n : Word) => u.modStr c e fun q =>
       { q with pc := pcAt q.pc (q.pc.setWidth 64 + n), skip := q.skip - 1, held := none, fence := false }
     let second := s.fetchParcel c (pcAt t.pc (t.pc.setWidth 64 + 2))
     s.runs c e = true → (s.core c).free = true → (s.core c).saveLets e = true → (s.core c).govHolds e s.cycle = false →
     t.occ = 0 → t.skip ≠ 0 → (t.fence = true → (s.core c).pend = []) →
       (∀ p n, s.fetchParcel c t.pc = .ok p →
         (p % 64 = 62 ∧ n = 2) ∨ (p % 64 ≠ 62 ∧ n = 4 ∧ (badMajor e p = true ∨ ∃ h, second = .ok h)) →
         s.strmTurn c e = .next ((step n).idleSlot c e) ∧
         (t.queue = [] → e ≠ .v → (e = .m → (s.ctx c).mnest = none) → s.strmTurn c e = .next (step n))) ∧
       (∀ k a, s.fetchParcel c t.pc = .error (k, a) ∨
           (∃ p, s.fetchParcel c t.pc = .ok p ∧ p % 64 ≠ 62 ∧ badMajor e p = false ∧ second = .error (k, a)) →
         s.strmTurn c e = .next ((u.modStr c e fun q => { q with fence := false }).slotFault c e k a false)))

/-- NOP, JOIN and EXIT of every stream (R32, R33, R117, R481). NOP issues with its ring bits alone. JOIN k: once every other live stream
stands at a JOIN with the same k it issues, and the others issue theirs in its cycle, which is none the governor takes from one of
them (R251); else it stands there and waits with the key 8,
whose count RING_TIMEOUT ends (R30); a stream alone passes; while a handler runs no other stream can meet it. That the others use up the
turn of this cycle is a reading (log entry 32). EXIT: the stream leaves the live set and issues nothing more; where no stream that stays
stands at a JOIN nothing else follows.
It rests on readings and choices of the model: log entry 32. -/
def Obligations.NopJoinAndExitResults : Prop :=
  (∀ (s : State) (e : Strm) (r : Ring), s.Opens e r → exec (nopOf e r) s = .next (s.passes e r id)) ∧
  (∀ (s : State) (e : Strm) (r : Ring) (k : BitVec 6), s.Opens e r →
     let x := s.slotCtx e
     let live := fun (f : Strm) => f ≠ e ∧ (x.str f).live = .live
     let agree := ∀ f, live f → x.te = false ∧ (x.str f).join = some k ∧
       ((s.slot e).core s.cur).govHolds f (s.slot e).cycle = false
     (agree → exec (joinOf e r k) s = .next (s.passes e r fun s1 => s1.joinAll s.cur ([Strm.c, .v, .m, .x].filter fun f =>
       f != e && (x.str f).live == .live))) ∧
     ((∀ f, ¬ live f) → exec (joinOf e r k) s = .next (s.passes e r id)) ∧
     (¬ agree → exec (joinOf e r k) s =
       .next ((s.modStr s.cur e fun t => { t with join := some k }).waitCycle s.cur e 8))) ∧
  (∀ (s : State) (e : Strm) (r : Ring), s.Opens e r →
     let x := s.slotCtx e
     ∃ t, exec (exitOf e r) s = .next t ∧
       t = s.passes e r (fun s1 => (s1.modStr s.cur e fun t => { t with live := .exited }).joinAgree s.cur) ∧
       ((∀ f, f ≠ e → (x.str f).live = .live → (x.str f).join = none) →
         t = s.passes e r fun s1 => s1.modStr s.cur e fun t => { t with live := .exited }))

/-- TOKEN (R132) deposits n tokens in its slot when the target queue has room for them and for its own signal bit toward that queue; TWAIT
(R133) consumes n tokens, beside the one its own wait bit on that queue takes, in its slot. Else each waits for the queue, and the cycle counts toward
the watchdog (R30). Their words: major 0x29, f 0x0 and 0x1, the direction in bit 10, n from 1 to 15 in [25:22], every other operand bit zero. -/
def Obligations.TokenInstructionResults : Prop :=
  let holds := fun (s : State) (i : Instr) (q : Nat) =>
    let n := ((s.ctx s.cur).str .c).waited q
    (n ≤ (s.ctx s.cur).limit → exec i s = .next (s.modStr s.cur .c fun t => { t with wait := some (q, n) })) ∧
    ((s.ctx s.cur).limit < n → exec i s = .next (s.takeFault s.cur .c .ringTimeout (BitVec.ofNat 64 q) false))
  (∀ (s : State) (r : Ring) (dir : Bool) (n : BitVec 4), s.Opens .c r →
     let x := s.slotCtx .c
     let q := if dir then 0 else 1
     let own := if (if dir then r.sn else r.sp) then 1 else 0
     (x.taken q + n.toNat + own ≤ 15 → ∃ t, exec (.token r dir n) s = .next t ∧
       t = s.passes .c r (fun s1 => s1.modCtx s.cur fun x => x.deposit q n.toNat) ∧
       (t.ctx s.cur).fresh.getD q 0 = x.fresh.getD q 0 + n.toNat + own ∧
       (∀ j, (t.ctx s.cur).sr j = x.sr j) ∧ ∀ a, t.memByte a = (s.slot .c).memByte a) ∧
     (15 < x.taken q + n.toNat + own → holds s (.token r dir n) q)) ∧
  (∀ (s : State) (r : Ring) (dir : Bool) (n : BitVec 4), s.Opens .c r →
     let x := s.slotCtx .c
     let q := if dir then 7 else 2
     let own := if (if dir then r.wn else r.wp) then 1 else 0
     (n.toNat + own ≤ x.ready q → ∃ t, exec (.twait r dir n) s = .next t ∧
       t = s.passes .c r (fun s1 => s1.modCtx s.cur fun x => x.consume q n.toNat) ∧
       (t.ctx s.cur).ready q = x.ready q - n.toNat - own ∧
       (∀ j, (t.ctx s.cur).sr j = x.sr j) ∧ ∀ a, t.memByte a = (s.slot .c).memByte a) ∧
     (x.ready q < n.toNat + own → holds s (.twait r dir n) q)) ∧
  (∀ w : Nat, w < 2 ^ 32 → w % 64 = 0x29 → w / 2 ^ 28 < 2 →
     let n := w / 2 ^ 22 % 16
     let clear := w / 2 ^ 11 % 2 ^ 5 = 0 ∧ w / 2 ^ 16 % 2 ^ 6 = 0 ∧ w / 2 ^ 26 % 2 ^ 2 = 0 ∧ n ≠ 0
     let r : Ring :=
       { wp := w.testBit 6
         wn := w.testBit 7
         sp := w.testBit 8
         sn := w.testBit 9 }
     (clear → decodeWord .c w = .ok (if w / 2 ^ 28 = 0 then .token r (w.testBit 10) (BitVec.ofNat 4 n)
       else .twait r (w.testBit 10) (BitVec.ofNat 4 n))) ∧
     (¬ clear → decodeWord .c w = .error .reservedField))

/-! ### Control registers, views, traps -/

/-- The CSR group, TIME and TRAP (R54, R124, R126, R127, R134): CSRR samples the register in its slot and lands three slots later; a write
takes effect at the start of the next slot; every CSR instruction that names 0x300 to 0x3FF faults with PRIVILEGED and the number;
TIME lands DEVTIME one slot later; TRAP takes TRAP_INSTRUCTION with its code. The words of the group: a number that R54 reserves is an encoding
fault with RESERVED_OPCODE.
It rests on readings and choices of the model: log entries 19 and 34. -/
def Obligations.CsrAndTrapResults : Prop :=
  (∀ (s : State) (r : Ring) (g : SReg) (n : BitVec 10), s.Opens .c r →
     let G := (s.slotCtx .c).sr g
     (n.toNat < 0x300 →
       exec (.csrr r g n) s = .next (s.yields .c r 3 (.scalar g ((s.slot .c).csrRead s.cur n.toNat))) ∧
       exec (.csrw r g n) s = .next (s.yields .c r 1 (.csr n .w G)) ∧
       exec (.csrs r g n) s = .next (s.yields .c r 1 (.csr n .s G)) ∧
       exec (.csrc r g n) s = .next (s.yields .c r 1 (.csr n .c G))) ∧
     (0x300 ≤ n.toNat → ∀ i ∈ [Instr.csrr r g n, .csrw r g n, .csrs r g n, .csrc r g n],
       exec i s = .next (s.traps .c .privileged (n.setWidth 64))) ∧
     exec (.time r g) s = .next (s.yields .c r 1 (.scalar g (s.slot .c).devTime))) ∧
  (∀ (s : State) (r : Ring) (code : BitVec 6), s.Opens .c r →
     exec (.trap r code) s = .next ((s.slot .c).takeFault s.cur .c .trapInstruction (code.setWidth 64) false)) ∧
  (∀ w : Nat, w < 2 ^ 32 → w % 64 = 0x25 → w / 2 ^ 16 % 16 < 4 →
     let n := w / 2 ^ 22
     let known := n < 0x004 ∨ (0x010 ≤ n ∧ n < 0x013) ∨ (0x014 ≤ n ∧ n < 0x017) ∨ (0x020 ≤ n ∧ n < 0x026) ∨ n = 0x030 ∨ n = 0x031 ∨
       (0x040 ≤ n ∧ n < 0x043) ∨ (0x050 ≤ n ∧ n < 0x053) ∨ (0x054 ≤ n ∧ n < 0x060) ∨ 0x300 ≤ n
     let r : Ring :=
       { wp := w.testBit 6
         wn := w.testBit 7
         sp := w.testBit 8
         sn := w.testBit 9 }
     let g := BitVec.ofNat 6 (w / 2 ^ 10)
     let k := BitVec.ofNat 10 n
     (¬ known → ∃ x, decodeWord .c w = .error x ∧ x.cause = .reservedOpcode) ∧
     (known → w / 2 ^ 20 % 4 = 0 → ∀ i, [Instr.csrr r g k, .csrw r g k, .csrs r g k, .csrc r g k][w / 2 ^ 16 % 16]? = some i →
       decodeWord .c w = .ok i))

/-- What a CSR write does to each field (R16, R59, R60, R90, R125, R166, R167, R210, R213, R367 to R369, R396, R397): a read-write
field takes g, its OR or its AND NOT; a write-one-to-clear field loses the ones of g under CSRW and CSRS and nothing under CSRC, but
what hardware sets in the same cycle stays set; a value that a field does not accept leaves the field; VALID of a weight view is
recomputed from its new fields; reserved bits read zero. Every other register, memory and the rest of the machine keep theirs: a write
changes its own field of the context, and one to a register that the task may only read changes nothing.
It rests on readings and choices of the model: log entry 121. -/
def Obligations.CsrWriteEffects : Prop :=
  ∀ (s : State) (c : CoreId) (op : CsrOp) (g : Word),
    let after := fun (n : Nat) => s.csrWrite c n op g
    let x := s.ctx c
    let old := fun (n : Nat) => s.csrRead c n
    let rw := fun (n : Nat) => match op with
      | .w => g
      | .s => old n ||| g
      | .c => old n &&& ~~~g
    let clears := fun (i : Nat) => op ≠ .c ∧ g.getLsbD i = true
    let only := fun (n : Nat) (z : Ctx → Ctx) => after n = s.modCtx c fun _ => z ((after n).ctx c)
    ((after 0x012).csrRead c 0x012 = ((rw 0x012).extractLsb' 0 32).setWidth 64 ∧
      only 0x012 fun y => { x with wdog := y.wdog }) ∧
    ((let y := (after 0x014).ctx c
      (¬ clears 0 → after 0x014 = s.modCtx c fun _ => x) ∧
      (clears 0 → x.oorNow = none → after 0x014 = s.modCtx c fun _ => { x with oorFlag := false }) ∧
      ∀ o, clears 0 → x.oorNow = some o → y.oorFlag = true ∧ y.oorStream = o.stream ∧ y.oorSpace = o.space ∧
        y.oorWrite = o.write ∧ y.oorAddr = o.addr) ∧ only 0x014 x.withOor) ∧
    ((after 0x021).csrRead c 0x021 = rw 0x021 ∧ only 0x021 fun y => { x with trapPc := y.trapPc }) ∧
    (((after 0x025).ctx c).tsp = (if (rw 0x025).extractLsb' 48 6 = 0 then (rw 0x025).extractLsb' 48 16 else x.tsp) ∧
      only 0x025 fun y => { x with tsp := y.tsp }) ∧
    ((after 0x030).csrRead c 0x030 = ((rw 0x030).extractLsb' 0 32).setWidth 64 ∧
      only 0x030 fun y => { x with depCount := y.depCount }) ∧
    ((∀ i, ((after 0x041).csrRead c 0x041).getLsbD i = true ↔
        ((old 0x041).getLsbD i = true ∧ ¬ clears i) ∨ x.vNow.getLsbD i = true) ∧
      only 0x041 fun y => { x with vflags := y.vflags }) ∧
    ((∀ i, ((after 0x050).csrRead c 0x050).getLsbD i = true ↔
        ((old 0x050).getLsbD i = true ∧ ¬ clears i) ∨ x.mNow.getLsbD i = true) ∧
      only 0x050 fun y => { x with mflags := y.mflags }) ∧
    ((let y := (after 0x040).ctx c
      let v := (rw 0x040).toNat
      y.arm.toNat = (if v % 8 ≤ 4 then v % 8 else x.arm.toNat) ∧
      y.crm.toNat = (if v / 2 ^ 3 % 8 ≤ 5 then v / 2 ^ 3 % 8 else x.crm.toNat) ∧
      y.srk.toNat = (if 8 ≤ v / 2 ^ 6 % 32 ∧ v / 2 ^ 6 % 32 ≤ 23 then v / 2 ^ 6 % 32 else x.srk.toNat) ∧
      y.ftz = (rw 0x040).getLsbD 11 ∧ y.daz = (rw 0x040).getLsbD 12 ∧ y.sat = (rw 0x040).getLsbD 13) ∧
      only 0x040 fun y => { x with arm := y.arm, crm := y.crm, srk := y.srk, ftz := y.ftz, daz := y.daz, sat := y.sat }) ∧
    ((after 0x051).csrRead c 0x051).toNat =
      (if (rw 0x051).toNat % 8 ≤ 4 then (rw 0x051).toNat % 8 else (old 0x051).toNat) ∧
    (only 0x051 fun y => { x with mcrm := y.mcrm }) ∧
    (∀ i, i < 4 →
      let v := rw (0x054 + i)
      let got := (after (0x054 + i)).csrRead c (0x054 + i)
      let base := (v.extractLsb' 0 21).toNat
      let pitch := (v.extractLsb' 21 16).toNat
      let rows := (v.extractLsb' 37 10).toNat + 1
      let cols := (v.extractLsb' 47 10).toNat + 1
      let maj := v.getLsbD 62
      let lines := if maj then cols else rows
      let elems := if maj then rows else cols
      let ok := fun (f : Fmt) =>
        let lb := (elems * f.width + 7) / 8
        (f.width < 8 → maj = false) ∧ base % 64 = 0 ∧ pitch % 16 = 0 ∧ (1 < lines → lb ≤ pitch) ∧
        base + (lines - 1) * pitch + lb ≤ (s.core c).inRange .wb
      (∀ b, b < 63 → got.getLsbD b = v.getLsbD b) ∧
      (got.getLsbD 63 = true ↔ ∃ f, fmtOf (v.extractLsb' 57 5).toNat = some f ∧ ok f) ∧
      (∀ j, j ≠ i → ((after (0x054 + i)).ctx c).wv.getD j 0 = x.wv.getD j 0) ∧
      only (0x054 + i) fun y => { x with wv := y.wv }) ∧
    (∀ i, i < 8 →
      let got := (after (0x058 + i)).csrRead c (0x058 + i)
      (∀ b, b < 64 → got.getLsbD b = ((rw (0x058 + i)).getLsbD b &&
        !((i == 0 && decide (6 ≤ b ∧ b < 15)) || (i == 1 && decide (b < 8))))) ∧
      (∀ j, j ≠ i → ((after (0x058 + i)).ctx c).mn.getD j 0 = x.mn.getD j 0) ∧
      only (0x058 + i) fun y => { x with mn := y.mn }) ∧
    (∀ n, n ≠ 0x012 → n ≠ 0x014 → n ≠ 0x021 → n ≠ 0x025 → n ≠ 0x030 → n ≠ 0x040 → n ≠ 0x041 → n ≠ 0x050 → n ≠ 0x051 →
      ¬ (0x054 ≤ n ∧ n ≤ 0x05F) → after n = s.modCtx c (fun _ => x) ∧ ∀ m, (after n).csrRead c m = old m) ∧
    ∀ n, (after n).mem = s.mem ∧ ∀ j, ((after n).ctx c).sr j = x.sr j

/-- VIEW (R37, R42, R128): a base of OF, a multiple of 128 below 2^32 whose 128 bytes lie in the in-range OF or in one granted lent
window, becomes the view's base from the next slot on; any other value faults with VIEW_INVALID and is reported. TDESC (R129, R130):
with INV the view becomes invalid; a descriptor that passes the checks becomes the view from the next slot on; any other faults with
VIEW_INVALID and TRAPADDR = BASE.
It rests on readings and choices of the model: log entry 26. -/
def Obligations.ViewInstructionResults : Prop :=
  (∀ (s : State) (r : Ring) (vd : VReg) (a : SReg), s.Opens .c r →
     let x := s.slotCtx .c
     let w := (x.sr a).toNat
     let fits := w + 128 ≤ ((s.slot .c).core s.cur).inRange .ofs ∨
       ∃ i < 3, x.lend.getLsbD i = true ∧ 0x100000 + 0x40000 * i ≤ w ∧ w + 128 ≤ 0x130000 + 0x40000 * i
     let ok := w < 2 ^ 32 ∧ w % 128 = 0 ∧ fits
     (ok → exec (.view r vd a) s = .next (s.yields .c r 1 (.view vd (BitVec.ofNat 32 w)))) ∧
     (¬ ok → exec (.view r vd a) s = .next (s.traps .c .viewInvalid (x.sr a)))) ∧
  (∀ (s : State) (r : Ring) (d : BitVec 5) (a b : SReg), s.Opens .c r →
     let x := s.slotCtx .c
     let k := (s.slot .c).core s.cur
     let A := x.sr a
     let B := x.sr b
     let acc := d.getLsbD 4
     let dest := fun (v : Option TView) => if acc then Dest.aview (d.setWidth 4) v else Dest.tview (d.setWidth 4) v
     let base := (A.extractLsb' 0 32).toNat
     let pitch := (A.extractLsb' 32 24).toNat
     let rows := (B.extractLsb' 0 10).toNat + 1
     let cols := (B.extractLsb' 10 10).toNat + 1
     let maj := B.getLsbD 25
     let code := fmtOf (B.extractLsb' 20 5).toNat
     let lines := if maj then cols else rows
     let elems := if maj then rows else cols
     let ok := fun (f : Fmt) =>
       let lb := (elems * f.width + 7) / 8
       let last := base + (lines - 1) * pitch + lb
       A.extractLsb' 56 8 = 0 ∧ B.extractLsb' 27 37 = 0 ∧
       (acc = true → (f = .f32 ∨ f = .f64 ∨ f = .i32) ∧ maj = false) ∧ (f.width < 8 → maj = false) ∧
       base % 64 = 0 ∧ pitch % 16 = 0 ∧ (1 < lines → lb ≤ pitch) ∧
       (acc = true → 0x40000 ≤ base ∧ last ≤ 0x40000 + k.inRange .acs) ∧
       (acc = false → last ≤ k.inRange .ofs ∨
         ∃ i < 3, x.lend.getLsbD i = true ∧ 0x100000 + 0x40000 * i ≤ base ∧ base < 0x130000 + 0x40000 * i ∧
           last ≤ 0x130000 + 0x40000 * i)
     let bad := exec (.tdesc r d a b) s = .next (s.traps .c .viewInvalid (BitVec.ofNat 64 base))
     (B.getLsbD 26 = true → exec (.tdesc r d a b) s = .next (s.yields .c r 1 (dest none))) ∧
     (B.getLsbD 26 = false →
       (code = none → bad) ∧
       ∀ f, code = some f →
         (ok f → exec (.tdesc r d a b) s = .next (s.yields .c r 1 (dest (some
           { base := base, pitch := pitch, rows := rows, cols := cols, fmt := f, maj := maj })))) ∧
         (¬ ok f → bad)))

/-- Handler entry (R393, R396, R397, R398, R401, R482): with TE clear and a handler, a fault writes CAUSE, TRAPPC, TRAPADDR
and TSTAT, writes the frame of eight words at CR TSP − 64, sets TE, moves TSP, sets the C stream aside and starts the handler
in it; the other streams, the registers, STREAMS and memory keep what they had. An odd handler entry escalates with MISALIGNED (the
model's choice, log entry 120). The cause CORE_FROZEN (R420: a read of a failed lender's window) freezes the core; a core that is
stopped already takes no other fault. A C instruction whose request has been sent completes before the freeze takes hold. Without a handler (R398, R399) CAUSE, TRAPPC, TRAPADDR and TSTAT receive the fault, TE
stays clear, the core freezes for the management core and its task is FROZEN. A fault while TE is set goes to NESTCAUSE and NESTADDR
and sets NEST; CAUSE, TRAPPC and TRAPADDR keep the first fault; the core stays frozen for the management core.
It rests on readings and choices of the model: log entries 31, 36, 37, 91 and 120. -/
def Obligations.FaultEntryEffects : Prop :=
  (∀ (s : State) (c : CoreId) (e : Strm) (k : Cause) (addr : Word) (defer : Bool) (bs : List Byte),
     let x := s.ctx c
     let pkt := s.pktOf c
     let top := if x.tsp = 0 then 0x10000 else x.tsp.toNat
     let F := top - 64
     let pc := ((x.str e).pc).extractLsb' 0 64
     let t := s.takeFault c e k addr defer
     let y := t.ctx c
     let word := fun (j : Nat) => leNat (t.localBytes c 4 .cr (F + 8 * j) 8)
     x.te = false → k ≠ .coreFrozen → (s.core c).frz = none →
     (e = .c ∨ ∀ q, x.strC.sent = some q → q.req.mustComplete = false) → pktField pkt 0x28 8 ≠ 0 →
     s.devRead (some c) (s.asidOf c) (pktAddr pkt 0x28 + 8 * e.num) 8 = .ok bs → leNat bs ≠ 0 →
     0x1000 ≤ F → s.badOf c 4 .cr (span F 64) = none →
       (leNat bs % 2 = 1 →
         y.nestCause.toNat = Cause.misaligned.code ∧ y.nestAddr = BitVec.ofNat 64 (leNat bs) ∧ y.tnest = true ∧ y.te = true ∧
         y.cause.toNat = k.code ∧ y.trapPc = pc ∧ y.trapAddr = addr ∧
         (∃ f, (t.core c).frz = some f ∧ f.settled = true ∧ f.report = true)) ∧
       (leNat bs % 2 = 0 →
       y.cause.toNat = k.code ∧ y.trapPc = pc ∧ y.trapAddr = addr ∧ y.tstream.toNat = e.num ∧ y.tdefer = defer ∧
       y.tdict = (x.str e).fromDict ∧ y.te = true ∧ y.tsp.toNat = F ∧ y.nestCause = x.nestCause ∧ y.nestAddr = x.nestAddr ∧
       y.tnest = x.tnest ∧ (t.core c).frz = none ∧
       y.strC = { Stream.reset with live := .live, pc := BitVec.ofNat 8 (pktVahi pkt) ++ BitVec.ofNat 64 (leNat bs) } ∧
       (∃ sh, y.shadow = some sh ∧ sh.live = x.strC.live ∧ sh.pc = x.strC.pc ∧ sh.queue = x.strC.queue ∧
         sh.skip = x.strC.skip ∧ sh.occ = x.strC.occ) ∧
       y.strV.queue = x.strV.queue ∧ y.strM.queue = x.strM.queue ∧ y.strX.queue = x.strX.queue ∧
       (List.range 8).map word = [k.code, pc.toNat, addr.toNat, x.tstat.toNat,
         (if e = .c then pc.toNat else if x.strC.live = .live then (x.strC.pc.extractLsb' 0 64).toNat else 0),
         (x.sr 48).toNat, (x.sr 49).toNat, (x.sr 50).toNat] ∧
       (∀ j, y.sr j = x.sr j) ∧ (∀ j, y.pr j = x.pr j) ∧ y.vflags = x.vflags ∧ y.mflags = x.mflags ∧ t.mem = s.mem ∧
       (x.shadow = none → (x.str e).join = none → t.csrRead c 0x010 = s.csrRead c 0x010) ∧
       ∀ a, t.memByte a = s.memByte a)) ∧
  (∀ (s : State) (c : CoreId) (e : Strm) (k : Cause) (addr : Word) (defer : Bool),
     let x := s.ctx c
     let t := s.takeFault c e k addr defer
     let y := t.ctx c
     (k = .coreFrozen → t = s.freezeCore c .coreFrozen) ∧
     (k ≠ .coreFrozen → (s.core c).frz.isSome = true → t = s.modStr c e fun q => { q with sent := none }) ∧
     ∀ q, x.te = false → k ≠ .coreFrozen → (s.core c).frz = none →
       e ≠ .c → x.strC.sent = some q → q.req.mustComplete = true →
         y.cause.toNat = k.code ∧ y.trapPc = ((x.str e).pc).extractLsb' 0 64 ∧ y.trapAddr = addr ∧ y.tstream.toNat = e.num ∧
         y.te = false ∧ y.strC.sent = some q ∧ y.strC.held = x.strC.held ∧
         (∃ f, (t.core c).frz = some f ∧ f.strm = e ∧ f.cause = k ∧ f.addr = addr ∧ f.settled = false ∧ f.report = false) ∧
         t.mem = s.mem) ∧
  ((∀ (s : State) (c : CoreId) (e : Strm) (k : Cause) (addr : Word) (defer : Bool),
      let x := s.ctx c
      let t := s.takeFault c e k addr defer
      let y := t.ctx c
      x.te = false → k ≠ .coreFrozen → (s.core c).frz = none →
      (e = .c ∨ ∀ q, x.strC.sent = some q → q.req.mustComplete = false) → pktField (s.pktOf c) 0x28 8 = 0 →
        y.cause.toNat = k.code ∧ y.trapPc = ((x.str e).pc).extractLsb' 0 64 ∧ y.trapAddr = addr ∧
        y.tstream.toNat = e.num ∧ y.tdefer = defer ∧ y.te = false ∧ y.tsp = x.tsp ∧ y.tnest = x.tnest ∧
        (∃ f, (t.core c).frz = some f ∧ f.strm = e ∧ f.cause = k ∧ f.addr = addr ∧ f.report = true) ∧
        (∀ b l, (s.core c).run = some b → s.launches.get? b.lid.toNat = some l →
          ∃ l', t.launches.get? b.lid.toNat = some l' ∧ (l'.task b.tidx.toNat).st = .frozen) ∧
        (∀ j, y.sr j = x.sr j) ∧ (t.core c).wlog = (s.core c).wlog ∧ t.mem = s.mem) ∧
   (∀ (s : State) (c : CoreId) (e : Strm) (k : Cause) (addr : Word) (defer : Bool),
      let x := s.ctx c
      let t := s.takeFault c e k addr defer
      let y := t.ctx c
      x.te = true → k ≠ .coreFrozen → (s.core c).frz = none →
        y.nestCause.toNat = k.code ∧ y.nestAddr = addr ∧ y.tnest = true ∧ y.te = true ∧ y.cause = x.cause ∧
        y.trapPc = x.trapPc ∧ y.trapAddr = x.trapAddr ∧ y.tsp = x.tsp ∧ y.tstream = x.tstream ∧
        (∃ f, (t.core c).frz = some f ∧ f.settled = true ∧ f.report = true) ∧
        (∀ b l, (s.core c).run = some b → s.launches.get? b.lid.toNat = some l →
          ∃ l', t.launches.get? b.lid.toNat = some l' ∧ (l'.task b.tidx.toNat).st = .frozen) ∧
        (∀ j, y.sr j = x.sr j) ∧ (t.core c).wlog = (s.core c).wlog ∧ t.mem = s.mem))

/-- ERET (R135, R400, R482): outside a handler it faults with PRIVILEGED; while the handler's landing queue holds entries it waits
and the queue drains; then TE is cleared, TSP rises by 64, s48 to s50 come from the frame, the C stream set aside is restored,
and the faulting stream resumes at TRAPPC. A return to an odd address faults with MISALIGNED (R66).
It rests on readings and choices of the model: log entries 33 and 37. -/
def Obligations.EretReturns : Prop :=
  ∀ (s : State) (r : Ring), s.Opens .c r →
    let x := s.slotCtx .c
    let u := s.slot .c
    let F := if x.tsp = 0 then 0x10000 else x.tsp.toNat
    let word := fun (j : Nat) => leNat (u.localBytes s.cur 0 .cr (F + 8 * j) 8)
    let at' := fun (w : Word) => BitVec.ofNat 8 (u.vahi s.cur) ++ w
    (x.te = false → exec (.eret r) s = .next (s.traps .c .privileged 0)) ∧
    (x.te = true → x.strC.queue ≠ [] →
      exec (.eret r) s = .next ((s.idleSlot s.cur .c).waitCycle s.cur .c otherWait)) ∧
    (x.te = true → x.strC.queue = [] → u.badOf s.cur 0 .cr (span F 64) = none → x.trapPc.getLsbD 0 = true →
      exec (.eret r) s = .next (s.traps .c .misaligned x.trapPc)) ∧
    (∀ (sh : Stream) (e : Strm), x.te = true → x.strC.queue = [] → u.badOf s.cur 0 .cr (span F 64) = none →
      x.trapPc.getLsbD 0 = false → x.shadow = some sh → x.tstream.toNat = e.num →
      (e ≠ .c → sh.live = .live → word 4 % 2 = 0) →
      ∃ t, exec (.eret r) s = .next t ∧
        let y := t.ctx s.cur
        y.te = false ∧ y.tsp = x.tsp + 64 ∧ y.shadow = none ∧
        y.sr 48 = BitVec.ofNat 64 (word 5) ∧ y.sr 49 = BitVec.ofNat 64 (word 6) ∧ y.sr 50 = BitVec.ofNat 64 (word 7) ∧
        (∀ j, j ≠ 48 → j ≠ 49 → j ≠ 50 → y.sr j = x.sr j) ∧
        y.strC.live = sh.live ∧ y.strC.queue = sh.queue ∧ y.strC.skip = sh.skip ∧ y.strC.occ = sh.occ ∧
        (sh.live = .live → y.strC.pc = at' (if e = .c then x.trapPc else BitVec.ofNat 64 (word 4))) ∧
        (e ≠ .c → (y.str e).pc = at' x.trapPc ∧ (y.str e).queue = (x.str e).queue) ∧
        (∀ f, f ≠ .c → f ≠ e → y.str f = x.str f) ∧
        y.cause = x.cause ∧ y.trapPc = x.trapPc ∧ y.trapAddr = x.trapAddr ∧
        (∀ f, f ≠ .c → Agent.strm s.cur f ∉ t.sched) ∧ t.mem = u.mem)

/-! ### Local memory -/

/-- Local loads (R52, R96, R118 to R121, R286): EA modulo 2^64; a misaligned EA faults; an uncorrectable byte faults with its address, one in the
window of a lender that has failed freezes the core (R420); an OF
bank that refreshes in this cycle stalls the load; else the bytes, out-of-range ones as zero, land zero-extended after 3, 6 or 12
slots, and the lowest out-of-range address is recorded. The record (R44, R60, R61): of the accesses of one cycle the one of the lowest
stream, at its lowest address, is recorded, with its space and direction, unless a record stands from an earlier cycle; nothing else
changes.
It rests on readings and choices of the model: log entries 28 and 40. -/
def Obligations.LocalLoadResults : Prop :=
  (∀ (s : State) (r : Ring) (d a b : SReg) (sz : Sz) (sp : LSp) (off : BitVec 6), s.Opens .c r →
     let x := s.slotCtx .c
     let u := s.slot .c
     let n : Nat := match sz with
       | .b => 1
       | .h => 2
       | .w => 4
       | .d => 8
     let space := match sp with
       | .cr => Space.cr
       | .xb => .xb
       | .ofs => .ofs
     let load := fun (i : Instr) (ea : Word) =>
       let as := (List.range n).map (ea.toNat + ·)
       let reads := if sp = .ofs then as else []
       let lat := if sp = .cr then 3 else if (windowOf space ea.toNat).isSome then 12 else 6
       (ea.toNat % n ≠ 0 → exec i s = .next (s.traps .c .misaligned ea)) ∧
       (ea.toNat % n = 0 → s.refreshHit reads = true →
         exec i s = .next s) ∧
       (ea.toNat % n = 0 → s.refreshHit reads = false →
         (∀ k, u.ldBad s.cur 0 space as = some k →
           s.FailsRead .c i space k) ∧
         (u.ldBad s.cur 0 space as = none → exec i s = .next (State.complete s.cur .c r
           (Done.one (u.oorNote s.cur .c space false (minOf (u.ldOut s.cur 0 space as)))
             (New.plain lat (.scalar d (BitVec.ofNat 64 (leNat (as.map (u.ldByte s.cur 0 space))))))))))
     load (.ld r d a sz sp off) (BitVec.ofInt 64 ((x.sr a).toNat + off.toInt * n)) ∧
     load (.ldx r d a b sz sp) (BitVec.ofNat 64 ((x.sr a).toNat + (x.sr b).toNat * n))) ∧
  (∀ (s : State) (c : CoreId) (e : Strm) (sp : Space) (write : Bool) (low : Nat), low < 2 ^ 64 →
     let x := s.ctx c
     let t := s.oorNote c e sp write (some low)
     let y := t.ctx c
     let first := ∀ o, x.oorNow = some o → e.num < o.stream.toNat ∨ (e.num = o.stream.toNat ∧ low < o.addr.toNat)
     let seen := { x with oorNow := some (⟨BitVec.ofNat 2 e.num, BitVec.ofNat 4 sp.code, write, BitVec.ofNat 64 low⟩ : Oor) }
     t = s.modCtx c (fun _ => y) ∧
     (first → x.oorFlag = false ∨ x.oorFresh = true →
       y = seen.withOor y ∧ y.oorNow = seen.oorNow ∧ y.oorFlag = true ∧ y.oorFresh = true ∧ y.oorAddr.toNat = low ∧
       y.oorStream.toNat = e.num ∧ y.oorSpace.toNat = sp.code ∧ y.oorWrite = write) ∧
     (first → x.oorFlag = true → x.oorFresh = false → y = seen) ∧
     (¬ first → y = x) ∧ s.oorNote c e sp write none = s)

/-- Local stores (R44, R118 to R121, R299) and PFT (R123): a misaligned EA faults; a store that a region counter refuses sets
its OVF and faults with ARRIVAL_OVERFLOW and EA; any other store is performed, recorded and counted in its slot. PFT has no
effect.
It rests on readings and choices of the model: log entries 28 and 56. -/
def Obligations.LocalStoreResults : Prop :=
  ∀ (s : State) (r : Ring) (d a b : SReg) (sz : Sz) (sp : LSp) (off : BitVec 6), s.Opens .c r →
    let x := s.slotCtx .c
    let u := s.slot .c
    let n : Nat := match sz with
      | .b => 1
      | .h => 2
      | .w => 4
      | .d => 8
    let space := match sp with
      | .cr => Space.cr
      | .xb => .xb
      | .ofs => .ofs
    let store := fun (i : Instr) (ea : Word) =>
      let cells := (List.range n).map fun k => (ea.toNat + k, (x.sr d).extractLsb' (8 * k) 8)
      let as := (List.range n).map (ea.toNat + ·)
      (ea.toNat % n ≠ 0 → exec i s = .next (s.traps .c .misaligned ea)) ∧
      (ea.toNat % n = 0 → u.localRefusers s.cur space as = [] →
        exec i s = .next (s.passes .c r fun w =>
          (w.oorNote s.cur .c space true (minOf (w.outOf s.cur space as))).localStore s.cur 0 space cells 0)) ∧
      (ea.toNat % n = 0 → ∀ l, l ≠ [] → u.localRefusers s.cur space as = l →
        exec i s = .next ((u.setLocalOvf l).takeFault s.cur .c .arrivalOverflow ea false))
    store (.st r d a sz sp off) (BitVec.ofInt 64 ((x.sr a).toNat + off.toInt * n)) ∧
    store (.stx r d a b sz sp) (BitVec.ofNat 64 ((x.sr a).toNat + (x.sr b).toNat * n)) ∧
    exec (.pft r a sz sp off) s = .next (s.passes .c r id)

/-- The frame of ST and STX to a local space (R44, R53, R119): where no region entry counts and the store issues, the C stream reads
the register's bytes at EA to EA + size − 1, zero at those out of range, and every other byte of every buffer and of memory, every
register and every flag as before.
It rests on readings and choices of the model: log entry 14. -/
def Obligations.LocalStoreFrame : Prop :=
  ∀ (s t : State) (r : Ring) (d a b : SReg) (sz : Sz) (sp : LSp) (off : BitVec 6) (i : Instr), s.Opens .c r →
    let x := s.slotCtx .c
    let u := s.slot .c
    let n := szBytes sz
    let ea := if i = .stx r d a b sz sp then eaX x a b sz else eaL x a sz off
    i = .st r d a sz sp off ∨ i = .stx r d a b sz sp →
    (∀ k, (u.ctx k).regs = []) → ea.toNat % n = 0 → exec i s = .next t →
      let y := t.ctx s.cur
      (∀ k, k < n → t.localByte s.cur 0 (lspSpace sp) (ea.toNat + k) =
        if (u.cellOf s.cur (lspSpace sp) (ea.toNat + k)).isSome then (x.sr d).extractLsb' (8 * k) 8 else 0) ∧
      (∀ space a', ¬ (space = lspSpace sp ∧ ea.toNat ≤ a' ∧ a' < ea.toNat + n) → space ≠ .t2 →
        t.localByte s.cur 0 space a' = u.localByte s.cur 0 space a') ∧
      (∀ a', t.memByte a' = u.memByte a') ∧ t.t2 = u.t2 ∧
      (∀ j, y.sr j = x.sr j) ∧ (∀ j, y.pr j = x.pr j) ∧ (∀ j, y.kr j = x.kr j) ∧ y.vflags = x.vflags ∧ y.mflags = x.mflags ∧
      y.cause = x.cause ∧ y.trapPc = x.trapPc ∧ y.te = x.te ∧ y.strC.queue = x.strC.queue.map Landing.tick ∧
      y.strV = x.strV ∧ y.strM = x.strM ∧ y.strX = x.strX

/-! ### Virtual memory -/

/-- Virtual accesses of C (R290 to R294): a misaligned address faults before anything is sent; a request that has to be sent or is
under way holds the stream, whose results stay where they are (R48); an answered load, AMO or CAS lands its value one slot later,
an answered store completes; a failed one faults with the cause and address of its answer. PFT loads a translation and completes
at once.
It rests on readings and choices of the model: log entries 17, 22, 56 and 57. -/
def Obligations.VirtualAccessResults : Prop :=
  ∀ (s : State) (r : Ring) (d a b : SReg) (sz : Sz) (off : BitVec 6), s.Opens .c r →
    let x := s.slotCtx .c
    let u := s.slot .c
    let A := x.sr a
    let B := x.sr b
    let D := x.sr d
    let n : Nat := match sz with
      | .b => 1
      | .h => 2
      | .w => 4
      | .d => 8
    let eaL := BitVec.ofInt 64 (A.toNat + off.toInt * n)
    let eaX := BitVec.ofNat 64 (A.toNat + B.toNat * n)
    let at' := fun (w : Word) => BitVec.ofNat 8 (u.vahi s.cur) ++ w
    let common := fun (i : Instr) (ea : Word) (m : Nat) (q : Req) =>
      (ea.toNat % m ≠ 0 → exec i s = .next (s.traps .c .misaligned ea)) ∧
      (ea.toNat % m = 0 → u.unanswered s.cur .c →
        exec i s = .next ((if (u.ctx s.cur).strC.sent = none then s.send s.cur .c q else s).waitCycle s.cur .c otherWait)) ∧
      (ea.toNat % m = 0 → ∀ w k addr, u.asked s.cur .c q w (.fault k addr) →
        exec i s = .next (w.takeFault s.cur .c k addr false))
    let load := fun (i : Instr) (ea : Word) (m : Nat) (q : Req) => common i ea m q ∧
      (ea.toNat % m = 0 → ∀ w bs, u.asked s.cur .c q w (.bytes bs) → exec i s =
        .next (State.complete s.cur .c r (Done.one w (New.plain 1 (.scalar d (BitVec.ofNat 64 (leNat bs))))))) ∧
      (ea.toNat % m = 0 → ∀ w v, u.asked s.cur .c q w (.word v) → exec i s =
        .next (State.complete s.cur .c r (Done.one w (New.plain 1 (.scalar d v)))))
    let store := fun (i : Instr) (ea : Word) (m : Nat) (q : Req) => common i ea m q ∧
      (ea.toNat % m = 0 → ∀ w, u.asked s.cur .c q w .done → exec i s = .next (State.complete s.cur .c r (Done.plain w)))
    load (.ldVm r d a sz off) eaL n (.ld (at' eaL) n) ∧
    load (.ldxVm r d a b sz) eaX n (.ld (at' eaX) n) ∧
    store (.stVm r d a sz off) eaL n (.st (at' eaL) n D) ∧
    store (.stxVm r d a b sz) eaX n (.st (at' eaX) n D) ∧
    load (.amoAdd r d a b) A 8 (.amo .add (at' A) B) ∧ load (.amoAnd r d a b) A 8 (.amo .and (at' A) B) ∧
    load (.amoOr r d a b) A 8 (.amo .or (at' A) B) ∧ load (.amoXor r d a b) A 8 (.amo .xor (at' A) B) ∧
    load (.amoMin r d a b) A 8 (.amo .min (at' A) B) ∧ load (.amoMax r d a b) A 8 (.amo .max (at' A) B) ∧
    load (.amoMinn r d a b) A 8 (.amo .minn (at' A) B) ∧ load (.amoMaxn r d a b) A 8 (.amo .maxn (at' A) B) ∧
    load (.amoSwap r d a b) A 8 (.amo .swap (at' A) B) ∧
    load (.cas r d a b) A 8 (.cas (at' A) D B) ∧
    exec (.pftVm r a sz off) s = .next (s.passes .c r fun w => w.prefetch s.cur (at' eaL).toNat)

/-- What the home does (R287, R288, R290, R291, R293, R294). The translation of an access is kept in the core's cache, and nothing
else changes by it. Loads and stores: the first failing check answers with its cause and EA and nothing is performed; a load answers
the bytes of its address, a byte of an accepted store of the same core that has not been performed reading as the latest such store
left it; a store that passes is accepted, with its generation. Atomics, where no store of the core is under way and no entry counts:
the word read is the old one, the word left is the new one, no byte outside it changes, and a CAS that does not find its expected
value changes nothing; a performed store leaves its bytes and no others. The checks of a virtual access in their order (R284, R291,
R326): translation, protection, generation, then the footprint; of the first two the lowest failing piece counts.
It rests on readings and choices of the model: log entries 22, 40, 57 and 58. -/
def Obligations.HomeServesAccesses : Prop :=
  ((∀ (s : State) (c : CoreId) (va : VAddr) (n : Nat) (v : Word),
      let ea : Word := va.setWidth 64
      let u := s.cached c va.toNat
      let stores := (u.core c).pend
      let holds := fun (p : PStore) (a : Nat) => p.pa ≤ a ∧ a < p.pa + p.bytes.length
      (u.mem = s.mem ∧ u.regions = s.regions ∧ u.launches = s.launches ∧ ∀ k, u.ctx k = s.ctx k) ∧
      (∀ k, u.vmCheck c .r .load va.toNat n = .error k → s.serve c (.ld va n) = (u, .fault k ea)) ∧
      (∀ l, u.vmCheck c .r .load va.toNat n = .ok l →
        let w := u.settleOwn c l
        (w.badPiece l = none → s.serve c (.ld va n) = (w, .bytes (w.readPieces l))) ∧
        (stores = [] → w = u) ∧
        (∀ a, (∃ q ∈ l, q.1 ≤ a ∧ a < q.1 + q.2) →
          (∀ p older newer, stores = older ++ p :: newer → holds p a → (∀ q ∈ newer, ¬ holds q a) →
            p.bytes[a - p.pa]? = some (w.memByte a)) ∧
          ((∀ q ∈ stores, ¬ holds q a) → w.memByte a = s.memByte a))) ∧
      (∀ k, u.vmCheck c .w .store va.toNat n = .error k → s.serve c (.st va n v) = (u, .fault k ea)) ∧
      (∀ l, u.vmCheck c .w .store va.toNat n = .ok l → u.sealedHit l = true →
        s.serve c (.st va n v) = (u, .fault .sealedWrite ea)) ∧
      (∀ l, u.vmCheck c .w .store va.toNat n = .ok l → u.sealedHit l = false → u.dieRefusers l ≠ [] →
        s.serve c (.st va n v) = (u.setOvf (u.dieRefusers l), .fault .arrivalOverflow ea)) ∧
      (∀ pa m, u.vmCheck c .w .store va.toNat n = .ok [(pa, m)] → u.sealedHit [(pa, m)] = false →
        u.dieRefusers [(pa, m)] = [] →
        s.serve c (.st va n v) = (u.modCore c fun k =>
          { k with pend := k.pend ++ [{ va := va.toNat, pa := pa, bytes := leBytes n v.toNat, gen := u.genOf c }] }, .done))) ∧
   (∀ (s : State) (c : CoreId) (va : VAddr) (pa : Nat) (b e : Word) (op : AmoOp),
      let u := s.cached c va.toNat
      let old := BitVec.ofNat 64 (leNat (s.memRead pa 8))
      let new := match op with
        | .add => BitVec.ofNat 64 (old.toNat + b.toNat)
        | .and => old &&& b
        | .or => old ||| b
        | .xor => old ^^^ b
        | .min => BitVec.ofInt 64 (min old.toInt b.toInt)
        | .max => BitVec.ofInt 64 (max old.toInt b.toInt)
        | .minn => BitVec.ofNat 64 (min old.toNat b.toNat)
        | .maxn => BitVec.ofNat 64 (max old.toNat b.toNat)
        | .swap => b
      let l := [(pa, 8)]
      u.vmCheck c .rw .atomic va.toNat 8 = .ok l → (s.core c).pend = [] → s.regions = [] → u.badPiece l = none →
        (∃ t, s.serve c (.amo op va b) = (t, .word old) ∧ leNat (t.memRead pa 8) = new.toNat ∧
          (∀ a, ¬ (pa ≤ a ∧ a < pa + 8) → t.memByte a = s.memByte a) ∧ t.cores = u.cores) ∧
        (old = e → ∃ t, s.serve c (.cas va e b) = (t, .word old) ∧ leNat (t.memRead pa 8) = b.toNat ∧
          (∀ a, ¬ (pa ≤ a ∧ a < pa + 8) → t.memByte a = s.memByte a) ∧ t.cores = u.cores) ∧
        (old ≠ e → s.serve c (.cas va e b) = (u, .word old)) ∧
        ∀ p : PStore, p.pa = pa → p.bytes = leBytes 8 b.toNat →
          leNat ((s.performStore c p).memRead pa 8) = b.toNat ∧
          ∀ a, ¬ (pa ≤ a ∧ a < pa + 8) → (s.performStore c p).memByte a = s.memByte a)) ∧
  (∀ (s : State) (c : CoreId) (p : Perm) (acc : Acc) (ea n : Nat),
     let asid := s.asidOf c
     (∀ k a, s.vRange (some c) asid p ea n = .error (k, a) → s.vmCheck c p acc ea n = .error k) ∧
     (∀ l, s.vRange (some c) asid p ea n = .ok l →
       (∀ k a, s.footCheck c acc .virt ea n = some (k, a) →
         s.vmCheck c p acc ea n = .error k ∧ (k = .undeclaredAccess ∨ k = .race)) ∧
       (s.footCheck c acc .virt ea n = none → s.vmCheck c p acc ea n = .ok l)) ∧
     (∀ sp l, ea + n ≤ 2 ^ 72 → s.space asid = some sp → s.piecesCheck (some c) asid p (vPieces ea n) = .ok l →
       s.vRange (some c) asid p ea n = if sp.retired then .error (.staleGeneration, ea) else .ok l) ∧
     (∀ q t, s.translateFor (some c) asid q.1 = .ok t →
       s.pieceCheck (some c) asid p q =
         if t.pte.testBit 63 then .error (.protection, q.1)
         else if (s.paKind t.pa).isNone then .error (.translation, q.1)
         else if (match p with
           | .any => true
           | .r => t.pte.testBit 1
           | .w => t.pte.testBit 2
           | .rw => t.pte.testBit 1 && t.pte.testBit 2
           | .x => t.pte.testBit 3) then .ok (t.pa, q.2)
         else .error (.protection, q.1)) ∧
     (∀ q k, s.translateFor (some c) asid q.1 = .error k → s.pieceCheck (some c) asid p q = .error (k, q.1)))

/-- Memory as bytes: what a write of physical pieces leaves (R278, R297, R298). Bytes written are read back, the others stay, and memory
keeps its canonical form; the write takes the next identity, which its requester holds until the home has acknowledged it.
It rests on readings and choices of the model: log entry 3. -/
def Obligations.PhysicalWriteReadsBack : Prop :=
  ∀ (s : State) (src : WSrc) (via : Option (BitVec 16)) (addr pa : Nat) (bs : List Byte),
    let t := s.performWrite src via addr [(pa, bs.length)] bs
    t.memRead pa bs.length = bs ∧ (∀ a, ¬ (pa ≤ a ∧ a < pa + bs.length) → t.memByte a = s.memByte a) ∧
    (s.MemoryCanonical → t.MemoryCanonical) ∧ t.cores = s.cores ∧ t.launches = s.launches ∧
    t.wid = s.wid + 1 ∧ ∃ w, t.unacked.getLast? = some w ∧ w.wid = s.wid ∧ w.src = src

/-! ### Barriers, region entries, seals, fences -/

/-- The barrier object (R261, R264, R265): what BARI writes, what an arrival does, and that the sixteen bytes hold the object. BARI, BARA
and BARW (R262, R264 to R266): a misaligned address faults; in a local space the object is written, or read, changed and written, in
the slot, an over-arrival leaving OVR and faulting; in virtual memory the instruction issues when the home has answered. BARW lands 1
when the phase is another, 0 when its bound has passed, and waits otherwise; one that waits in virtual memory is told of every advance
by the home, and lands 1 though the phase has come round again (R266).
It rests on readings and choices of the model: log entries 17, 24, 28, 40, 59 and 153. -/
def Obligations.BarrierResults : Prop :=
  (∀ (o : Barrier) (n b : Nat) (drop : Bool) (now : Word),
     let q := o.arrive n drop now
     let next := if drop then o.next - n else o.next
     (o.pend < n → q = ({ o with ovr := true }, true)) ∧
     (n < o.pend → q = ({ o with pend := o.pend - n, next := next }, false)) ∧
     (o.pend = n → q.2 = false ∧ q.1.exp = next ∧ q.1.pend = next ∧ q.1.next = next ∧ q.1.bph = (o.bph + 1) % 16 ∧
       q.1.ovr = o.ovr ∧ q.1.time = now.toNat) ∧
     (let i := Barrier.init b now
      i.exp = b % 65536 ∧ i.pend = b % 65536 ∧ i.next = b % 65536 ∧ i.bph = 0 ∧ i.ovr = false ∧ i.time = now.toNat) ∧
     (o.exp < 2 ^ 16 → o.pend < 2 ^ 16 → o.next < 2 ^ 16 → o.bph < 16 → o.time < 2 ^ 64 →
       Barrier.ofBytes o.bytes = o ∧ o.bytes.length = 16)) ∧
  (∀ (s : State) (r : Ring) (sp : BSp) (a b : SReg) (c1 : BitVec 4) (drop : Bool) (pd : PReg), s.Opens .c r →
     let x := s.slotCtx .c
     let u := s.slot .c
     let ad := x.sr a
     let W := x.sr b
     let as := (List.range 16).map (ad.toNat + ·)
     let va := BitVec.ofNat 8 (u.vahi s.cur) ++ ad
     let put := fun (l : Space) (o : Barrier) (w : State) =>
       (w.oorNote s.cur .c l true (minOf (w.outOf s.cur l as))).localStore s.cur 0 l
         (o.bytes.zipIdx.map fun p => (ad.toNat + p.2, p.1)) 0
     let seen := fun (l : Space) => u.oorNote s.cur .c l false (minOf (u.outOf s.cur l as))
     let quiet := fun (l : Space) => l ≠ .ofs ∨ s.refreshHit as = false
     let ends := fun (w : State) (v : Bool) => State.complete s.cur .c r (Done.one w (New.plain 1 (.pred pd v)))
     let i := exec (.bari r sp a b) s
     let j := exec (.bara r sp a c1 drop) s
     let k := exec (.barw r pd a b) s
     let o := fun (l : Space) => Barrier.ofBytes (u.localBytes s.cur 0 l ad.toNat 16)
     let late := (W.extractLsb' 32 32).toNat ≤ x.strC.bounded
     (ad.toNat % 16 ≠ 0 → i = .next (s.traps .c .misaligned ad) ∧ j = .next (s.traps .c .misaligned ad) ∧
       k = .next (s.traps .c .misaligned ad)) ∧
     (ad.toNat % 16 = 0 →
       (∀ l, bspSpace sp = some l → u.localRefusers s.cur l as = [] →
         i = .next (State.complete s.cur .c r (Done.plain (put l (Barrier.init W.toNat u.devTime) u))) ∧
         (quiet l → u.badOf s.cur 0 l as = none →
           (c1.toNat + 1 ≤ (o l).pend →
             j = .next (State.complete s.cur .c r (Done.plain (put l ((o l).arrive (c1.toNat + 1) drop u.devTime).1 (seen l))))) ∧
           ((o l).pend < c1.toNat + 1 →
             j = .next ((put l { o l with ovr := true } (seen l)).takeFault s.cur .c .barrierOverarrival ad false)))) ∧
       (bspSpace sp = none → ∀ w, u.asked s.cur .c (.bari va W) w .done →
         i = .next (State.complete s.cur .c r (Done.plain w))) ∧
       (bspSpace sp = none → ∀ w, u.asked s.cur .c (.bara va (c1.toNat + 1) drop) w .done →
         j = .next (State.complete s.cur .c r (Done.plain w))) ∧
       (∀ l, bspSpace (barwSpace W) = some l → quiet l → u.badOf s.cur 0 l as = none →
         ((o l).bph ≠ W.toNat % 16 → k = .next (ends (seen l) true)) ∧
         ((o l).bph = W.toNat % 16 → late → k = .next (ends (seen l) false)) ∧
         ((o l).bph = W.toNat % 16 → ¬ late → k = .next (s.waitCycle s.cur .c otherWait))) ∧
       (bspSpace (barwSpace W) = none → ∀ w ph, u.serve s.cur (.barw va) = (w, .word ph) →
         ((w.ctx s.cur).strC.bounded = x.strC.bounded) →
         let told := x.strC.bar = some (u.barPa s.cur va, true)
         (told ∨ ph.toNat ≠ W.toNat % 16 → k = .next (ends w true)) ∧
         (¬ told → ph.toNat = W.toNat % 16 → late → k = .next (ends w false)) ∧
         (¬ told → ph.toNat = W.toNat % 16 → ¬ late → k = .next
           ((s.modStr s.cur .c fun t => { t with bar := some (u.barPa s.cur va, false) }).waitCycle s.cur .c otherWait))))) ∧
  (∀ (s : State) (c : CoreId) (va : VAddr) (pa n : Nat) (drop : Bool),
     let o := Barrier.ofBytes (s.memRead pa 16)
     (s.cached c va.toNat).vmCheck c .rw .atomic va.toNat 16 = .ok [(pa, 16)] → (s.core c).pend = [] → s.regions = [] →
     s.badPiece [(pa, 16)] = none → n ≤ o.pend →
       ∃ t, s.serve c (.bara va n drop) = (t, .done) ∧ Barrier.ofBytes (t.memRead pa 16) = (o.arrive n drop s.devTime).1 ∧
         (∀ a, ¬ (pa ≤ a ∧ a < pa + 16) → t.memByte a = s.memByte a) ∧
         ∀ k, (t.ctx k).strC.bar = (s.ctx k).strC.bar.map fun q => if q.1 = pa ∧ o.pend = n then (pa, true) else q)

/-- Counting at a region entry (R299, R300): what n bytes do to it, whether it fires, and which writes of a stream are refused. The
flag free says that the entry has not fired in this cycle, in which it fires at most once.
It rests on readings and choices of the model: log entry 61. -/
def Obligations.RegionCounting : Prop :=
  ∀ (e : Region) (n : Nat) (free : Bool),
    let k := e.countUp n free
    (e.target = 0 → k = { r := e, fires := false, excess := false } ∧ e.refuses n = false) ∧
    (e.target ≠ 0 → e.rearm = false → e.fired = false → e.count + n < e.target → 0 < n →
      k = { r := { e with count := e.count + n }, fires := false, excess := false } ∧ e.refuses n = false) ∧
    (e.target ≠ 0 → e.rearm = false → e.fired = false → e.count + n = e.target → 0 < n → free = true →
      k.fires = true ∧ k.excess = false ∧ k.r.count = e.target ∧ k.r.fired = true ∧ k.r.fires = e.fires + 1 ∧ k.r.ovf = e.ovf ∧
        e.refuses n = false) ∧
    (e.target ≠ 0 → e.rearm = false → e.fired = false → e.target < e.count + n → 0 < n → e.refuses n = true ∧
      (free = true → k.fires = true ∧ k.excess = true ∧ k.r.count = e.target ∧ k.r.fired = true ∧ k.r.fires = e.fires + 1 ∧
        k.r.ovf = true)) ∧
    (e.target ≠ 0 → e.rearm = false → e.fired = false → e.target ≤ e.count + n → 0 < n → free = false →
      k.fires = false ∧ k.r.count = e.target ∧ k.r.fired = false ∧ k.r.fires = e.fires) ∧
    (e.target ≠ 0 → e.rearm = false → e.fired = true → 0 < n →
      k = { r := { e with ovf := true }, fires := false, excess := true } ∧ e.refuses n = true) ∧
    (e.target ≠ 0 → e.rearm = true → 0 < n → e.refuses n = false ∧ k.excess = false ∧
      (e.count + n < e.target → k.r = { e with count := e.count + n } ∧ k.fires = false) ∧
      (e.target ≤ e.count + n → free = true → k.fires = true ∧ k.r.fires = e.fires + 1 ∧
        k.r.count + e.target = e.count + n ∧ k.r.fired = false) ∧
      (free = false → k.fires = false ∧ k.r.count = e.count + n)) ∧
    k.r.target = e.target ∧ k.r.base = e.base ∧ k.r.k = e.k ∧ k.r.act = e.act ∧ k.r.arg = e.arg ∧ k.r.rearm = e.rearm ∧
    k.r.spc = e.spc ∧ k.r.asid = e.asid ∧ k.r.sealed = e.sealed

/-- ARM, ARRV and AWAIT (R303, R305 to R307): a reserved space code faults with b; a local entry answers in the slot, one beyond the core
when its home has answered; ARRV lands its word one slot later; AWAIT lands 1 when FIRES is another value, 0 when FLT is set or its
bound has passed, and waits otherwise. At the local entry that covers the address ARM sets TARGET, ACT, REARM and ARG, clears FIRED and,
with CLR, COUNT, OVF and FLT; where COUNT has reached the new TARGET it fires, in the next cycle if it has fired in this one (R300), and with
REARM then subtracts TARGET; with CLR and VAL = 0 it frees the entry, and with CLR where no entry covers the address it creates one in
the lowest free slot where its pages are in range and free of other entries, or faults with PROTECTION; ARRV on a disarmed entry answers COUNT and changes nothing, and on
an armed one it counts.
It rests on readings and choices of the model: log entries 24, 56, 60, 61 and 125. -/
def Obligations.ArrivalInstructionResults : Prop :=
  (∀ (s : State) (r : Ring) (d a b : SReg) (pd : PReg), s.Opens .c r →
     let x := s.slotCtx .c
     let u := s.slot .c
     let A := x.sr a
     let B := x.sr b
     let D := x.sr d
     let answered := fun (q : Req) (w : State) (ans : Ans) => ∃ sp, Space.ofCode (B.extractLsb' 60 4).toNat = some sp ∧
       if sp = .virt ∨ sp = .t3 ∨ sp = .t4 then u.asked s.cur .c q w ans else u.serve s.cur q = (w, ans)
     let arm := Req.arm A B D
     let arrv := Req.arrv A B
     let ends := fun (v : Bool) => State.complete s.cur .c r (Done.one u (New.plain 1 (.pred pd v)))
     (Space.ofCode (B.extractLsb' 60 4).toNat = none →
       exec (.arm r d a b) s = .next (s.traps .c .protection B) ∧ exec (.arrv r d a b) s = .next (s.traps .c .protection B) ∧
       exec (.await r pd a b) s = .next (s.traps .c .protection B)) ∧
     (∀ w, answered arm w .done → exec (.arm r d a b) s = .next (State.complete s.cur .c r (Done.plain w))) ∧
     (∀ w k addr, answered arm w (.fault k addr) → exec (.arm r d a b) s = .next (w.takeFault s.cur .c k addr false)) ∧
     (∀ w v, answered arrv w (.word v) → exec (.arrv r d a b) s =
       .next (State.complete s.cur .c r (Done.one w (New.plain 1 (.scalar d v))))) ∧
     (∀ w k addr, answered arrv w (.fault k addr) → exec (.arrv r d a b) s = .next (w.takeFault s.cur .c k addr false)) ∧
     (∀ k addr, u.findEntry s.cur .await A B false = .error (k, addr) →
       exec (.await r pd a b) s = .next (s.traps .c k addr)) ∧
     (∀ p e, u.findEntry s.cur .await A B false = .ok (some (p, e)) →
       let moved := e.fires ≠ B.extractLsb' 32 16
       let past := e.flt = true ∨ (B.extractLsb' 0 32).toNat ≤ x.strC.bounded
       (moved → exec (.await r pd a b) s = .next (ends true)) ∧
       (¬ moved → past → exec (.await r pd a b) s = .next (ends false)) ∧
       (¬ moved → ¬ past → exec (.await r pd a b) s = .next (s.waitCycle s.cur .c otherWait)))) ∧
  (∀ (s : State) (c : CoreId) (a b d : Word) (sp : Space) (i : Nat) (e : Region),
     let val := (b.extractLsb' 0 48).toNat
     let clr := d.getLsbD 60
     Space.ofCode (b.extractLsb' 60 4).toNat = some sp → sp ≠ .virt → sp ≠ .t2 → sp ≠ .t3 → sp ≠ .t4 →
     (s.ctx c).coreEntry sp a.toNat = some (i, e) → (s.ctx c).regs.get? i = some e →
       (clr = true → val = 0 → ∃ t, s.serve c (.arm a b d) = (t, .done) ∧ (t.ctx c).regs.get? i = none) ∧
       (clr = false ∨ val ≠ 0 → (val = 0 ∨ (if clr then 0 else e.count) < val) →
         ∃ t e', s.serve c (.arm a b d) = (t, .done) ∧ (t.ctx c).regs.get? i = some e' ∧ t.mem = s.mem ∧
           e'.target = val ∧ e'.act = d.extractLsb' 62 2 ∧ e'.rearm = d.getLsbD 61 ∧ e'.arg = d.extractLsb' 0 60 ∧
           e'.fired = false ∧ e'.count = (if clr then 0 else e.count) ∧ e'.ovf = (if clr then false else e.ovf) ∧
           e'.flt = (if clr then false else e.flt) ∧ e'.fires = e.fires ∧ e'.base = e.base ∧ e'.k = e.k) ∧
       (clr = false → 0 < val → val ≤ e.count → d.getLsbD 61 = false → d.extractLsb' 62 2 = 0 →
         ∃ t e', s.serve c (.arm a b d) = (t, .done) ∧ (t.ctx c).regs.get? i = some e' ∧ t.mem = s.mem ∧
           e'.target = val ∧ e'.count = val ∧ e'.ovf = (e.ovf || decide (val < e.count)) ∧
           if s.refire.contains (coreKey c i) then e'.fired = false ∧ e'.fires = e.fires
           else e'.fired = true ∧ e'.fires = e.fires + 1) ∧
       (clr = false → 0 < val → val ≤ e.count → d.getLsbD 61 = true → d.extractLsb' 62 2 = 0 →
         ∃ t e', s.serve c (.arm a b d) = (t, .done) ∧ (t.ctx c).regs.get? i = some e' ∧ t.mem = s.mem ∧
           e'.target = val ∧ e'.rearm = true ∧ e'.fired = false ∧ e'.ovf = e.ovf ∧ e'.flt = e.flt ∧ e'.base = e.base ∧ e'.k = e.k ∧
           if s.refire.contains (coreKey c i) then e'.count = e.count ∧ e'.fires = e.fires
           else e'.count + val = e.count ∧ e'.fires = e.fires + 1) ∧
       (e.target = 0 → ∃ t, s.serve c (.arrv a b) = (t, .word (BitVec.ofNat 64 (e.count % 2 ^ 48))) ∧
         (t.ctx c).regs.get? i = some e ∧ t.mem = s.mem) ∧
       (e.target ≠ 0 → e.rearm = false → e.fired = false → e.count + val < e.target →
         ∃ t, s.serve c (.arrv a b) = (t, .word (BitVec.ofNat 64 ((e.count + val) % 2 ^ 48))) ∧
           (t.ctx c).regs.get? i = some { e with count := e.count + val } ∧ t.mem = s.mem)) ∧
  (∀ (s : State) (c : CoreId) (a b d : Word) (sp : Space),
     let val := (b.extractLsb' 0 48).toNat
     let K := (b.extractLsb' 48 6).toNat
     let base := a.toNat / 2 ^ K * 2 ^ K
     let regs := (s.ctx c).regs
     let fits := 12 ≤ K ∧ K ≤ 23 ∧ (∀ p, base ≤ p → p < base + 2 ^ K → p % 4096 = 0 → (s.cellOf c sp p).isSome = true) ∧
       ∀ q ∈ regs, q.2.spc = sp → q.2.base + 2 ^ q.2.k ≤ base ∨ base + 2 ^ K ≤ q.2.base
     let makes := fun (i : Nat) => i < 64 ∧ regs.get? i = none ∧ ∀ j, j < i → (regs.get? j).isSome = true
     Space.ofCode (b.extractLsb' 60 4).toNat = some sp → sp ≠ .virt → sp ≠ .t2 → sp ≠ .t3 → sp ≠ .t4 →
     (s.ctx c).coreEntry sp a.toNat = none → d.getLsbD 60 = true →
       (∀ i, fits → makes i → 0 < val → ∃ t e', s.serve c (.arm a b d) = (t, .done) ∧ (t.ctx c).regs.get? i = some e' ∧
         t.mem = s.mem ∧ e'.spc = sp ∧ e'.base = base ∧ e'.k = K ∧ e'.fires = 0 ∧ e'.count = 0 ∧ e'.target = val ∧
         e'.act = d.extractLsb' 62 2 ∧ e'.rearm = d.getLsbD 61 ∧ e'.arg = d.extractLsb' 0 60 ∧ e'.fired = false ∧ e'.ovf = false ∧
         e'.flt = false ∧ e'.sealed = false ∧ ∀ j, j ≠ i → (t.ctx c).regs.get? j = regs.get? j) ∧
       (¬ fits ∨ (∀ i, ¬ makes i) → s.serve c (.arm a b d) = (s, .fault .protection a)))

/-- SEAL, UNSEAL and FENCE (R136, R308, R309, R311, R328): where the home answers at once, the address translates, an entry covers it
and one W region of the footprint covers it whole (R323), SEAL issues: every accepted store of every core is performed first, the bytes of the latest standing in
memory, and then the entry's bit is set; UNSEAL issues with the replicas dropped and the bit clear; a failed check faults. One whose
answer has come issues. FENCE issues, and holds the next C instruction while an accepted store of its core is not performed, unless its
scope is the stream.
It rests on readings and choices of the model: log entries 17, 21 and 56. -/
def Obligations.SealAndFenceResults : Prop :=
  ∀ (s : State) (r : Ring) (a : SReg) (sc : Scope), s.Opens .c r →
    let x := s.slotCtx .c
    let u := s.slot .c
    let A := x.sr a
    let va : VAddr := A.setWidth 72
    let full := (u.vaOf s.cur A).toNat
    let holds := fun (p : PStore) (b : Nat) => p.pa ≤ b ∧ b < p.pa + p.bytes.length
    (∀ w, u.asked s.cur .c (.seal va) w .done → exec (.seal r a) s = .next (State.complete s.cur .c r (Done.plain w))) ∧
    (∀ w, u.asked s.cur .c (.unseal va) w .done → exec (.unseal r a) s = .next (State.complete s.cur .c r (Done.plain w))) ∧
    (∀ w k addr, u.asked s.cur .c (.seal va) w (.fault k addr) → exec (.seal r a) s = .next (w.takeFault s.cur .c k addr false)) ∧
    (∀ w k addr, u.asked s.cur .c (.unseal va) w (.fault k addr) →
      exec (.unseal r a) s = .next (w.takeFault s.cur .c k addr false)) ∧
    (u.memHold = false → x.strC.sent = none →
      (∀ (id : Nat) (e : Region) (l : List (Nat × Nat)), u.vRange (some s.cur) (u.asidOf s.cur) .any full 1 = .ok l →
        u.dieEntry (u.asidOf s.cur) .virt full = some (id, e) → u.regions.get? id = some e →
        u.footCheck s.cur .seal .virt e.base (2 ^ e.k) = none → u.wholeHold s.cur .seal .virt e.base (2 ^ e.k) = true →
          (∃ w, exec (.seal r a) s = .next (State.complete s.cur .c r (Done.plain w)) ∧
            w.regions.get? id = some { e with sealed := true } ∧ (∀ k, k ≠ id → w.regions.get? k = u.regions.get? k) ∧
            (∀ k, (w.core k).pend = [] ∧ w.ctx k = u.ctx k) ∧
            (∀ k p older newer b, (u.core k).pend = older ++ p :: newer → holds p b → (∀ q ∈ newer, ¬ holds q b) →
              (∀ j, j ≠ k → ∀ q ∈ (u.core j).pend, ¬ holds q b) → p.bytes[b - p.pa]? = some (w.memByte b)) ∧
            ∀ b, (∀ k, ∀ q ∈ (u.core k).pend, ¬ holds q b) → w.memByte b = u.memByte b) ∧
          ∃ w, exec (.unseal r a) s = .next (State.complete s.cur .c r (Done.plain w)) ∧
            w.regions.get? id = some { e with sealed := false } ∧ (∀ k, k ≠ id → w.regions.get? k = u.regions.get? k) ∧
            (∀ q ∈ w.replicas, q.1 ≠ id) ∧ (∀ q ∈ u.replicas, q.1 ≠ id → q ∈ w.replicas) ∧ w.mem = u.mem ∧ w.cores = u.cores) ∧
      (∀ (id : Nat) (e : Region) (l : List (Nat × Nat)), u.vRange (some s.cur) (u.asidOf s.cur) .any full 1 = .ok l →
        u.dieEntry (u.asidOf s.cur) .virt full = some (id, e) → u.footCheck s.cur .seal .virt e.base (2 ^ e.k) = none →
        (∀ b v h, (u.core s.cur).run = some b → u.launchOf s.cur = some v → h ∈ v.holds b.tidx.toNat → h.sp = .virt →
          permits h.kind .seal = true → e.base < h.base ∨ h.base + h.len < e.base + 2 ^ e.k) →
          exec (.seal r a) s = .next (s.traps .c .undeclaredAccess A) ∧
          exec (.unseal r a) s = .next (s.traps .c .undeclaredAccess A)) ∧
      (∀ k b, u.vRange (some s.cur) (u.asidOf s.cur) .any full 1 = .error (k, b) →
        exec (.seal r a) s = .next (s.traps .c k A) ∧ exec (.unseal r a) s = .next (s.traps .c k A)) ∧
      (∀ l, u.vRange (some s.cur) (u.asidOf s.cur) .any full 1 = .ok l → u.dieEntry (u.asidOf s.cur) .virt full = none →
        exec (.seal r a) s = .next (s.traps .c .protection A) ∧ exec (.unseal r a) s = .next (s.traps .c .protection A))) ∧
    (sc = .stream → exec (.fence r sc) s = .next (s.passes .c r id)) ∧
    (sc ≠ .stream → exec (.fence r sc) s =
      .next (s.passes .c r fun w => w.modStr s.cur .c fun t => { t with fence := !(u.core s.cur).pend.isEmpty })) ∧
    ∀ c, (s.core c).free = true → (s.core c).save = none → s.runs c .c = true → s.idleTurn c .c = false →
      (s.core c).govHolds .c s.cycle = false → (s.ctx c).strC.fence = true → (s.core c).pend ≠ [] →
      (s.ctx c).strC.dfault = none ∨ (s.ctx c).te = true ∨ (s.ctx c).strC.skip ≠ 0 →
      s.strmTurn c .c = .next { s with sched := s.sched.drop 1, cur := c }

/-! ### Launches, cancelling, phases, checkpoints and collective tables of C -/

/-- LAUNCH (R236, R237, R404): a misaligned packet faults; a packet in virtual memory is read as one load, whose failure faults; the packet
is offered to the queue that b names, the stream waiting for the answer where it is held, and the status lands one slot after the answer: the identifier above a zero byte, or the code of the
first check that fails; a packet of CR that lies out of range is read as zeros and refused with BAD_FIELD. An accepted launch takes the
next identifier and stands in its queue with no task ended; a refused one changes nothing; a full queue, a queue of another address
space and an unknown image are refused in this order.
It rests on readings and choices of the model: log entries 17, 40, 73, 77, 128 and 153. -/
def Obligations.LaunchResults : Prop :=
  (∀ (s : State) (r : Ring) (d a b : SReg), s.Opens .c r →
     let x := s.slotCtx .c
     let u := s.slot .c
     let A := x.sr a
     let q : BitVec 6 := (x.sr b).extractLsb' 0 6
     let va := BitVec.ofNat 8 (u.vahi s.cur) ++ A
     let lands := fun (w : State) (v : Word) => Host.Outcome.next (State.complete s.cur .c r (Done.one w (New.plain 1 (.scalar d v))))
     let cr := u.localBytes s.cur 0 .cr A.toNat 128
     let as := (List.range 128).map (A.toNat + ·)
     let seen := u.oorNote s.cur .c .cr false (minOf (u.outOf s.cur .cr as))
     (∀ t w q' p oor, x.strC.sent = some t → t.req = .launch q' p oor → t.ans = some (.word w) →
       exec (.launch r d a b) s = lands u w ∧ exec (.launchCr r d a b) s = lands u w) ∧
     (x.strC.sent = none →
       (A.toNat % 64 ≠ 0 → exec (.launch r d a b) s = .next (s.traps .c .misaligned A) ∧
         exec (.launchCr r d a b) s = .next (s.traps .c .misaligned A)) ∧
       (A.toNat % 64 = 0 → u.memHold = false → ∀ w k addr, u.serve s.cur (.blk va 128) = (w, .fault k addr) →
         exec (.launch r d a b) s = .next (w.takeFault s.cur .c k addr false)) ∧
       (A.toNat % 64 = 0 → u.memHold = false → ∀ w bs, u.serve s.cur (.blk va 128) = (w, .bytes bs) → w.memHold = false →
         let o := w.offer q (BitVec.ofNat 1024 (leNat bs)) (w.asidOf s.cur)
         exec (.launch r d a b) s = lands o.1 o.2) ∧
       (A.toNat % 64 = 0 → u.memHold = false → u.badOf s.cur 0 .cr as = none →
         let o := seen.offer q (BitVec.ofNat 1024 (leNat cr)) (seen.asidOf s.cur) (decide ((u.outOf s.cur .cr as).length = 128))
         exec (.launchCr r d a b) s = lands o.1 o.2) ∧
       (A.toNat % 64 = 0 → u.memHold = true → u.badOf s.cur 0 .cr as = none →
         exec (.launchCr r d a b) s = .next (((s.oorNote s.cur .c .cr false (minOf (s.outOf s.cur .cr as))).send s.cur .c
           (.launch q (BitVec.ofNat 1024 (leNat cr)) (decide ((u.outOf s.cur .cr as).length = 128)))).waitCycle s.cur .c
             otherWait)))) ∧
  (∀ (s : State) (q : BitVec 6) (p : BitVec 1024) (asid : BitVec 16) (oor : Bool),
     let o := s.offer q p asid oor
     (∀ foot, s.launchCheck q p asid oor = (0, foot) →
       o.2 = s.nextLid ++ (0 : BitVec 32) ∧ o.1.nextLid = s.nextLid + 1 ∧
       ∃ l, o.1.launches.get? s.nextLid.toNat = some l ∧ l.pkt = p ∧ l.q = q ∧ l.asid = asid ∧ l.foot = foot ∧
         l.done = 0 ∧ l.failed = 0 ∧ l.reported = false ∧ (∀ i, (l.task i).st = .queued) ∧
         (∀ j, j ≠ s.nextLid.toNat → o.1.launches.get? j = s.launches.get? j)) ∧
     (∀ st foot, st ≠ 0 → s.launchCheck q p asid oor = (st, foot) → o = (s, BitVec.ofNat 64 st)) ∧
     (32 ≤ s.waitingIn q → (s.launchCheck q p asid oor).1 = 1) ∧
     (s.waitingIn q < 32 →
       (s.queues.get? q.toNat = none → (s.launchCheck q p asid oor).1 = 2) ∧
       ∀ u, s.queues.get? q.toNat = some u →
         (u.asid ≠ asid → (s.launchCheck q p asid oor).1 = 2) ∧
         (u.asid = asid → oor = true → (s.launchCheck q p asid oor).1 = 4) ∧
         (u.asid = asid → oor = false → s.images.get? (pktField p 0 2) = none → (s.launchCheck q p asid oor).1 = 3) ∧
         (u.asid = asid → oor = false → ∀ g, s.images.get? (pktField p 0 2) = some g → g.asid = u.asid → g.gen.toNat = pktField p 2 1 →
           pktDrain p = false → (s.launchCheck q p asid oor).1 = 4)))

/-- CANCEL at its five levels (R230, R259): what each form names (a task by launch and index, every task of a launch, every task of
the launches of the issuer's address space that name a graph, phase or job counter), never the issuer itself; an identifier that is
unknown or out of range lands status 8, a launch of another address space status 2, and nothing is cancelled. Of the tasks named one
that has ended is not affected, one on a core is to stop, any other ends CANCELLED at once; the count of the affected lands, after the
stream has waited until every one that had to stop is over.
It rests on readings and choices of the model: log entries 74 and 76. -/
def Obligations.CancelResults : Prop :=
  (∀ (s : State) (r : Ring) (d a b : SReg), s.Opens .c r →
    let x := s.slotCtx .c
    let u := s.slot .c
    let A := x.sr a
    let B := x.sr b
    let me := (u.core s.cur).run.map fun b => (b.lid.toNat, b.tidx.toNat)
    let mine := u.asidOf s.cur
    let lands := fun (w : State) (n st : Nat) => Host.Outcome.next (State.complete s.cur .c r (Done.one w
      (New.plain 1 (.scalar d (BitVec.ofNat 32 n ++ BitVec.ofNat 32 st)))))
    (∀ p ∈ [(Instr.cancelTask r d a b, 0, B), (.cancelLaunch r d a, 1, 0), (.cancelGraph r d a, 2, 0),
        (.cancelPhase r d a, 3, 0), (.cancelJob r d a, 4, 0)],
      let names := u.cancelNames mine p.2.1 A p.2.2 me
      (x.strC.sent = none →
        (∀ st, names = .error st → exec p.1 s = lands u 0 st) ∧
        (∀ l w n, names = .ok l → u.cancelTasks l = (w, n, []) → exec p.1 s = lands w n 0) ∧
        (names = .ok [] → exec p.1 s = lands u 0 0) ∧
        (∀ q v, names = .ok [q] → u.launches.get? q.1 = some v → (v.task q.2).closing = none →
          (v.task q.2).st = .queued ∨ (v.task q.2).st = .placed ∨ (v.task q.2).st = .saved → ∃ w, exec p.1 s = lands w 1 0) ∧
        (∀ l w n ws, names = .ok l → u.cancelTasks l = (w, n, ws) → ws ≠ [] → exec p.1 s =
          .next (((s.cancelTasks l).1.send s.cur .c (.cancel (s.cancelTasks l).2.1 (s.cancelTasks l).2.2)).waitCycle s.cur .c
            otherWait))) ∧
      (∀ t n l, x.strC.sent = some t → t.req = .cancel n l → (∀ q ∈ l, u.taskOver q = true) → exec p.1 s = lands u n 0) ∧
      (∀ t n l, x.strC.sent = some t → t.req = .cancel n l → (∃ q ∈ l, u.taskOver q = false) →
        exec p.1 s = .next (s.waitCycle s.cur .c otherWait))) ∧
    (let task := u.cancelNames mine 0 A B me
     let launch := u.cancelNames mine 1 A 0 me
     (u.launches.get? A.toNat = none → task = .error 8 ∧ launch = .error 8) ∧
     ∀ v, u.launches.get? A.toNat = some v →
       (pktTasks v.pkt ≤ B.toNat → task = .error 8) ∧
       (B.toNat < pktTasks v.pkt → v.asid ≠ mine → task = .error 2) ∧
       (B.toNat < pktTasks v.pkt → v.asid = mine → task = .ok (if me = some (A.toNat, B.toNat) then [] else [(A.toNat, B.toNat)])) ∧
       (v.asid ≠ mine → launch = .error 2) ∧
       (v.asid = mine → ∃ l, launch = .ok l ∧
         ∀ q, q ∈ l ↔ q.1 = A.toNat ∧ q.2 < pktTasks v.pkt ∧ me ≠ some q)) ∧
    ∀ k ∈ [(2, 4096, pktGraph), (3, 256, pktPhase), (4, 64, pktJob)],
      let unit := u.cancelNames mine k.1 A 0 me
      (k.2.1 ≤ A.toNat → unit = .error 8) ∧
      (A.toNat < k.2.1 → ∃ l, unit = .ok l ∧
        ∀ q, q ∈ l ↔ (∃ v, (q.1, v) ∈ u.launches ∧ v.asid = mine ∧ k.2.2 v.pkt = some A.toNat ∧ q.2 < pktTasks v.pkt) ∧ me ≠ some q)) ∧
  (∀ (s : State) (q : Nat × Nat) (l : List (Nat × Nat)),
    let one := fun (w : State) => w.cancelTasks [q]
    let before := s.cancelTasks l
    s.cancelTasks [] = (s, 0, []) ∧
    s.cancelTasks (l ++ [q]) =
      ((one before.1).1, before.2.1 + (one before.1).2.1, before.2.2 ++ (one before.1).2.2) ∧
    (s.launches.get? q.1 = none → one s = (s, 0, [])) ∧
    ∀ v, s.launches.get? q.1 = some v →
      let t := v.task q.2
      (t.closing ≠ none ∨ t.st.terminal = true → one s = (s, 0, [])) ∧
      (t.closing = none → t.st = .running ∨ t.st = .frozen → ∀ c, t.core = some c →
        one s = (s.modCore c fun k => { k with stop := some .cancel }, 1, [q])) ∧
      (t.closing = none → t.st = .queued ∨ t.st = .placed ∨ t.st = .saved → ∃ w v', one s = (w, 1, []) ∧
        w.launches.get? q.1 = some v' ∧ ((v'.task q.2).st = .cancelled ∨ (v'.task q.2).closing = some .cancelled) ∧
        (∀ i, i ≠ q.2 → (v'.task i).core = (v.task i).core ∧ (v'.task i).closing = (v.task i).closing)))

/-- PHASE, CKPT and ESTIM (R256, R258, R417, R418): PHASE without a counter faults with PROTECTION; the first time it makes one
arrival and waits with WATCHDOG's count; released, it lands the new phase number. An arrival past TARGET is held back. CKPT lands 2 where no checkpoint may be taken, in a
handler among others; else it begins a save and waits, and lands the save's status once that has ended. ESTIM sets the estimate at once.
It rests on readings and choices of the model: log entries 80, 83 and 84. -/
def Obligations.PhaseAndCheckpointResults : Prop :=
  ∀ (s : State) (r : Ring) (d a : SReg), s.Opens .c r →
    let x := s.slotCtx .c
    let u := s.slot .c
    let ctr := pktPhase (u.pktOf s.cur)
    let lands := fun (w : State) (v : Word) => Host.Outcome.next (State.complete s.cur .c r (Done.one w (New.plain 1 (.scalar d v))))
    (ctr = none → exec (.phase r d) s = .next (s.traps .c .protection 0)) ∧
    (∀ n, ctr = some n →
      (x.strC.phaseArr = false → exec (.phase r d) s =
        .next ((((s.phaseArrive n).modCtx s.cur Ctx.markOld).modStr s.cur .c fun t =>
          { t with phaseArr := true, phaseGo := none }).waitCycle s.cur .c 9)) ∧
      (x.strC.phaseArr = true → x.strC.phaseGo = none → exec (.phase r d) s = .next (s.waitCycle s.cur .c 9)) ∧
      (∀ v, x.strC.phaseArr = true → x.strC.phaseGo = some v → exec (.phase r d) s =
        lands (u.modStr s.cur .c fun t => { t with phaseArr := false, phaseGo := none }) (v.setWidth 64)) ∧
      (let k := s.phases.getD n PhCtr.fresh
       let k' := (s.phaseArrive n).phases.getD n PhCtr.fresh
       k'.target = k.target ∧ k'.phno = k.phno ∧ k'.count + k'.heldArr = k.count + k.heldArr + 1 ∧
         (k.boundary = false → k.target = 0 ∨ k.count.toNat < k.target.toNat → k'.count = k.count + 1) ∧
         (k.boundary = true ∨ (k.target ≠ 0 ∧ k.target.toNat ≤ k.count.toNat) → k'.heldArr = k.heldArr + 1))) ∧
    ((u.core s.cur).save = none → x.te = true ∨ pktCkpt (u.pktOf s.cur) = false ∨ u.areaOf s.cur = none →
      exec (.ckpt r d) s = lands u 2) ∧
    ((u.core s.cur).save = none → x.te = false → pktCkpt (u.pktOf s.cur) = true → u.areaOf s.cur ≠ none →
      exec (.ckpt r d) s = .next ((s.startSave s.cur .ckpt (some (d, r))).waitCycle s.cur .c otherWait) ∧
      ∀ g, s.areaOf s.cur = some g → ∃ v, ((s.startSave s.cur .ckpt (some (d, r))).core s.cur).save = some v ∧ v.why = .ckpt ∧
        v.settled = false ∧ v.sect = 0 ∧ v.done = none ∧ v.dest = some (d, r) ∧ v.slot = (if g.latest = some 0 then 1 else 0)) ∧
    (∀ v, (u.core s.cur).save = some v → v.done = none →
      (x.te = true → exec (.ckpt r d) s = lands u 2) ∧
      (x.te = false → exec (.ckpt r d) s = .next (s.waitCycle s.cur .c otherWait))) ∧
    (∀ v n, (u.core s.cur).save = some v → v.done = some n →
      exec (.ckpt r d) s = lands (u.modCore s.cur fun k => { k with save := none }) (BitVec.ofNat 64 n)) ∧
    exec (.estim r a) s = .next (s.passes .c r fun w => w.modCtx s.cur fun x =>
      { x with est := ((s.slotCtx .c).sr a).extractLsb' 0 32, estNs := (s.slot .c).devTime })

/-- CLSTEP and CLWAIT (R451, R452): with 16 tables outstanding CLSTEP waits; a misaligned or wrongly sized table faults; a table that
is read and passes its checks is posted and its handle lands; CLWAIT lands 1 once the table has completed, 0 at its bound.
It rests on readings and choices of the model: log entries 24 and 98. -/
def Obligations.CollectiveTableResults : Prop :=
  ∀ (s : State) (r : Ring) (d a b : SReg) (pd : PReg), s.Opens .c r →
    let x := s.slotCtx .c
    let u := s.slot .c
    let A := x.sr a
    let n := ((x.sr b).extractLsb' 0 8).toNat
    let q := Req.blk (BitVec.ofNat 8 (u.vahi s.cur) ++ A) (64 * n)
    let recs := fun (bs : List Byte) => (List.range n).map fun i => BitVec.ofNat 512 (leNat ((bs.drop (64 * i)).take 64))
    let out := x.tables.any fun t => t.handle == A.extractLsb' 0 16
    let late := ((x.sr b).extractLsb' 0 32).toNat ≤ x.strC.bounded
    let ends := fun (v : Bool) => Host.Outcome.next (State.complete s.cur .c r (Done.one u (New.plain 1 (.pred pd v))))
    (16 ≤ x.tables.length → exec (.clstep r d a b) s = .next (s.waitCycle s.cur .c otherWait)) ∧
    (x.tables.length < 16 → A.toNat % 64 ≠ 0 → exec (.clstep r d a b) s = .next (s.traps .c .misaligned A)) ∧
    (x.tables.length < 16 → A.toNat % 64 = 0 → n = 0 ∨ 64 < n →
      exec (.clstep r d a b) s = .next (s.traps .c .protection (x.sr b))) ∧
    (x.tables.length < 16 → A.toNat % 64 = 0 → 0 < n → n ≤ 64 →
      (∀ w k addr, u.asked s.cur .c q w (.fault k addr) →
        exec (.clstep r d a b) s = .next (w.takeFault s.cur .c k addr false)) ∧
      (∀ w bs k off, u.asked s.cur .c q w (.bytes bs) → w.tableFault (w.asidOf s.cur) 0 (recs bs) = some (k, off) →
        exec (.clstep r d a b) s = .next (w.takeFault s.cur .c k (A + BitVec.ofNat 64 off) false)) ∧
      (∀ w bs, u.asked s.cur .c q w (.bytes bs) → w.tableFault (w.asidOf s.cur) 0 (recs bs) = none →
        ∃ w' t, exec (.clstep r d a b) s =
            .next (State.complete s.cur .c r (Done.one w' (New.plain 1 (.scalar d ((w.ctx s.cur).handle.setWidth 64))))) ∧
          (w'.ctx s.cur).tables = (w.ctx s.cur).tables ++ [t] ∧ t.handle = (w.ctx s.cur).handle ∧ t.recs = recs bs ∧
          t.started = 0 ∧ t.failed = false ∧ (w'.ctx s.cur).handle = (w.ctx s.cur).handle + 1 ∧ w'.mem = w.mem)) ∧
    (out = false → exec (.clwait r pd a b) s = ends true) ∧
    (out = true → late → exec (.clwait r pd a b) s = ends false) ∧
    (out = true → ¬ late → exec (.clwait r pd a b) s = .next (s.waitCycle s.cur .c otherWait))

/-! ### The V stream -/

/-- Integer, bitwise and shift elements (R175, R176, R179 to R181, R184): every form completes with its operands ready, and its
active elements are these. Formats are those an encoding can name; the sum, difference and product of integers wrap.
It rests on readings and choices of the model: log entry 47. -/
def Obligations.VectorIntegerResults : Prop :=
  ∀ (s : State) (r : Ring) (f : Fmt) (t : Wd) (e : Bool) (d a b : VReg), s.Opens .v r → f.isFIN = true → f.isFloat = false →
    let w := f.width
    let n := match t with
      | .w8 => 8
      | .w16 => 16
      | .w32 => 32
      | .w64 => 64
    let two := fun (i : Instr) (w base : Nat) (el : Nat → Nat → Nat) =>
      s.Elementwise i r w base [a, b] d e fun l => (el (l.getD 0 0) (l.getD 1 0), 0)
    let one := fun (i : Instr) (w base : Nat) (el : Nat → Nat) =>
      s.Elementwise i r w base [a] d e fun l => (el (l.getD 0 0), 0)
    let val := fun (c : Nat) => if f.isSigned then (BitVec.ofNat w c).toInt else (c : Int)
    let clamp := fun (v : Int) => (((max f.intMin (min f.intMax v)) % 2 ^ w).toNat,
      if v < f.intMin ∨ f.intMax < v then evSat else (0 : Ev))
    two (.vadd r f e d a b) w 3 (fun p q => p + q) ∧
    two (.vsub r f e d a b) w 3 (fun p q => p + (2 ^ w - q)) ∧
    two (.vmul r f e d a b) w 4 (fun p q => p * q) ∧
    two (.vmin r f e d a b) w 3 (fun p q => if val q < val p then q else p) ∧
    two (.vmax r f e d a b) w 3 (fun p q => if val p < val q then q else p) ∧
    two (.vmulh r f e d a b) w 4 (fun p q => ((val p * val q) / 2 ^ w % 2 ^ w).toNat) ∧
    s.Elementwise (.vadds r f e d a b) r w 3 [a, b] d e (fun l => clamp (val (l.getD 0 0) + val (l.getD 1 0))) ∧
    s.Elementwise (.vsubs r f e d a b) r w 3 [a, b] d e (fun l => clamp (val (l.getD 0 0) - val (l.getD 1 0))) ∧
    two (.vbfx r f e d a b) w 3 (fun p q =>
      let pos := if w = 8 then q % 8 else q % 64
      let len := if w ≤ pos then 0 else min (if w = 8 then q / 16 % 16 else q / 256 % 128) (w - pos)
      let field := BitVec.ofNat len (p / 2 ^ pos)
      if f.isSigned then (field.signExtend w).toNat else field.toNat) ∧
    two (.vand r e d a b) 8 2 (fun p q => p &&& q) ∧
    two (.vor r e d a b) 8 2 (fun p q => p ||| q) ∧
    two (.vxor r e d a b) 8 2 (fun p q => p ^^^ q) ∧
    two (.vsll r t e d a b) n 2 (fun p q => p * 2 ^ (q % n)) ∧
    two (.vsrl r t e d a b) n 2 (fun p q => p / 2 ^ (q % n)) ∧
    two (.vsra r t e d a b) n 2 (fun p q => ((BitVec.ofNat n p).sshiftRight (q % n)).toNat) ∧
    s.Elementwise (.vfsh r t e d a b) r n 3 [a, b, d] d e (fun l =>
      ((l.getD 0 0 * 2 ^ n + l.getD 2 0) / 2 ^ (l.getD 1 0 % n), 0)) ∧
    one (.vpopc r t e d a) n 3 (fun p => (List.range n).countP p.testBit) ∧
    one (.vclz r t e d a) n 3 (fun p => if p = 0 then n else n - 1 - Nat.log2 p) ∧
    one (.vmov r e d a) 8 2 id

/-- Float elements (R170, R175 to R178): the exact value of the operation on the values that the codes have under DAZ, rounded once
under ARM with FTZ; INV for opposed infinities, for 0 × ∞, 0 ÷ 0, ∞ ÷ ∞ and roots of negative values, DZE for a finite nonzero value
over zero; VABS and VNEG change the sign bit alone; VMIN and VMAX return an operand and raise nothing.
It rests on readings and choices of the model: log entries 46 and 47. -/
def Obligations.VectorFloatResults : Prop :=
  ∀ (s : State) (r : Ring) (f : Fmt) (t e : Bool) (d a b : VReg) (d5 a5 b5 c5 : VReg5), s.Opens .v r → f.isF = true →
    let x := s.slotCtx .v
    let w := f.width
    let num := fun (g : Fmt) (c : Nat) => Machine.Num.ofCode g
      (if x.daz && g.flushable && subnormalCode g c then c / 2 ^ (g.width - 1) % 2 * 2 ^ (g.width - 1) else c)
    let ctl : RCtl :=
      { mode := [Rnd.rne, .rtz, .rdn, .rup, .rna].getD x.arm.toNat (Rnd.ofCode x.arm.toNat), sat := false, ftz := x.ftz,
        rand := { k := 0, r := 0 } }
    let out := fun (g : Fmt) (v : Machine.Num) (ev : Ev) => ((roundNum g ctl v).1, ev ||| (roundNum g ctl v).2)
    let down := decide (x.arm = 2)
    let inv := fun (c : Bool) => if c then evInv else (0 : Ev)
    let two := fun (i : Instr) (base : Nat) (el : Machine.Num → Machine.Num → Nat × Ev) =>
      s.Elementwise i r w base [a, b] d e fun l => el (num f (l.getD 0 0)) (num f (l.getD 1 0))
    let fused := fun (i : Instr) (g : Fmt) (np nc : Bool) =>
      s.Elementwise i r g.width 5 [a5.setWidth 6, b5.setWidth 6, c5.setWidth 6] (d5.setWidth 6) e fun l =>
        let p := (num g (l.getD 0 0)).mul (num g (l.getD 1 0))
        let z := num g (l.getD 2 0)
        let q := (if np then p.1.negate else p.1).add down (if nc then z.negate else z)
        out g q.1 (inv (p.2 || q.2))
    let one := fun (i : Instr) (base : Nat) (el : Nat → Nat × Ev) =>
      s.Elementwise i r w base [a] d e fun l => el (l.getD 0 0)
    two (.vadd r f e d a b) 3 (fun p q => out f (p.add down q).1 (inv (p.add down q).2)) ∧
    two (.vsub r f e d a b) 3 (fun p q => out f (p.add down q.negate).1 (inv (p.add down q.negate).2)) ∧
    two (.vmul r f e d a b) 4 (fun p q => out f (p.mul q).1 (inv (p.mul q).2)) ∧
    two (.vdiv r f e d a b) 14 (fun p q => out f (p.div q).1 (p.div q).2) ∧
    s.Elementwise (.vscale r f e d a b) r w 3 [a, b] d e (fun l =>
      match num f (l.getD 0 0) with
      | .fin n m k st => out f (.fin n m (k + (BitVec.ofNat w (l.getD 1 0)).toInt) st) 0
      | v => out f v 0) ∧
    s.Elementwise (.vmin r f e d a b) r w 3 [a, b] d e (fun l => (elPick false f x (l.getD 0 0) (l.getD 1 0), 0)) ∧
    s.Elementwise (.vmax r f e d a b) r w 3 [a, b] d e (fun l => (elPick true f x (l.getD 0 0) (l.getD 1 0), 0)) ∧
    one (.vabs r f e d a) 2 (fun c => (c % 2 ^ (w - 1), 0)) ∧
    one (.vneg r f e d a) 2 (fun c => (c + 2 ^ (w - 1), 0)) ∧
    one (.vsqrt r f e d a) 14 (fun c => match num f c with
      | .fin n m k _ => if m = 0 then out f (.fin n 0 0 false) 0 else if n then out f .nan evInv else out f (sqrtNum m k) 0
      | .inf n => if n then out f .nan evInv else out f (.inf false) 0
      | .nan => out f .nan 0) ∧
    one (.vrcp r f e d a) 8 (fun c => out f ((Machine.Num.ofInt 1).div (num f c)).1 ((Machine.Num.ofInt 1).div (num f c)).2) ∧
    one (.vrsq r f e d a) 8 (fun c => match num f c with
      | .fin n m k _ => if m = 0 then out f (.inf n) evDze else if n then out f .nan evInv else out f (rsqrtNum m k) 0
      | .inf n => if n then out f .nan evInv else out f (.fin false 0 0 false) 0
      | .nan => out f .nan 0) ∧
    one (.vexp2 r f e d a) 8 (fun c => match num f c with
      | .fin n m k _ => out f (exp2Num n m k) 0
      | .inf n => out f (if n then .fin false 0 0 false else .inf false) 0
      | .nan => out f .nan 0) ∧
    one (.vlog2 r f e d a) 8 (fun c => match num f c with
      | .fin n m k _ => if m = 0 then out f (.inf true) evDze else if n then out f .nan evInv else out f (log2Num m k) 0
      | .inf n => if n then out f .nan evInv else out f (.inf false) 0
      | .nan => out f .nan 0) ∧
    fused (.vfmaF32F64 r d5 e a5 b5 c5 t) (if t then .f64 else .f32) false false ∧
    fused (.vfmaBf16F16 r d5 e a5 b5 c5 t) (if t then .f16 else .bf16) false false ∧
    fused (.vfmsF32F64 r d5 e a5 b5 c5 t) (if t then .f64 else .f32) false true ∧
    fused (.vfmsBf16F16 r d5 e a5 b5 c5 t) (if t then .f16 else .bf16) false true ∧
    fused (.vfnmaF32F64 r d5 e a5 b5 c5 t) (if t then .f64 else .f32) true false ∧
    fused (.vfnmaBf16F16 r d5 e a5 b5 c5 t) (if t then .f16 else .bf16) true false

/-- The order of float VMIN and VMAX (R176): NaN if either operand is NaN, else one of the operands as DAZ left it, never above, or below, the
other; −0 is below +0. Rounding leaves what the format holds (R139, R150, R154 to R156): a code that is no NaN, and no subnormal
that FTZ flushes, rounds to itself without an event in every mode. Off the grid it takes one of the two neighbours as the mode says,
overflows by the table and flushes under FTZ, with the events of R155 (R150 to R152, R154 to R156); a value strictly between two
close ones rounds as the number that stands for it; quotients, roots and their inverses are such numbers, and powers and logarithms
with an integer result are exact (R176, R178). Before it is rounded a sum or a product is the exact one, with the table's special cases
and the sign of a zero (R176); a power or a logarithm stands in the last place but one of 98 bits, or of 2^−256 (log entry 46).
It rests on readings and choices of the model: log entry 46. -/
def Obligations.FloatValueLaws : Prop :=
  (∀ (x : Ctx) (f : Fmt) (p q : Nat), f.isFloat = true → p < 2 ^ f.width → q < 2 ^ f.width →
     let a := x.num f p
     let b := x.num f q
     let lo := elPick false f x p q
     let hi := elPick true f x p q
     let daz := fun (c : Nat) => dazCode x.daz f c
     (a = .nan ∨ b = .nan → lo = f.nanCode ∧ hi = f.nanCode) ∧
     (a ≠ .nan → b ≠ .nan →
       (lo = daz p ∨ lo = daz q) ∧ (hi = daz p ∨ hi = daz q) ∧
       a.lt (Machine.Num.ofCode f lo) = false ∧ b.lt (Machine.Num.ofCode f lo) = false ∧
       (Machine.Num.ofCode f hi).lt a = false ∧ (Machine.Num.ofCode f hi).lt b = false) ∧
     (a.isZero = true → b.isZero = true → (Machine.Num.ofCode f lo).neg? = (a.neg? || b.neg?) ∧
       (Machine.Num.ofCode f hi).neg? = (a.neg? && b.neg?))) ∧
  (∀ (f : Fmt) (c : Nat) (ctl : RCtl), c < 2 ^ f.width → f ≠ .e8m0 → Machine.Num.ofCode f c ≠ .nan → ctl.sat = false →
     (ctl.ftz = true → f.flushable = true → subnormalCode f c = false) →
     roundNum f ctl (Machine.Num.ofCode f c) = (c, 0)) ∧
  (∀ (f : Fmt) (ctl : RCtl) (neg : Bool) (m : Nat) (e : Int), f.isFloat = true → m ≠ 0 → ctl.rand.k ≤ 32 →
     let mag := (Machine.Num.fin false m e false).val
     let got := roundNum f ctl (.fin neg m e false)
     let signed := fun (z : Nat) => if neg then 2 ^ (f.width - 1) + z else z
     let cap := if ctl.sat ∨ f = .e3m2 ∨ f = .e2m3 ∨ f = .e2m1 then signed f.maxCode
       else if f = .e4m3 then 0x7F
       else match ctl.mode with
         | .rtz => signed f.maxCode
         | .rup => if neg then signed f.maxCode else f.infCode
         | .rdn => if neg then signed f.infCode else f.maxCode
         | _ => signed f.infCode
     let tiny := decide (mag < gridVal f (2 ^ f.mbits))
     ((ctl.ftz && f.flushable && tiny) = true → got = (signed 0, evUnf ||| evInx)) ∧
     ((ctl.ftz && f.flushable && tiny) = false →
       (gridVal f (f.maxCode + 1) ≤ mag → got = (cap, evOvf ||| evInx)) ∧
       (∀ z, z ≤ f.maxCode → gridVal f z ≤ mag → mag < gridVal f (z + 1) →
         let frac := (mag - gridVal f z) / (gridVal f (z + 1) - gridVal f z)
         let hi := ctl.takesHi neg (z % 2 = 1) frac
         got = if mag = gridVal f z then (signed z, 0)
           else if hi = true ∧ z = f.maxCode then (cap, evOvf ||| evInx)
           else (signed (if hi then z + 1 else z), if tiny then evUnf ||| evInx else evInx)))) ∧
  (∀ (f : Fmt) (ctl : RCtl) (neg : Bool) (m : Nat) (e : Int), f.isFloat = false → m ≠ 0 → ctl.rand.k ≤ 32 →
     let mag := (Machine.Num.fin false m e false).val
     let lo := mag.floor
     let q := if ctl.takesHi neg (lo % 2 = 1) (mag - lo) then lo + 1 else lo
     let v := if neg then -q else q
     roundNum f ctl (.fin neg m e false) = ((max f.intMin (min f.intMax v) % 2 ^ f.width).toNat,
       if v < f.intMin ∨ f.intMax < v then evInv ||| evInx else if mag = lo then 0 else evInx)) ∧
  (∀ (f : Fmt) (ctl : RCtl) (neg : Bool) (m n : Nat) (e d : Int), ctl.mode ≠ .sr →
     (if f.isFloat then f.mbits + 2 ≤ Nat.log2 m else e < 0) →
     (Machine.Num.fin false m e false).val < (Machine.Num.fin false n d false).val →
     (Machine.Num.fin false n d false).val < (Machine.Num.fin false (m + 1) e false).val →
     roundNum f ctl (.fin neg m e true) = roundNum f ctl (.fin neg n d false)) ∧
  (∀ (m n : Nat) (e d : Int) (a b : Bool), m ≠ 0 → n ≠ 0 →
     let x := (Machine.Num.fin false m e false).val
     let y := (Machine.Num.fin false n d false).val
     ((Machine.Num.fin a m e false).div (.fin b n d false)).1.floors (a != b) (fun q => q * y ≤ x) (fun q => q * y = x) ∧
     ((Machine.Num.fin a m e false).div (.fin b n d false)).2 = 0 ∧
     (sqrtNum m e).floors false (fun q => q ^ 2 ≤ x) (fun q => q ^ 2 = x) ∧
     (rsqrtNum m e).floors false (fun q => q ^ 2 * x ≤ 1) (fun q => q ^ 2 * x = 1)) ∧
  (∀ (neg : Bool) (m : Nat) (e k : Int), k.natAbs ≤ 2 ^ 20 →
     ((Machine.Num.fin neg m e false).val = k → exp2Num neg m e = .fin false 1 k false) ∧
     ((Machine.Num.fin false m e false).val = (2 : Rat) ^ k → log2Num m e = Machine.Num.ofInt k)) ∧
  (∀ (rdn a b : Bool) (m n : Nat) (e d : Int),
     let x := Machine.Num.fin a m e false
     let y := Machine.Num.fin b n d false
     (∃ g k h, x.add rdn y = (.fin g k h false, false) ∧ (Machine.Num.fin g k h false).val = x.val + y.val ∧
       (k = 0 → g = if m = 0 ∧ n = 0 ∧ a = b then a else rdn)) ∧
     ∃ k h, x.mul y = (.fin (a != b) k h false, false) ∧ (Machine.Num.fin (a != b) k h false).val = x.val * y.val) ∧
  (∀ (rdn a : Bool) (x : Machine.Num),
     let inf := Machine.Num.inf a
     let nan := (Machine.Num.nan, false)
     (x = .nan → x.add rdn inf = nan ∧ inf.add rdn x = nan ∧ x.mul inf = nan ∧ inf.mul x = nan) ∧
     (∀ y, Machine.Num.nan.add rdn y = nan ∧ y.add rdn .nan = nan ∧ Machine.Num.nan.mul y = nan ∧ y.mul .nan = nan) ∧
     (x = .inf (!a) → x.add rdn inf = (.nan, true) ∧ inf.add rdn x = (.nan, true)) ∧
     (x ≠ .nan → x ≠ .inf (!a) → x.add rdn inf = (inf, false) ∧ inf.add rdn x = (inf, false)) ∧
     (x.isZero = true → x.mul inf = (.nan, true) ∧ inf.mul x = (.nan, true)) ∧
     (x ≠ .nan → x.isZero = false → x.mul inf = (.inf (x.neg? != a), false) ∧ inf.mul x = (.inf (a != x.neg?), false))) ∧
  (∀ (neg : Bool) (m : Nat) (e : Int), m ≠ 0 →
     let x := (Machine.Num.fin false m e false).val
     let v := fun (r : Nat) (k : Int) => (Machine.Num.fin false r k false).val
     let D : Nat := 2 ^ (-e).toNat
     let V : Int := if neg then -m else m
     let K : Nat := 2 ^ 256
     (e < 0 → e + (Nat.log2 m : Int) ≤ 20 → ∃ r k st, exp2Num neg m e = .fin false r k st ∧ (st = true → 98 ≤ Nat.log2 r) ∧
       v r k ^ D ≤ (2 : Rat) ^ V ∧ (2 : Rat) ^ V < v (r + 2) k ^ D) ∧
     ((∀ k : Int, x ≠ (2 : Rat) ^ k) → ∃ below r, log2Num m e = .fin below r (-256) true ∧
       let z := if below then 1 / x else x
       (2 : Rat) ^ r ≤ z ^ K ∧ z ^ K < (2 : Rat) ^ (r + 2)))

/-- Compares, class tests and the active mask (R36, R171, R182, R183, R185): every bit of md that governs a byte of an active element takes the
element's truth, the others are cleared, three slots later; VMSEL is in force from the next slot. Selection and lane movement (R184,
R193): the byte of va where the mask has a one and of vb elsewhere; broadcasts, insertions, permutations, rotations and slides with
their indices modulo n; VEXT lands a sign-extended element in an exchange register.
It rests on readings and choices of the model: log entries 41 and 47. -/
def Obligations.VectorCompareAndMoveResults : Prop :=
  (∀ (s : State) (r : Ring) (md : KReg) (k : Cond) (f : Fmt) (a b : VReg) (set : BitVec 6), s.Opens .v r → f.isFIN = true →
     let x := s.slotCtx .v
     let w := f.width
     let num := fun (c : Nat) => x.num f c
     let val := fun (c : Nat) => if f.isSigned then (BitVec.ofNat w c).toInt else (c : Int)
     let holds := fun (p q : Nat) =>
       let un := (num p).isNan || (num q).isNan
       if f.isFloat then match k with
         | .eq => (num p).eqv (num q)
         | .ne => !(num p).eqv (num q)
         | .lt => (num p).lt (num q)
         | .ge => !un && !(num p).lt (num q)
         | .ltn => un || (num p).lt (num q)
         | .gen => !(num p).lt (num q)
         | .any => un
         | .none => !un
       else match k with
         | .eq => decide (p = q)
         | .ne => decide (p ≠ q)
         | .lt => decide (val p < val q)
         | .ge => decide (val q ≤ val p)
         | .ltn => decide (p < q)
         | .gen => decide (q ≤ p)
         | .any => decide (p &&& q ≠ 0)
         | .none => decide (p &&& q = 0)
     let cls := fun (c : Nat) => match Machine.Num.ofCode f c with
       | .nan => 0
       | .inf true => 1
       | .inf false => 2
       | .fin _ 0 _ _ => 3
       | _ => if subnormalCode f c then 4 else 5
     let test := fun (i : Instr) (srcs : List VReg) (truth : Nat → Bool) => s.VecReady srcs [] (s.takes i) →
       ∃ v, exec i s = .next (State.complete s.cur .v r (Done.one (s.vecSeen srcs)
           (New.plain (if srcs.any fun q => (x.tag q).isNone && inWindow .ofs (x.view q) then 9 else 3) (.mask md v)))) ∧
         ∀ j, j < 128 → v.getLsbD j = (s.vecActive w (8 * j / w) && truth (8 * j / w))
     test (.vcmp r md k a b f) [a, b] (fun j => holds (s.vecElem w a j) (s.vecElem w b j)) ∧
     (f.isFloat = true → test (.vclass r md a set f) [a] fun j => set.getLsbD (cls (s.vecElem w a j))) ∧
     exec (.vmsel r md) s = .next (s.passes .v r fun u => u.modCtx s.cur fun x => { x with actm := md }) ∧
     exec (.vnop r) s = .next (s.passes .v r id)) ∧
  (∀ (s : State) (r : Ring) (t : Wd) (e : Bool) (d a b : VReg) (sd sx : XReg), s.Opens .v r →
     let x := s.slotCtx .v
     let w := match t with
       | .w8 => 8
       | .w16 => 16
       | .w32 => 32
       | .w64 => 64
     let n := 1024 / w
     let S := (x.sr (48 + sx.setWidth 6)).toNat
     let ix := (x.sr (48 + (sx + 1).setWidth 6)).toNat
     let A := s.vecElem w a
     let far := (x.tag a).isNone && inWindow .ofs (x.view a)
     s.WholeWise (.vsel r e d a b) r 2 [a, b] d e
       (vecOf 8 ((List.range 128).map fun j => if s.vecActive 8 j then s.vecElem 8 a j else s.vecElem 8 b j)) 0 ∧
     s.LaneWise (.vbcast r t e d sx) r w 2 [] d e (fun _ => S) ∧
     s.LaneWise (.vins r t e d a sx) r w 3 [a] d e (fun j => if j = ix % n then S else A j) ∧
     s.LaneWise (.vperm r t e d a b) r w 4 [a, b] d e (fun j => A (s.vecElem w b j % n)) ∧
     s.LaneWise (.vrotDn r t e d a sx) r w 3 [a] d e (fun j => A ((j + S) % n)) ∧
     s.LaneWise (.vrotUp r t e d a sx) r w 3 [a] d e (fun j => A ((j + n - S % n) % n)) ∧
     s.LaneWise (.vslideDn r t e d a sx) r w 3 [a] d e (fun j => if j + min S n < n then A (j + min S n) else 0) ∧
     s.LaneWise (.vslideUp r t e d a sx) r w 3 [a] d e (fun j => if min S n ≤ j then A (j - min S n) else 0) ∧
     (s.VecReady [a] [] allBytes → exec (.vext r t sd a sx) s = .next (State.complete s.cur .v r (Done.one (s.vecSeen [a])
       (New.plain (if far then 9 else 3)
         (.scalar (48 + sd.setWidth 6) (BitVec.ofInt 64 (BitVec.ofNat w (A (S % n))).toInt)))))))

/-- Reductions and scans (R194): VRED gives element 0 the reduction of the active elements and every other one zero, VSCAN gives each
element that of the active elements up to it, with the events of them all, whatever the mask. An integer sum wraps; an integer minimum and maximum are active
elements that no other one passes, or the end of the range for none. A float sum is the exact sum rounded once under ARM, −0 only
when every addend is −0, with NaN and the infinities as the table says; a float minimum and maximum are elements that no other passes,
NaN if one is, an infinity for none.
It rests on readings and choices of the model: log entry 44. -/
def Obligations.VectorReductionResults : Prop :=
  (∀ (s : State) (r : Ring) (f : Fmt) (e : Bool) (d a : VReg), s.Opens .v r → f.isFI = true →
    let w := f.width
    let act := fun (m : Nat) => ((List.range m).filter (s.vecActive w)).map (s.vecElem w a)
    let red := fun (i : Instr) (op : RedOp) => ∃ ev v, (ev = (reduce f op (s.slotCtx .v) (act (1024 / w))).2) ∧
      (∀ j, j < 1024 / w → elem v w j = if j = 0 then (reduce f op (s.slotCtx .v) (act (1024 / w))).1 % 2 ^ w else 0) ∧
      s.WholeWise i r 6 [a] d e v ev
    let scan := fun (i : Instr) (op : RedOp) => ∃ ev v,
      (∀ j, j < 1024 / w → elem v w j = (reduce f op (s.slotCtx .v) (act (j + 1))).1 % 2 ^ w) ∧
      (∀ k, ev.getLsbD k = true ↔ ∃ j, j < 1024 / w ∧ (reduce f op (s.slotCtx .v) (act (j + 1))).2.getLsbD k = true) ∧
      s.WholeWise i r 8 [a] d e v ev
    red (.vredSum r f e d a) .sum ∧ red (.vredMin r f e d a) .min ∧ red (.vredMax r f e d a) .max ∧
    scan (.vscanSum r f e d a) .sum ∧ scan (.vscanMin r f e d a) .min ∧ scan (.vscanMax r f e d a) .max) ∧
  (∀ (x : Ctx) (f : Fmt) (l : List Nat), f.isFloat = false → (∀ c ∈ l, c < 2 ^ f.width) →
    let val := fun (c : Nat) => if f.isSigned then (BitVec.ofNat f.width c).toInt else (c : Int)
    reduce f .sum x l = (l.sum % 2 ^ f.width, 0) ∧
    (l = [] → (reduce f .min x l).1 = (f.intMax % 2 ^ f.width).toNat ∧ (reduce f .max x l).1 = (f.intMin % 2 ^ f.width).toNat) ∧
    (l ≠ [] → (reduce f .min x l).1 ∈ l ∧ (reduce f .max x l).1 ∈ l ∧
      ∀ c ∈ l, val (reduce f .min x l).1 ≤ val c ∧ val c ≤ val (reduce f .max x l).1)) ∧
  ∀ (x : Ctx) (f : Fmt) (l : List Nat), f.isF = true → (∀ c ∈ l, c < 2 ^ f.width) →
    let ctl : RCtl :=
      { mode := [Rnd.rne, .rtz, .rdn, .rup, .rna].getD x.arm.toNat (Rnd.ofCode x.arm.toNat), sat := false, ftz := x.ftz,
        rand := { k := 0, r := 0 } }
    let vs := l.map (x.num f)
    let both := Machine.Num.inf false ∈ vs ∧ Machine.Num.inf true ∈ vs
    let lo := (reduce f .min x l).1
    let hi := (reduce f .max x l).1
    (l = [] → reduce f .sum x l = (0, 0) ∧ lo = f.infCode ∧ hi = 2 ^ (f.width - 1) + f.infCode) ∧
    (Machine.Num.nan ∈ vs → (reduce f .sum x l).1 = f.nanCode ∧ lo = f.nanCode ∧ hi = f.nanCode) ∧
    (both → reduce f .sum x l = (f.nanCode, evInv)) ∧
    (Machine.Num.nan ∉ vs → ¬ both → ∀ n, Machine.Num.inf n ∈ vs →
      reduce f .sum x l = (if n then 2 ^ (f.width - 1) + f.infCode else f.infCode, 0)) ∧
    (l ≠ [] → (∀ v ∈ vs, v.exact) → ∃ n m e, (Machine.Num.fin n m e false).val = (vs.map Machine.Num.val).sum ∧
      (m = 0 → (n = true ↔ ∀ v ∈ vs, v.isZero = true ∧ v.neg? = true)) ∧
      reduce f .sum x l = roundNum f ctl (.fin n m e false)) ∧
    (l ≠ [] → Machine.Num.nan ∉ vs → lo ∈ l.map (dazCode x.daz f) ∧ hi ∈ l.map (dazCode x.daz f) ∧
      ∀ v ∈ vs, v.lt (Machine.Num.ofCode f lo) = false ∧ (Machine.Num.ofCode f hi).lt v = false)

/-- Faults of the V instructions that name registers only, the conversions among them (R51, R52, R173, R186, R188, R189): an operand in a window that is not granted, then a source whose ephemeral
window is over, then an uncorrectable byte of those that the instruction takes (R171), the lowest of the first such source, each with its
address; a source in a bank that refreshes stalls the stream for the cycle and changes nothing.
It rests on readings and choices of the model: log entries 40, 41, 42 and 149. -/
def Obligations.VectorOperandFaults : Prop :=
  ∀ (s : State) (i : Instr) (r : Ring) (srcs dsts : List VReg),
    let x := s.slotCtx .v
    x.registerOperands i = some (r, srcs, dsts) → s.Opens .v r →
    let reads := (srcs.map x.regSpan).flatten
    (∀ q, (srcs ++ dsts).find? x.viewBad = some q →
      exec i s = .next (s.traps .v .viewInvalid (BitVec.ofNat 64 (x.view q)))) ∧
    ((∀ q ∈ srcs ++ dsts, x.viewBad q = false) →
      (∀ q, srcs.find? x.expired = some q →
        exec i s = .next (s.traps .v .ephemeralExpired (BitVec.ofNat 64 (x.view q)))) ∧
      ((∀ q ∈ srcs, x.expired q = false) →
        (s.refreshHit reads = true → exec i s = .next s) ∧
        (s.refreshHit reads = false → ∀ older q newer b, srcs = older ++ q :: newer →
          (∀ p ∈ older, ∀ a, ¬ s.spoils (s.takes i) p a) → s.spoils (s.takes i) q b → (∀ a, a < b → ¬ s.spoils (s.takes i) q a) →
          s.FailsRead .v i .ofs b)))

/-- Conversions (R140, R152, R186, R188, R189): VCVT converts the elements of the even register under CRM, SAT, FTZ and DAZ, SR taking its
random bits from the odd one, and writes the bits above its elements zero; VPACK converts both registers whatever the mask and takes
SR as RNE; VUNPK lands one register a slot from the third on and occupies as many slots; that each register's events enter VFLAGS
with that register, and that a lent window delays all of them, is the model's choice (log entry 123).
It rests on readings and choices of the model: log entries 42, 43, 47 and 123. -/
def Obligations.VectorConversionResults : Prop :=
  ∀ (s : State) (r : Ring) (vd : VReg) (vp : BitVec 5) (e : Bool) (fs fd : Fmt), s.Opens .v r →
    let x := s.slotCtx .v
    let lo : VReg := vp.setWidth 6 <<< 1
    let hi : VReg := lo + 1
    let sr := decide (x.crm = 5)
    let mode := fun (stoch : Bool) => [Rnd.rne, .rtz, .rdn, .rup, .rna, if stoch then .sr else .rne].getD x.crm.toNat .rne
    let cvt := fun (stoch : Bool) (rand c : Nat) => roundNum fd
      { mode := mode stoch, sat := x.sat, ftz := x.ftz, rand := { k := x.srk.toNat, r := rand } } (x.num fs c)
    let n := 1024 / max fs.width fd.width
    let rand := fun (j : Nat) =>
      ((BitVec.ofNat 32 (s.vecElem 32 hi (j % 32))).rotateRight (8 * (j / 32))).toNat % 2 ^ x.srk.toNat
    let srcs := if sr then [lo, hi] else [lo]
    (fs ≠ .e8m0 → fd ≠ .e8m0 → s.VecReady srcs [vd] (s.takes (.vcvt r vd vp e fs fd)) → ∃ v bits ev, exec (.vcvt r vd vp e fs fd) s = .next (s.vecLands r 3 srcs vd e v bits ev) ∧
      (∀ j, j < n →
        let q := cvt true (if sr then rand j else 0) (s.vecElem fs.width lo j)
        (s.vecActive fd.width j = true → elem v fd.width j = q.1 ∧ elem bits fd.width j = 2 ^ fd.width - 1 ∧
          ∀ k, q.2.getLsbD k = true → ev.getLsbD k = true) ∧
        (s.vecActive fd.width j = false → elem bits fd.width j = 0)) ∧
      (∀ i, n * fd.width ≤ i → i < 1024 → v.getLsbD i = false ∧ bits.getLsbD i = true)) ∧
    (packPair fs fd = true → ∃ v ev, s.WholeWise (.vpack r vd vp e fs fd) r 4 [lo, hi] vd e v ev ∧
      let h := 1024 / fs.width
      (∀ j, j < 2 * h →
        let q := cvt false 0 (s.vecElem fs.width (if j < h then lo else hi) (j % h))
        elem v fd.width j = q.1 ∧ ∀ k, q.2.getLsbD k = true → ev.getLsbD k = true) ∧
      (∀ i, 2 * h * fd.width ≤ i → i < 1024 → v.getLsbD i = false)) ∧
    (let g := fd.width / unpkWidth fs
     let dsts := (List.range g).map fun i => vd + BitVec.ofNat 6 i
     unpkPair fs fd = true → s.VecReady [lo] dsts allBytes → ∃ news, exec (.vunpk r vd vp fs fd) s = .next (State.complete s.cur .v r
         { Done.plain (s.vecSeen [lo]) with lands := news, occ := g }) ∧ news.length = g ∧
       let far := ((x.tag lo).isNone && inWindow .ofs (x.view lo)) || dsts.any fun d => inWindow .ofs (x.view d)
       ∀ i nw, news[i]? = some nw →
         let d := vd + BitVec.ofNat 6 i
         let per := 1024 / fd.width
         let q := fun (j : Nat) => cvt false 0 (s.vecElem fs.width lo (i * per + j))
         nw.lat = 3 + i + (if far then 6 else 0) ∧
         (∀ k, nw.vfl.getLsbD k = true ↔ ∃ j, j < per ∧ (q j).2.getLsbD k = true) ∧
         ∃ v, nw.dest = .vec d (x.view d) v (BitVec.allOnes 1024) ∧ ∀ j, j < per → elem v fd.width j = (q j).1)

/-- Group quantisation (R190 to R192): a `.g32` scale address that is no multiple of 4 faults; VQNT lands the 32 codes and, in the same slot,
the scale bytes at A, with the elements quantised block by block; VDQNT reads the scales in its slot and lands 32 f32 elements; both
ignore the mask. A block with a NaN or an infinity, and a block of zeros, take the scales of the table and zero codes; under `.mx` the
exponent code is that of the largest magnitude, held between 0 and 254; under `.s16` and `.s32` the scale is the least e4m3 value not
below the largest magnitude over the limit of the format, under `.g32` the least f16 value not below the range over the codes, with
the zero point rounded, each capped; the elements are the scaled ones rounded under the control.
It rests on readings and choices of the model: log entries 40, 41 and 45. -/
def Obligations.QuantisationResults : Prop :=
  (∀ (s : State) (r : Ring) (t : Fmt) (e : Bool) (vd va : VReg) (sx : XReg) (g : QGeo), s.Opens .v r → qPair t g = true →
     let x := s.slotCtx .v
     let u := s.slot .v
     let A := x.sr (48 + sx.setWidth 6)
     let len := match g with
       | .s16 => 16
       | _ => 32
     let z := match g with
       | .g32 => 4
       | _ => 1
     let geo := match g with
       | .mx => 1
       | .s16 => 2
       | .s32 => 3
       | .g32 => 4
     let far := ((x.tag va).isNone && inWindow .ofs (x.view va)) || (!e && inWindow .ofs (x.view vd))
     let lat := if far then 12 else 6
     let as := span A.toNat (32 / len * z)
     let aligned := g ≠ .g32 ∨ A.toNat % 4 = 0
     let ctl : RCtl :=
       { mode := [Rnd.rne, .rtz, .rdn, .rup, .rna].getD x.crm.toNat .rne, sat := true, ftz := x.ftz, rand := { k := x.srk.toNat, r := 0 } }
     let block := fun (b : Nat) => quantBlock t g ctl ((span (b * len) len).map fun j => x.num .f32 (s.vecElem 32 va j))
     let k := fun (j : Nat) => leNat (u.localBytes s.cur 1 .sm (A.toNat + j / len * z) z)
     (¬ aligned → (∀ q ∈ [va, vd], x.viewBad q = false) → x.expired va = false →
       exec (.vqnt r t e vd va sx g) s = .next (s.traps .v .misaligned A) ∧
       exec (.vdqnt r t e vd va sx g) s = .next (s.traps .v .misaligned A)) ∧
     (aligned → s.VecReady [va] [vd] allBytes →
       (∃ v ev scales, exec (.vqnt r t e vd va sx g) s = .next (State.complete s.cur .v r
           { Done.plain (s.vecSeen [va]) with lands :=
               [{ lat := lat, dest := .cells .sm scales, vfl := 0, mfl := 0 },
                { lat := lat, dest := if e then .eph vd v else .vec vd (x.view vd) v (BitVec.allOnes 1024), vfl := ev, mfl := 0 }] }) ∧
         scales.map (·.1) = as ∧
         (∀ b, b < 32 / len → leNat ((scales.map (·.2)).drop (b * z) |>.take z) = (block b).scale % 256 ^ z) ∧
         (∀ j, j < 32 → elem v t.width j = (block (j / len)).codes.getD (j % len) 0 % 2 ^ t.width) ∧
         (∀ i, 32 * t.width ≤ i → i < 1024 → v.getLsbD i = false)) ∧
       (u.badOf s.cur 1 .sm as = none →
         ∃ v ev, exec (.vdqnt r t e vd va sx g) s = .next (State.complete s.cur .v r (Done.one
             ((s.vecSeen [va]).oorNote s.cur .v .sm false (minOf (u.outOf s.cur .sm as)))
             { lat := lat, dest := if e then .eph vd v else .vec vd (x.view vd) v (BitVec.allOnes 1024), vfl := ev, mfl := 0 })) ∧
           ∀ j, j < 32 → elem v 32 j = (roundNum .f32 { mode := .rne, sat := false, ftz := false, rand := { k := 0, r := 0 } }
             (scaledElem t geo (k j) (s.vecElem t.width va j))).1) ∧
       (∀ b, u.badOf s.cur 1 .sm as = some b →
         exec (.vdqnt r t e vd va sx g) s = .next (s.traps .v .uncorrectableData (BitVec.ofNat 64 b))))) ∧
  (∀ (t : Fmt) (g : QGeo) (ctl : RCtl) (xs : List Machine.Num),
     let q := quantBlock t g ctl xs
     let big := amaxOf xs
     q.codes.length = xs.length ∧
     ((∃ v ∈ xs, v = .nan ∨ ∃ n, v = .inf n) →
       q.scale = (match g with
         | .mx => 0xFF
         | .s16 => 0x7F
         | .s32 => 0x7F
         | .g32 => 0x7E00) ∧ (∀ c ∈ q.codes, c = 0) ∧ q.ev = evInv) ∧
     ((∀ v ∈ xs, ∃ n m k st, v = .fin n m k st) →
       (big.isZero = true → q.scale = (match g with
         | .mx => 0x7F
         | .s16 => 0
         | .s32 => 0
         | .g32 => 0x3C00) ∧ (∀ c ∈ q.codes, c = 0) ∧ q.ev = 0) ∧
       (big.isZero = false → g = .mx → q.scale ≤ 254 ∧
         (1 ≤ q.scale → q.scale ≤ 253 → (q.scale : Int) = ilog2 big - qEmax t + 127)))) ∧
  (∀ (t : Fmt) (g : QGeo) (ctl : RCtl) (xs : List Machine.Num), qPair t g = true → (∀ v ∈ xs, v.exact) →
     (∃ v ∈ xs, v.isZero = false) →
     let q := quantBlock t g ctl xs
     let val := Machine.Num.val
     let mag := fun v => if val v < 0 then -val v else val v
     let big := amaxOf xs
     let sc := q.scale % 2 ^ 16
     let least := fun (f : Fmt) (v : Rat) => sc ≤ f.maxCode ∧ (∀ c, c < sc → gridVal f c < v) ∧ (v ≤ gridVal f sc ∨ sc = f.maxCode)
     let near : RCtl := { mode := .rne, sat := true, ftz := false, rand := { k := 0, r := 0 } }
     big ∈ xs ∧ (∀ v ∈ xs, mag v ≤ mag big) ∧
     (g = .mx → ∀ (j : Nat) v, xs[j]? = some v → ∃ n m e, (Machine.Num.fin n m e false).val = val v * (2 : Rat) ^ ((if t = .i8 then 133 else 127) - (q.scale : Int)) ∧
       q.codes[j]? = some (roundNum t ctl (.fin n m e false)).1) ∧
     (g = .s16 ∨ g = .s32 → least .e4m3 (mag big / gridVal t t.maxCode) ∧ q.scale = sc ∧
       q.codes = xs.map fun v => (roundNum t ctl (v.div (Machine.Num.ofCode .e4m3 sc)).1).1) ∧
     (g = .g32 →
       let S := gridVal .f16 sc
       let S' := Machine.Num.ofCode .f16 sc
       let zp := q.scale / 2 ^ 16
       ∃ lo hi n m e, (lo = 0 ∨ lo ∈ xs.map val) ∧ (hi = 0 ∨ hi ∈ xs.map val) ∧ lo ≤ 0 ∧ 0 ≤ hi ∧
         (∀ v ∈ xs, lo ≤ val v ∧ val v ≤ hi) ∧ least .f16 ((hi - lo) / ((t.intMax - t.intMin : Int) : Rat)) ∧
         (Machine.Num.fin n m e false).val = t.intMin * S - lo ∧
         zp = (roundNum .i8 near ((Machine.Num.fin n m e false).div S').1).1 ∧
         ∀ (j : Nat) v, xs[j]? = some v → ∃ n m e, (Machine.Num.fin n m e false).val = val v + (BitVec.ofNat 8 zp).toInt * S ∧
           q.codes[j]? = some (roundNum t ctl ((Machine.Num.fin n m e false).div S').1).1))

/-- Memory forms of V (R44, R175, R195 to R198): the checks of R173 with the addresses of R196; the active elements alone are read at
their addresses and land after six slots, or are stored in the slot in element order; narrow strided and indexed forms occupy two
or four slots; a store that a region counter refuses faults with its first refused element's address, VST with its own; every byte of every buffer and of memory that a store does not name
keeps its value where no region entry counts (R44).
It rests on readings and choices of the model: log entries 28, 41, 47 and 48. -/
def Obligations.VectorMemoryResults : Prop :=
  ∀ (s : State) (r : Ring) (t : Wd) (e : Bool) (vd va : VReg) (sa sb : XReg) (sp : VSp), s.Opens .v r →
    let x := s.slotCtx .v
    let u := s.slot .v
    let w := match t with
      | .w8 => 8
      | .w16 => 16
      | .w32 => 32
      | .w64 => 64
    let occ := match t with
      | .w8 => 4
      | .w16 => 2
      | _ => 1
    let space := match sp with
      | .xb => Space.xb
      | .ofs => .ofs
    let A := x.sr (48 + sa.setWidth 6)
    let B := x.sr (48 + sb.setWidth 6)
    let word := fun (n : Nat) => BitVec.ofNat 64 n
    let ea := A + B
    let lut := word (A.toNat % 2 ^ 32)
    let pos := A.toNat / 2 ^ 32 % 64
    let len := min (A.toNat / 2 ^ 40 % 32) 16
    let strided := fun (j : Nat) => word (A.toNat + j * B.toNat)
    let indexed := fun (j : Nat) => word (A.toNat + s.vecElem w va j * (w / 8))
    let looked := fun (j : Nat) => word (lut.toNat + s.vecElem w va j / 2 ^ pos % 2 ^ len * (w / 8))
    let act := fun (w : Nat) => (List.range (1024 / w)).filter (s.vecActive w)
    let takes := fun (w : Nat) (_ : VReg) (b : Nat) => s.vecActive w (8 * b / w) = true
    let misL := if A.toNat % (w / 8) ≠ 0 then some A else if B.toNat % (w / 8) ≠ 0 then some (A + B) else none
    let misI := fun (b : Word) => if b.toNat % (w / 8) ≠ 0 then some b else none
    let bad := fun (i : Instr) (srcs dsts : List VReg) (mis : Option Word) =>
      (∀ q ∈ srcs ++ dsts, x.viewBad q = false) → (∀ q ∈ srcs, x.expired q = false) →
      ∀ a, mis = some a → exec i s = .next (s.traps .v .misaligned a)
    let load := fun (i : Instr) (w : Nat) (space : Space) (srcs : List VReg) (occ : Nat) (mis : Option Word) (at' : Nat → Word) =>
      let spans := fun (j : Nat) => (List.range (w / 8)).map ((at' j).toNat + ·)
      let as := ((act w).map spans).flatten
      bad i srcs [vd] mis ∧
      (mis = none → s.VecReady srcs [vd] (takes w) → (space = .ofs → s.refreshHit as = false) →
        (∀ b, u.ldBad s.cur 1 space as = some b → s.FailsRead .v i space b) ∧
        (u.ldBad s.cur 1 space as = none → ∃ v bits, exec i s = .next (State.complete s.cur .v r
            { Done.plain ((s.vecSeen srcs).oorNote s.cur .v space false (minOf (u.ldOut s.cur 1 space as))) with
              lands := [{ lat := if as.any (inWindow space) || srcs.any (fun q => (x.tag q).isNone && inWindow .ofs (x.view q)) ||
                              (!e && inWindow .ofs (x.view vd)) then 12 else 6
                          dest := if e then .eph vd (v &&& bits) else .vec vd (x.view vd) v bits, vfl := 0, mfl := 0 }]
              occ := occ }) ∧
          ∀ j, j < 1024 / w → elem bits w j = (if s.vecActive w j then 2 ^ w - 1 else 0) ∧
            (s.vecActive w j = true → elem v w j = leNat ((spans j).map (u.ldByte s.cur 1 space)))))
    let store := fun (i : Instr) (w : Nat) (space : Space) (srcs : List VReg) (occ : Nat) (mis : Option Word) (at' : Nat → Word)
        (whole : Bool) =>
      let cells := ((act w).map fun j => (List.range (w / 8)).map fun k =>
        ((at' j).toNat + k, (BitVec.ofNat 64 (s.vecElem w vd j)).extractLsb' (8 * k) 8)).flatten
      let w1 := s.vecSeen (srcs ++ [vd])
      let covered := fun (a : Word) => ∃ q ∈ w1.localRefusers s.cur space (cells.map (·.1)), ∃ k o, k < w / 8 ∧
        w1.cellOf s.cur space (a.toNat + k) = some o ∧ o.1 = q.2.2.2 ∧ q.2.2.1.covers o.2.2 = true
      bad i (srcs ++ [vd]) [] mis ∧
      (mis = none → s.VecReady (srcs ++ [vd]) [] (takes w) →
        (w1.localRefusers s.cur space (cells.map (·.1)) = [] →
          exec i s = .next (State.complete s.cur .v r
            { Done.plain ((w1.oorNote s.cur .v space true (minOf (w1.outOf s.cur space (cells.map (·.1))))).localStore s.cur 1
                space cells 0) with occ := occ })) ∧
        (w1.localRefusers s.cur space (cells.map (·.1)) ≠ [] → ∀ l j, act w = l ++ j :: (act w).drop (l.length + 1) →
          (∀ k ∈ l, ¬ covered (at' k)) → covered (at' j) →
          exec i s = .next ((w1.setLocalOvf (w1.localRefusers s.cur space (cells.map (·.1)))).takeFault s.cur .v
            .arrivalOverflow (if whole then ea else at' j) false)) ∧
        ((∀ k, (w1.ctx k).regs = []) → ∀ t, exec i s = .next t → t.mem = w1.mem ∧ t.t2 = w1.t2 ∧
          (∀ k, (t.ctx s.cur).sr k = x.sr k) ∧ (∀ k, (t.ctx s.cur).kr k = x.kr k) ∧ (∀ k, (t.ctx s.cur).view k = x.view k) ∧
          ∀ sp' a', sp' ≠ .t2 → ¬ (sp' = space ∧ a' ∈ cells.map (·.1)) →
            t.localByte s.cur 1 sp' a' = w1.localByte s.cur 1 sp' a'))
    let misV := if ea.toNat % 128 ≠ 0 then some ea else none
    load (.vld r e vd sa sb sp) 8 space [] 1 misV (fun j => word (ea.toNat + j)) ∧
    store (.vst r vd sa sb sp) 8 space [] 1 misV (fun j => word (ea.toNat + j)) true ∧
    load (.vlds r t e vd sa sb sp) w space [] occ misL strided ∧
    store (.vsts r t vd sa sb sp) w space [] occ misL strided false ∧
    load (.vgath r t e vd va sa) w .xb [va] occ (misI A) indexed ∧
    store (.vscat r t vd va sa) w .xb [va] occ (misI A) indexed false ∧
    load (.vlut r t e vd va sa) w .xb [va] occ (misI lut) looked

/-! ### The M stream -/

/-- MMA, MMAI and MMAX (R201 to R206, R214 to R216, R223): while a matrix nest runs they wait; with their three views valid, the first
failing check of R216 faults with VIEW_INVALID and its REASON, then a group scale word that is not aligned with MISALIGNED; else the
first chunk of A and B and the scales are read, the instruction occupies ⌈K ÷ kc⌉ slots, and its result lands 24 + ng slots later, six
more with a lent window.
It rests on readings and choices of the model: log entries 40, 50, 52 and 53. -/
def Obligations.MatrixProductResults : Prop :=
  ∀ (s : State) (r : Ring) (acc ta tb : TReg) (z w : Bool) (ig : IGeo) (xg : XGeo) (sx : XReg), s.Opens .m r →
    let x := s.slotCtx .m
    let u := s.slot .m
    let icode := match ig with
      | .g32 => 4
      | .g64 => 5
      | .g128 => 6
    let xcode := match xg with
      | .mx => 1
      | .s16 => 2
      | .s32 => 3
    let reg := fun (k : XReg) => x.sr (48 + k.setWidth 6)
    ∀ p ∈ [(Instr.mma r acc ta tb z w, MmaKind.plain, 0, (0 : Word), (0 : Word)),
        (.mmai r acc ta tb z w ig sx, .group, icode, reg sx, 0),
        (.mmax r acc ta tb z w xg sx, .block, xcode, reg (sx + 1), reg sx)],
      let i := p.1
      let kind := p.2.1
      let geo := p.2.2.1
      let sc := p.2.2.2.1
      (x.mnest ≠ none → exec i s = .next (s.waitCycle s.cur .m otherWait)) ∧
      ∀ a b v, x.mnest = none → x.tileIs ta a → (if w then x.weightIs (tb.toNat % 4) b else x.tileIs tb b) → x.accIs acc v →
        let most := mmaMax kind a.fmt
        let reason : Nat :=
          if (a.fmt = .f64 ∨ b.fmt = .f64 ∨ v.fmt = .f64) ∧ s.mgmt.usable.getLsbD 0 = false then 4
          else if mmaPair kind geo a.fmt b.fmt = false then 2
          else if v.fmt ≠ mmaAcc kind a.fmt then 3
          else if ¬ (v.rows = a.rows ∧ v.cols = b.cols ∧ a.cols = b.rows ∧ a.rows ≤ most.1 ∧ b.cols ≤ most.2) then 1 else 0
        let slow := (windowOf .ofs a.base).isSome || (!w && (windowOf .ofs b.base).isSome)
        let len := mmaG kind geo a.fmt b.fmt
        let kc := mmaKc kind a.fmt b.fmt
        let ng := (a.cols + len - 1) / len
        let sa := sc.toNat % 2 ^ 17
        let saPitch := sc.toNat / 2 ^ 20 % 2 ^ 12
        let sb := sc.toNat / 2 ^ 32 % 2 ^ 17
        let sbPitch := sc.toNat / 2 ^ 52
        let aligned := kind ≠ .group ∨ (sa % 4 = 0 ∧ saPitch % 4 = 0 ∧ sb % 4 = 0 ∧ sbPitch % 4 = 0)
        let st := p.2.2.2.2.setWidth 32
        let at' := if slow then 30 else 24
        let j : MmaJob :=
          { kind := kind, geo := geo, a := a, b := b, bIsWb := w, acc := v, zero := z, st := st, sa := [], sb := [],
            ra := [], rb := [], chunks := 0, age := 0, readAt := at', accv := none }
        let scales := if kind = .plain then []
          else scaleSpan sa saPitch a.rows ng (geoScale geo) ++ scaleSpan sb sbPitch b.cols ng (geoScale geo)
        (reason ≠ 0 → exec i s = .next (s.traps .m .viewInvalid (BitVec.ofNat 64
          (reason * 2 ^ 12 + acc.toNat * 2 ^ 8 + (if w then tb.toNat % 4 else tb.toNat) * 2 ^ 4 + ta.toNat)))) ∧
        (reason = 0 → ¬ aligned → exec i s = .next (s.traps .m .misaligned sc)) ∧
        (reason = 0 → aligned →
          (∀ q, j.spansNow.findSome? (fun l => (u.badOf s.cur 2 l.1 l.2).map fun a => (l.1, a)) = some q →
            s.FailsRead .m i q.1 q.2) ∧
          ((∀ l ∈ j.spansNow, u.badOf s.cur 2 l.1 l.2 = none) →
            (∀ q, u.badOf s.cur 2 .sm scales = some q →
              exec i s = .next (s.traps .m .uncorrectableData (BitVec.ofNat 64 q))) ∧
            (u.badOf s.cur 2 .sm scales = none → ∃ j1 j2, u.mmaRead s.cur 2 j = .ok j1 ∧
              exec i s = .next (State.complete s.cur .m r { Done.one
                  ((u.mmaNote s.cur j).oorNote s.cur .m .sm false (minOf (u.outOf s.cur .sm scales)))
                  (New.plain (24 + ng + if slow then 6 else 0) (.mma j2)) with occ := (a.cols + kc - 1) / kc }) ∧
              j2 = { j1 with sa := j2.sa, sb := j2.sb } ∧
              (kind ≠ .plain →
                (∀ i g, i < a.rows → g < ng → at2 j2.sa i g =
                  leNat (u.localBytes s.cur 2 .sm (sa + i * saPitch + g * geoScale geo) (geoScale geo))) ∧
                ∀ i g, i < b.cols → g < ng → at2 j2.sb i g =
                  leNat (u.localBytes s.cur 2 .sm (sb + i * sbPitch + g * geoScale geo) (geoScale geo))))))

/-- The values of the matrix engine (R142, R159 to R164, R204 to R206, R210, R215): an integer product of 32 bits is the accumulator plus the
sum of all products modulo 2^32; any other element is a chain of roundings, one for each k-group, of the exact sum of the element so far
and the group's sum; the group's sum is that of the products of its pairs of elements, exact when they are finite, under the block and
tensor scales, or with zero points and group scales; NaN and infinities act as the rules say. A chunk of A and B is read element by element; a result lands whole in
its accumulator's bytes, where it is read as those elements, and nothing outside them changes (where no region entry counts).
It rests on readings and choices of the model: log entries 49 and 53. -/
def Obligations.MatrixElementValues : Prop :=
  (∀ (j : MmaJob) (row col acc : Nat), j.kind = .plain → mmaAcc j.kind j.a.fmt = .i32 → j.b.fmt.isFloat = false → acc < 2 ^ 32 →
    j.element row col acc = (wrapInt 32 (acc + ((List.range j.a.cols).map fun k =>
      intCode j.a.fmt (at2 j.ra row k) * intCode j.b.fmt (at2 j.rb col k)).sum), 0)) ∧
  (∀ (j : MmaJob) (row col acc : Nat), let f := mmaAcc j.kind j.a.fmt
    f ≠ .i32 → ∃ p : Nat → Nat, p 0 = acc ∧ (j.element row col acc).1 = p j.ng ∧ ∀ g, g < j.ng →
      p (g + 1) = (roundNum f RCtl.rne ((Machine.Num.ofCode f (p g)).add false (j.group row col g).sum).1).1) ∧
  (∀ ps : List (Machine.Num × Machine.Num), (∀ q ∈ ps, q.1.exact ∧ q.2.exact) →
    (sumProducts ps).exact ∧ (sumProducts ps).val = (ps.map fun q => q.1.val * q.2.val).sum ∧
    ((sumProducts ps).isZero = true → ps ≠ [] → ((sumProducts ps).neg? = true ↔
      ∀ q ∈ ps, (q.1.isZero || q.2.isZero) = true ∧ (q.1.neg? != q.2.neg?) = true))) ∧
  (∀ ps : List (Machine.Num × Machine.Num),
    let qs := ps.map fun q => (q.1.mul q.2).1
    (Machine.Num.nan ∈ qs ∨ (Machine.Num.inf false ∈ qs ∧ Machine.Num.inf true ∈ qs) → sumProducts ps = .nan) ∧
    ∀ n, Machine.Num.nan ∉ qs → Machine.Num.inf (!n) ∉ qs → Machine.Num.inf n ∈ qs → sumProducts ps = .inf n) ∧
  (∀ (j : MmaJob) (row col g : Nat),
    let len := mmaG j.kind j.geo j.a.fmt j.b.fmt
    let ks := (List.range j.a.cols).filter fun k => k / len = g
    let ca := fun (k : Nat) => at2 j.ra row k
    let cb := fun (k : Nat) => at2 j.rb col k
    let va := fun (k : Nat) => Machine.Num.ofCode j.a.fmt (ca k)
    let vb := fun (k : Nat) => Machine.Num.ofCode j.b.fmt (cb k)
    let sa := at2 j.sa row g
    let sb := at2 j.sb col g
    let got := (j.group row col g).sum
    0 < len →
    (j.kind = .plain → got = sumProducts (ks.map fun k => (va k, vb k))) ∧
    (j.kind = .block → 1 ≤ j.geo → j.geo ≤ 3 →
      let scale := fun (c : Nat) => Machine.Num.ofCode (if j.geo = 1 then .e8m0 else .e4m3) c
      let unit := fun (f : Fmt) => if f = .i8 then (2 : Rat) ^ (-6 : Int) else 1
      let st := Machine.Num.ofCode .f32 j.st.toNat
      (scale sa = .nan ∨ scale sb = .nan → got = .nan) ∧
      ((scale sa).exact → (scale sb).exact → st.exact → (∀ k ∈ ks, (va k).exact ∧ (vb k).exact) →
        got.exact ∧ got.val = (ks.map fun k => (va k).val * unit j.a.fmt * ((vb k).val * unit j.b.fmt)).sum *
          (scale sa).val * (scale sb).val * st.val)) ∧
    (j.kind = .group →
      let zp := fun (r : Nat) => (BitVec.ofNat 8 (r / 2 ^ 16)).toInt
      let scale := fun (r : Nat) => Machine.Num.ofCode .f16 (r % 2 ^ 16)
      let sum := (ks.map fun k => (intCode j.a.fmt (ca k) - zp sa) * (intCode j.b.fmt (cb k) - zp sb)).sum
      (scale sa = .nan ∨ scale sb = .nan → got = .nan) ∧
      ((scale sa).exact → (scale sb).exact → got.exact ∧ got.val = (sum : Rat) * (scale sa).val * (scale sb).val))) ∧
  (∀ (s : State) (c : CoreId) (n : Nat) (j j1 : MmaJob), s.mmaRead c n j = .ok j1 → j.chunks ≤ j.age →
    j.age < (j.a.cols + mmaKc j.kind j.a.fmt j.b.fmt - 1) / mmaKc j.kind j.a.fmt j.b.fmt →
    let kc := mmaKc j.kind j.a.fmt j.b.fmt
    (∀ i d, i < j.a.rows → j.age * kc + d < j.a.cols → d < kc → (j.ra.getD i []).length = j.age * kc →
      at2 j1.ra i (j.age * kc + d) = s.code c n .ofs j.a i (j.age * kc + d)) ∧
    (∀ i d, i < j.b.cols → j.age * kc + d < j.a.cols → d < kc → (j.rb.getD i []).length = j.age * kc →
      at2 j1.rb i (j.age * kc + d) = s.code c n (if j.bIsWb then .wb else .ofs) j.b (j.age * kc + d) i) ∧
    j1.chunks = j.age + 1) ∧
  ∀ (s : State) (c : CoreId) (l : Landing) (j : MmaJob) (accs : List (List Nat)), l.dest = .mma j →
    accs = j.accv.getD [] → j.acc.maj = false → (j.acc.rows ≤ 1 ∨ j.acc.lineLen ≤ j.acc.pitch) →
    (∀ q ∈ j.acc.lineSpans, (s.cellOf c .acs q).isSome = true) → (∀ k, (s.ctx k).regs = []) →
    let t := s.landEntry c .m l
    (∀ i q, i < j.acc.rows → q < j.acc.cols →
      t.code c 2 .acs j.acc i q = (j.element i q (at2 accs i q)).1 % 2 ^ j.acc.fmt.width) ∧
    (∀ q, q ∉ j.acc.lineSpans → t.localByte c 2 .acs q = s.localByte c 2 .acs q) ∧
    (∀ q, t.localByte c 2 .ofs q = s.localByte c 2 .ofs q) ∧ (∀ k, (t.ctx c).sr k = (s.ctx c).sr k)

/-- Accumulator operations and ACVT (R199, R202, R206, R217, R218): with the views valid the failing check faults with
VIEW_INVALID and its REASON; a bad source byte faults; else the whole destination view lands, after 2, 4 or 6 slots, six more
with a lent window: zeros; the sums, modulo 2^32 in i32 and rounded in the others; the source's values rounded into the
destination's format, transposed by `ast.t`, under MCTL.CRM and scaled by ACVT. Tile moves (R202, R204, R206, R219, R220): a
failing check faults with VIEW_INVALID and its REASON, TLD's unaligned address or pitch with MISALIGNED and the register;
TLD and the moves name f64 where it is not usable with reason 4; else the move occupies its source's and destination's lines at 128 bytes a slot and lands five slots after them, six more
with a lent window, as a copy, a conversion under MCTL.CRM, a transposition or a repacking.
It rests on readings and choices of the model: log entries 27, 40, 50 and 51. -/
def Obligations.AccumulatorAndTileResults : Prop :=
  (∀ (s : State) (r : Ring) (nx ny nz : TReg) (tr sat scl : Bool) (sx : XReg), s.Opens .m r →
     let x := s.slotCtx .m
     let u := s.slot .m
     let big := fun (v : TView) => 192 < v.rows * v.cols
     let lacks := fun (l : List TView) => s.mgmt.usable.getLsbD 0 = false ∧ ∃ v ∈ l, v.fmt = .f64
     let same := fun (v w : TView) => v.rows = w.rows ∧ v.cols = w.cols
     let lent := fun (v : TView) => if (windowOf .ofs v.base).isSome then 6 else 0
     let trap := fun (i : Instr) (reason v1 v0 : Nat) => exec i s = .next (s.traps .m .viewInvalid
       (BitVec.ofNat 64 (reason * 2 ^ 12 + nx.toNat * 2 ^ 8 + v1 * 2 ^ 4 + v0)))
     let note := fun (t : State) (p : Space × TView) =>
       t.oorNote s.cur .m p.1 false (minOf (t.outOf s.cur p.1 p.2.lineSpans))
     let lands := fun (i : Instr) (lat : Nat) (srcs : List (Space × TView)) (sp : Space) (d : TView)
         (el : Nat → Nat → Nat × BitVec 5) =>
       (∀ q, srcs.findSome? (fun p => (u.badOf s.cur 2 p.1 p.2.lineSpans).map fun a => (p.1, a)) = some q →
         s.FailsRead .m i q.1 q.2) ∧
       ((∀ p ∈ srcs, u.badOf s.cur 2 p.1 p.2.lineSpans = none) → ∃ ev,
         exec i s = .next (State.complete s.cur .m r (Done.one (srcs.foldl note u)
           { lat := lat, dest := .cells sp (d.layOut fun a b => (el a b).1), vfl := 0, mfl := ev })) ∧
         ∀ k, ev.getLsbD k = true ↔ ∃ a b, a < d.rows ∧ b < d.cols ∧ (el a b).2.getLsbD k = true)
     let get := fun (sp : Space) (v : TView) => u.code s.cur 2 sp v
     let round := fun (src dst : Fmt) (c : Nat) =>
       if dst = .i32 ∧ src.isFloat = false then (wrapInt 32 (intCode src c), (0 : BitVec 5))
       else ((roundNum dst RCtl.rne (Machine.Num.ofCode src c)).1, mEv (roundNum dst RCtl.rne (Machine.Num.ofCode src c)).2)
     (∀ d, x.accIs nx d →
       (lacks [d] → trap (.aclr r nx) 4 0 0) ∧
       (¬ lacks [d] → big d → trap (.aclr r nx) 1 0 0) ∧ (¬ lacks [d] → ¬ big d → lands (.aclr r nx) 2 [] .acs d fun _ _ => (0, 0))) ∧
     (∀ a b d, x.accIs ny a → x.accIs nz b → x.accIs nx d →
       (lacks [a, b, d] → trap (.aadd r nx ny nz) 4 nz.toNat ny.toNat) ∧
       (¬ lacks [a, b, d] → a.fmt ≠ d.fmt ∨ b.fmt ≠ d.fmt → trap (.aadd r nx ny nz) 2 nz.toNat ny.toNat) ∧
       (¬ lacks [a, b, d] → a.fmt = d.fmt → b.fmt = d.fmt → big a ∨ big b ∨ big d ∨ ¬ same a d ∨ ¬ same b d →
         trap (.aadd r nx ny nz) 1 nz.toNat ny.toNat) ∧
       (¬ lacks [a, b, d] → a.fmt = d.fmt → b.fmt = d.fmt → ¬ big d → same a d → same b d →
         lands (.aadd r nx ny nz) 4 [(.acs, a), (.acs, b)] .acs d fun i j =>
           let p := get .acs a i j
           let q := get .acs b i j
           if d.fmt = .i32 then ((p + q) % 2 ^ 32, 0)
           else
             let t := (Machine.Num.ofCode d.fmt p).add false (Machine.Num.ofCode d.fmt q)
             let v := roundNum d.fmt RCtl.rne t.1
             (v.1, mEv (v.2 ||| if t.2 then evInv else 0)))) ∧
     (∀ a d, x.tileIs ny a → x.accIs nx d →
       (lacks [a, d] → trap (.ald r nx ny) 4 0 ny.toNat) ∧
       (¬ lacks [a, d] → a.fmt = .e8m0 → trap (.ald r nx ny) 2 0 ny.toNat) ∧
       (¬ lacks [a, d] → a.fmt ≠ .e8m0 → big a ∨ big d ∨ ¬ same a d → trap (.ald r nx ny) 1 0 ny.toNat) ∧
       (¬ lacks [a, d] → a.fmt ≠ .e8m0 → ¬ big d → same a d →
         lands (.ald r nx ny) (6 + lent a) [(.ofs, a)] .acs d fun i j => round a.fmt d.fmt (get .ofs a i j))) ∧
     (∀ a d, x.accIs ny a → x.accIs nx d →
       let fits := if tr then a.rows = d.cols ∧ a.cols = d.rows else same a d
       (lacks [a, d] → trap (.ast r nx ny tr) 4 0 ny.toNat) ∧
       (¬ lacks [a, d] → big a ∨ big d ∨ ¬ fits → trap (.ast r nx ny tr) 1 0 ny.toNat) ∧
       (¬ lacks [a, d] → ¬ big a → ¬ big d → fits → lands (.ast r nx ny tr) 4 [(.acs, a)] .acs d fun i j =>
         round a.fmt d.fmt (if tr then get .acs a j i else get .acs a i j))) ∧
     (∀ a d, x.accIs ny a → x.tileIs nx d →
       (lacks [a, d] → trap (.acvt r nx ny sat scl sx) 4 0 ny.toNat) ∧
       (¬ lacks [a, d] → d.fmt = .e8m0 → trap (.acvt r nx ny sat scl sx) 2 0 ny.toNat) ∧
       (¬ lacks [a, d] → d.fmt ≠ .e8m0 → big a ∨ big d ∨ ¬ same a d → trap (.acvt r nx ny sat scl sx) 1 0 ny.toNat) ∧
       (¬ lacks [a, d] → d.fmt ≠ .e8m0 → ¬ big d → same a d →
         lands (.acvt r nx ny sat scl sx) (6 + lent d) [(.acs, a)] .ofs d fun i j =>
           let v := Machine.Num.ofCode a.fmt (get .acs a i j)
           let k := Machine.Num.ofCode .f32 ((x.sr (48 + sx.setWidth 6)).toNat % 2 ^ 32)
           let q := roundNum d.fmt
             { mode := Rnd.ofCode x.mcrm.toNat, sat := sat, ftz := false, rand := { k := 0, r := 0 } } (if scl then (v.mul k).1 else v)
           (q.1, mEv q.2)))) ∧
  ((∀ (s : State) (r : Ring) (nx ny : TReg) (sat : Bool) (sx : XReg), s.Opens .m r →
     let x := s.slotCtx .m
     let u := s.slot .m
     let same := fun (v w : TView) => v.rows = w.rows ∧ v.cols = w.cols
     let X := (x.sr (48 + sx.setWidth 6)).toNat
     let lacks := fun (l : List TView) => s.mgmt.usable.getLsbD 0 = false ∧ ∃ v ∈ l, v.fmt = .f64
     let trap := fun (i : Instr) (reason : Nat) => exec i s = .next (s.traps .m .viewInvalid
       (BitVec.ofNat 64 (reason * 2 ^ 12 + nx.toNat * 2 ^ 8 + ny.toNat)))
     let moves := fun (i : Instr) (op : TileOp) (sp : Space) (a d : TView) =>
       let o := max 1 ((max (a.lines * a.lineLen) (d.lines * d.lineLen) + 127) / 128)
       let now := a.lineSpans.take 128
       let slow := (windowOf .ofs d.base).isSome || a.lineSpans.any fun q => (windowOf sp q).isSome
       let j : TileJob :=
         { op := op, srcSp := sp, src := a, dst := d, rnd := Rnd.ofCode x.mcrm.toNat, bytes := now.map (u.ldByte s.cur 2 sp),
           chunks := 1, age := 0 }
       (∀ q, u.ldBad s.cur 2 sp now = some q → s.FailsRead .m i sp q) ∧
       (u.ldBad s.cur 2 sp now = none → exec i s = .next (State.complete s.cur .m r
         { Done.one (u.oorNote s.cur .m sp false (minOf (u.ldOut s.cur 2 sp now)))
             (New.plain (o + 5 + if slow then 6 else 0) (.tile j)) with occ := o }))
     (∀ d, x.tileIs nx d →
       let base := X % 2 ^ 32
       let pitch := X / 2 ^ 32 % 2 ^ 24
       (lacks [d] → exec (.tld r nx sx) s = .next (s.traps .m .viewInvalid (BitVec.ofNat 64 (4 * 2 ^ 12 + nx.toNat * 2 ^ 8)))) ∧
       (¬ lacks [d] → base % 64 ≠ 0 ∨ pitch % 16 ≠ 0 → exec (.tld r nx sx) s = .next (s.traps .m .misaligned (x.sr (48 + sx.setWidth 6)))) ∧
       (¬ lacks [d] → base % 64 = 0 → pitch % 16 = 0 → moves (.tld r nx sx) .tld .xb { d with base := base, pitch := pitch } d)) ∧
     ∀ a d, x.tileIs ny a → x.tileIs nx d →
       (lacks [a, d] → ∀ i ∈ [Instr.tst r nx ny sat, .ttr r nx ny, .trepk r nx ny, .trepkPk r nx ny], trap i 4) ∧
       (¬ lacks [a, d] → (a.fmt = .e8m0 ∨ d.fmt = .e8m0 → trap (.tst r nx ny sat) 2) ∧
       (a.fmt ≠ .e8m0 → d.fmt ≠ .e8m0 → ¬ same a d → trap (.tst r nx ny sat) 1) ∧
       (a.fmt ≠ .e8m0 → d.fmt ≠ .e8m0 → same a d → moves (.tst r nx ny sat) (.tst sat) .ofs a d) ∧
       (a.fmt ≠ d.fmt → trap (.ttr r nx ny) 2 ∧ trap (.trepk r nx ny) 2) ∧
       (a.fmt = d.fmt →
         (¬ (a.rows = d.cols ∧ a.cols = d.rows) → trap (.ttr r nx ny) 1) ∧
         (a.rows = d.cols → a.cols = d.rows → moves (.ttr r nx ny) .ttr .ofs a d) ∧
         (¬ same a d → trap (.trepk r nx ny) 1) ∧ (same a d → moves (.trepk r nx ny) .trepk .ofs a d)) ∧
       (let w := d.fmt.width
        let legal := (w = 4 ∨ w = 6) ∧ d.maj = false ∧ a.fmt = .n8 ∧ a.maj = true
        let fits := a.cols = d.cols ∧ a.rows = (d.rows * w + 7) / 8
        (¬ legal → trap (.trepkPk r nx ny) 2) ∧ (legal → ¬ fits → trap (.trepkPk r nx ny) 1) ∧
        (legal → fits → moves (.trepkPk r nx ny) .trepkPk .ofs a d)))) ∧
   ∀ (j : TileJob), let copy := fun (el : Nat → Nat → Nat) => j.result = (j.dst.layOut el, 0)
     (j.op = .tld → copy j.srcCode) ∧ (j.op = .trepk → copy j.srcCode) ∧ (j.op = .ttr → copy fun a b => j.srcCode b a) ∧
     (j.op = .trepkPk → copy fun a b => packCodes 8 ((List.range j.src.rows).map fun k => j.srcCode k b) /
       2 ^ (a * j.dst.fmt.width) % 2 ^ j.dst.fmt.width) ∧
     ∀ sat, j.op = .tst sat → j.result.1 = j.dst.layOut fun a b =>
       (roundNum j.dst.fmt { mode := j.rnd, sat := sat, ftz := false, rand := { k := 0, r := 0 } }
         (Machine.Num.ofCode j.src.fmt (j.srcCode a b))).1)

/-- MSTAT and MNEST (R221 to R223, R373, R374): MSTAT occupies its slots until every result in flight has landed and then copies MSTAT
to MSNAP, clearing it under CLR but for what hardware sets in the same cycle (R16); MNEST waits while a matrix nest runs; the
checks of MNEST fault in their order, each with its number, operand and level; a table that passes them starts its nest, which waits until every earlier
result of M has landed (R222), and whose signals go with its completion.
It rests on readings and choices of the model: log entries 54, 132 and 150. -/
def Obligations.MatrixControlResults : Prop :=
  ∀ (s : State) (r : Ring), s.Opens .m r →
    let x := s.slotCtx .m
    let u := s.slot .m
    let t := x.shadowTab
    let word := nd t 1 / 2 ^ 32
    let left := x.strM.queue.foldl (fun a l => max a l.left) 0
    (∀ p ∈ [(Instr.mstat r, false), (.mstatClr r, true)],
      (x.strM.queue = [] → exec p.1 s = .next (s.passes .m r fun w => w.modCtx s.cur fun x =>
        { x with msnap := x.mflags, mflags := if p.2 then x.mNow else x.mflags })) ∧
      (0 < left → (∀ l ∈ x.strM.queue, l.left ≤ left) ∧ exec p.1 s = .next (State.complete s.cur .m r
        { Done.one u (New.plain left (.mstat p.2)) with occ := left + 1 })) ∧
      ∀ (c : CoreId) (l : Landing), l.dest = .mstat p.2 →
        (((s.landEntry c .m l).ctx c).msnap = (s.ctx c).mflags ∧ ((s.landEntry c .m l).ctx c).mflags =
          (if p.2 then (s.ctx c).mNow else (s.ctx c).mflags) ||| l.mfl)) ∧
    (x.mnest ≠ none → exec (.mnest r) s = .next (s.waitCycle s.cur .m otherWait)) ∧
    (x.mnest = none →
      (nestBody word = none → exec (.mnest r) s = .next (s.traps .m .nestBounds (nestWord 0 15 1))) ∧
      (∀ f sx, nestBody word = some (f, sx) →
        let sc := match f.kind with
          | .plain => 0
          | .group => x.sr (48 + sx.setWidth 6)
          | .block => x.sr (48 + (sx + 1).setWidth 6)
        let k := Scales.ofWord sc
        (matReserved t f.kind = true → exec (.mnest r) s = .next (s.traps .m .nestBounds (nestWord 0 15 2))) ∧
        (matReserved t f.kind = false →
          (∀ q, u.mmaOperands s.cur f = .error q → exec (.mnest r) s = .next (s.traps .m .viewInvalid q)) ∧
          ∀ a b v, u.mmaOperands s.cur f = .ok (a, b, v) →
            let even := f.kind ≠ .group ∨ (k.aligned = true ∧ scaleStepsAligned t = true)
            let far := u.nestExtreme s.cur t [(0, .ofs, a), (1, if f.w then .wb else .ofs, b), (2, .acs, v)]
            let scl := u.scaleExtreme s.cur t (scaleOps (f.job a b v ((x.sr (48 + sx.setWidth 6)).setWidth 32) false) k)
            let gate := tabGated t = false ∨ x.regs.has (tabEntry t) = true
            (¬ even → exec (.mnest r) s = .next (s.traps .m .misaligned sc)) ∧
            (even → ∀ q, far = some q → exec (.mnest r) s = .next (s.traps .m .nestBounds q)) ∧
            (even → far = none → ∀ q, scl = some q → exec (.mnest r) s = .next (s.traps .m .nestBounds q)) ∧
            (even → far = none → scl = none → ¬ gate → exec (.mnest r) s = .next (s.traps .m .nestBounds (nestWord 0 15 4))) ∧
            (even → far = none → scl = none → gate → ∃ n, exec (.mnest r) s = .next (State.complete s.cur .m r { Done.plain (u.setNest s.cur (some n)) with cmd := true }) ∧
              n.tab = t ∧ n.step = 0 ∧ n.job.kind = f.kind ∧ n.job.a = a ∧ n.job.b = b ∧ n.job.acc = v ∧ n.z = f.z ∧
              n.sp = r.sp ∧ n.sn = r.sn ∧ n.fail = none ∧ (∀ l ∈ x.strM.queue, l.left ≤ n.ahead) ∧
              (x.strM.queue = [] → n.ahead = 0)))))

/-! ### The X stream and the engines -/

/-- The instructions that enqueue a copy command, and XFENCE (R341 to R349, R363, R364, R375): with 16 commands outstanding they
wait; an unaligned block, a block that cannot be read, a field that fails its check, an unaligned gather list and a nest table out of
bounds fault in this order; else the command stands last in the queue, not started, and carries the instruction's signals.
It rests on readings and choices of the model: log entries 17, 40, 63, 64, 65 and 153. -/
def Obligations.CopyCommandResults : Prop :=
  ∀ (s : State) (r : Ring) (pb ax : XReg) (pv : Bool), s.Opens .x r →
    let x := s.slotCtx .x
    let u := s.slot .x
    let A := x.sr (48 + pb.setWidth 6)
    let put := fun (w : State) (k : XCmd) => Host.Outcome.next (State.complete s.cur .x r
      { Done.plain (w.modCtx s.cur fun y => { y with cmds := y.cmds ++ [k] }) with cmd := true })
    (∀ p ∈ [(Instr.xcopy r pb pv, CmdKind.copy, false, (none : Option XReg)), (.xnestCopy r pb pv, .copy, true, none),
        (.xnestAcc r pb pv, .acc, true, none), (.xnestMcast r pb pv, .mcast, true, none),
        (.xnestStrm r pb pv, .strm, true, none), (.xmcast r pb pv, .mcast, false, none), (.xacc r pb pv, .acc, false, none),
        (.xstrm r pb pv, .strm, false, none), (.xgath r pb ax pv, .gath, false, some ax)],
      let i := p.1
      let kind := p.2.1
      let nest := p.2.2.1
      let len := if nest then 128 else 64
      let as := (List.range len).map (A.toNat + ·)
      let q := Req.blk (BitVec.ofNat 8 (u.vahi s.cur) ++ A) len
      let ix := match p.2.2.2 with
        | some a => (x.sr (48 + a.setWidth 6)).toNat % 2 ^ 32
        | none => 0
      let enters := fun (w : State) (bs : List Byte) =>
        let b := BitVec.ofNat 512 (leNat (bs.take 64))
        let t := BitVec.ofNat 512 (leNat (bs.drop 64))
        (∀ f off, blkFault kind s.cur b = some (f, off) →
          exec i s = .next (w.takeFault s.cur .x f (A + BitVec.ofNat 64 off) false)) ∧
        (blkFault kind s.cur b = none →
          (ix % 4 ≠ 0 → exec i s = .next (w.takeFault s.cur .x .misaligned (BitVec.ofNat 64 ix) false)) ∧
          (ix % 4 = 0 →
            (∀ f, nest = true → (w.ctx s.cur).copyNestFault t b = some f →
              exec i s = .next (w.takeFault s.cur .x .nestBounds f false)) ∧
            (nest = false ∨ (w.ctx s.cur).copyNestFault t b = none →
              ∃ k, exec i s = put w k ∧ k.kind = kind ∧ k.blk = b ∧ k.blkAddr = A ∧ k.ix = ix ∧ k.sp = r.sp ∧ k.sn = r.sn ∧
                k.started = false ∧ k.item = 0 ∧ k.finished = false ∧ k.failed = false ∧ k.owed = none ∧
                k.arrive = false ∧ (k.nest.map (·.tab)) = if nest then some t else none)))
      (16 ≤ x.cmds.length → exec i s = .next (s.waitCycle s.cur .x otherWait)) ∧
      (x.cmds.length < 16 →
        (A.toNat % 64 ≠ 0 → exec i s = .next (s.traps .x .misaligned A)) ∧
        (A.toNat % 64 = 0 →
          (pv = false → (∀ c, u.badOf s.cur 3 .cr as = some c →
              exec i s = .next (s.traps .x .uncorrectableData (BitVec.ofNat 64 c))) ∧
            (u.badOf s.cur 3 .cr as = none → enters (u.oorNote s.cur .x .cr false (minOf (u.outOf s.cur .cr as)))
              (u.localBytes s.cur 3 .cr A.toNat len))) ∧
          (pv = true → (u.unanswered s.cur .x → exec i s =
              .next ((if (u.ctx s.cur).strX.sent = none then s.send s.cur .x q else s).waitCycle s.cur .x otherWait)) ∧
            (∀ w k addr, u.asked s.cur .x q w (.fault k addr) →
              exec i s = .next (w.takeFault s.cur .x k addr false)) ∧
            ∀ w bs, u.asked s.cur .x q w (.bytes bs) → enters w bs)))) ∧
    (16 ≤ x.cmds.length → exec (.xfence r) s = .next (s.waitCycle s.cur .x otherWait)) ∧
    (x.cmds.length < 16 → ∃ k, exec (.xfence r) s = put u k ∧ k.kind = .fence ∧ k.sp = r.sp ∧ k.sn = r.sn ∧
      k.finished = true ∧ k.owed = none)

/-- What a copy moves (R343, R348, R356): one row between local spaces, in range, without errors, with its source apart from
its destination and no region entry that counts: the destination bytes are the source's, and every other byte of every buffer
and of memory keeps its value. Engine events of a task that runs and is not being restored (R222, R341, R342, R347, R350,
R351, R364, R371, R372): a command starts when every one before it has and is no fence; its next item is performed, one of XACC once the
streams have had their turns of the cycle (R53, R352); when everything is done it completes and deposits its token, or releases its place if it failed; a failed item is reported and
defers its fault; a step starts when its gate is open, which a firing of this cycle does not yet do (the model's reading, log
entry 132); a gated step that has waited past WDOG.LIMIT fails its nest in the turn of the engines; a matrix
nest starts its steps once every earlier result of M has landed, and one whose steps have all run ends.
It rests on readings and choices of the model: log entries 10, 17, 55, 62, 67, 68, 91, 132, 147, 150 and 153. -/
def Obligations.EngineItemsAndEvents : Prop :=
  (∀ (s : State) (c : CoreId) (b : BitVec 512) (kind : Nat) (sp dp : Space), sp ∈ [Space.ofs, .xb, .cr, .t1] →
     dp ∈ [Space.ofs, .wb, .xb, .sm, .cr, .t1] → blkSspc b = some sp → blkDspc b = some dp → blkRepk b = 0 → blkRows b = 1 →
     let src := blkSrc b
     let dst := blkDst b
     let n := blkLen b
     (∀ k, (s.ctx k).regs = []) → (∀ k, k < n → (s.cellOf c sp (src + k)).isSome = true ∧ (s.cellOf c dp (dst + k)).isSome = true) →
     s.lostOf c 4 sp (span src n) = none → s.deadBanks = [] → (∀ i j, i < n → j < n → s.cellOf c sp (src + i) ≠ s.cellOf c dp (dst + j)) →
       let e := s.item c .copy kind b 0 0
       e.fail = none ∧ (∀ k, k < n → e.s.localByte c 4 dp (dst + k) = s.localByte c 4 sp (src + k)) ∧
       (∀ p a, p ≠ .t2 → (∀ k, k < n → s.cellOf c p a ≠ s.cellOf c dp (dst + k)) → e.s.localByte c 4 p a = s.localByte c 4 p a) ∧
       (∀ a, e.s.memByte a = s.memByte a) ∧ e.s.t2 = s.t2 ∧ ∀ k, (e.s.ctx c).sr k = (s.ctx c).sr k) ∧
  (∀ (s : State) (c : CoreId), (s.core c).run ≠ none → (s.core c).restore = none →
     let x := s.ctx c
     let halt := (s.core c).halting
     let put := fun (i : Nat) (k : XCmd) => Host.Outcome.next (s.modCtx c fun x => { x with cmds := x.cmds.set i k })
     let gate := fun (t : BitVec 512) (f0 : BitVec 16) (step : Nat) => tabGated t = false ∨
       ∃ e, x.regs.get? (tabEntry t) = some e ∧ step + 1 + x.firedNow.countP (· == tabEntry t) ≤ (e.fires - f0).toNat
     (∀ i k, x.cmds[i]? = some k → k.started = false → k.kind ≠ .fence →
       (∀ j q, j < i → x.cmds[j]? = some q → q.started = true ∧ q.kind ≠ .fence) →
       exec (.commandStart c) s = put i { k with started := true, nest := k.nest.map fun p => { p with f0 := x.firesNow p.tab } }) ∧
     (∀ (i : BitVec 4) k, x.cmds[i.toNat]? = some k →
       (k.started = true → k.finished = false → k.owed = none → k.arrive = false → k.item < k.items →
         (∀ p, k.nest = some p → p.opened = true) → s.siteHeld c k = false → (k.kind = .acc → ∀ e, Agent.strm c e ∉ s.sched) →
         ∃ t, exec (.itemPerformed c i) s = .next t ∧
           let e := s.item c k.kind k.recKind k.itemBlock.1 k.ix k.itemBlock.2
           let k1 := { k with item := k.item + 1, failed := k.failed || e.fail.isSome,
                              owed := e.fail.map fun (f : Cause × Nat) => (f.1, f.2, k.recKind, k.recStep) }
           t = e.s.modCtx c fun x => { x with cmds := x.cmds.set i.toNat k1.itemsDone }) ∧
       (k.kind ≠ .fence → k.finished = true → k.arrive = false → k.owed = none →
         exec (.commandComplete c i) s = .next (s.modCtx c fun x =>
           let y := { x with cmds := x.cmds.eraseIdx i.toNat }
           if k.failed then y.unsignal .x k.sp k.sn else y.signal .x k.sp k.sn)) ∧
       (k.kind = .fence → i = 0 → k.arrive = false →
         exec (.commandComplete c i) s = .next (s.modCtx c fun x =>
           let y := { x with cmds := x.cmds.eraseIdx 0 }
           if k.failed then y.unsignal .x k.sp k.sn else y.signal .x k.sp k.sn)) ∧
       (∀ cause addr kind step, k.owed = some (cause, addr, kind, step) → s.recRoom c = true →
         exec (.itemFailure c i) s =
           .next ((s.modCtx c fun x => { x with cmds := x.cmds.set i.toNat { k with owed := none } }).itemReport c .x cause addr kind
             step))) ∧
     (∀ i k p, x.cmds[i]? = some k → k.nest = some p → (∀ j q, j < i → x.cmds[j]? = some q → q.between = false) →
       (∀ (j : Nat) q, x.cmds[j]? = some q → q.arrive = false) →
       k.between = true → halt = false → gate p.tab p.f0 p.step →
       exec (.nestStepStart c) s = put i { k with nest := some { p with opened := true, waited := 0 } }) ∧
     (∀ i k p, x.cmds[i]? = some k → k.nest = some p → (∀ j q, j < i → x.cmds[j]? = some q → q.between = false) →
       k.between = true → halt = false → ¬ gate p.tab p.f0 p.step → x.limit ≤ p.waited → s.sched.head? = some (.engine c) →
       exec (.nestStepWatchdog c) s = put i { k with failed := true, finished := true, owed := some (.watchdog, p.step, 2, p.step) }) ∧
     (∀ n, x.cmds = [] → x.mnest = some n → n.fail = none → halt = false → ((s.core c).gov && s.cycle.getLsbD 0) = false →
       (n.step ≠ tabSteps n.tab → n.ahead = 0 → gate n.tab n.f0 n.step → exec (.nestStepStart c) s = .next (s.mnestStep c n)) ∧
       (n.step ≠ tabSteps n.tab → n.ahead = 0 → ¬ gate n.tab n.f0 n.step → x.limit ≤ n.waited →
         s.sched.head? = some (.engine c) → exec (.nestStepWatchdog c) s = .next (s.setNest c (some { n with fail := some (.watchdog, n.step) }))) ∧
       (n.step = tabSteps n.tab →
         exec (.nestComplete c) s = .next (s.modCtx c fun x => { x with mnest := none }.signal .m n.sp n.sn))))

/-! ### Events of a core's streams, of the homes, of tasks, of saves and of recovery -/

/-- Events of a stream that may act (R30, R45, R67, R86 to R88, R205, R258, R351, R393, R395, R398, R399): a turn without issue lands its due
results, unless the governor holds it (R251); a counted wait that has lasted WDOG.LIMIT cycles and still lasts in the stream's next turn
ends in RING_TIMEOUT or WATCHDOG; a deferred fault, an encoding fault and a
fetch fault are taken in the slot of the instruction that comes up, not while an earlier one occupies its slot, and but for the fetch
fault not for an annulled one (R47, R116), where a failing read of that slot comes first and a deferred fault stays pending; a settled
stop enters the handler; a frozen task whose engines rest is reported and FAILED.
It rests on readings and choices of the model: log entries 16, 30, 35, 36, 37, 39, 120, 126 and 153. -/
def Obligations.StreamEventResults : Prop :=
  ∀ (s : State) (c : CoreId) (e : Strm),
    let k := s.core c
    let x := s.ctx c
    let t0 := x.str e
    let held := fun (f : Strm) => (f = .v ∨ f = .m) ∧ k.govOdd s.cycle = true
    let due := fun (f : Strm) => s.sched.head? = some (.strm c f) ∧ ¬ held f ∧ k.free = true ∧ k.saveLets f = true ∧
      ((x.str f).live = .exited ∨ ((x.str f).live = .live ∧ (x.str f).occ ≠ 0)) ∧ (x.te = true → f = .c)
    let inSlot := fun (w : State) (f : Cause) (a : Word) =>
      match w.beginSlot c e with
      | (w1, none) => w1.takeFault c e f a false
      | (w1, some q) => w1.readFault c q
    let turn : State := { s with sched := s.sched.drop 1, cur := c }
    (held e → exec (.resultLanding c e) s = .next s) ∧
    (due e → exec (.resultLanding c e) s = .next (s.landingTurn c e) ∧
      (e ≠ .m → (∀ l ∈ t0.queue, l.left = 0 → ∃ d v, l.dest = .scalar d v) →
        ((s.landingTurn c e).ctx c).str e =
          { t0 with queue := (t0.queue.filter fun l => l.left != 0).map Landing.tick, occ := t0.occ - 1 } ∧
        (s.landingTurn c e).mem = s.mem)) ∧
    (due .m → (∃ l j, l ∈ x.strM.queue ∧ l.dest = .mma j ∧ j.zero = false ∧ j.age = j.readAt) →
      exec (.accumulatorRead c) s = .next (s.landingTurn c .m)) ∧
    (s.runs c e = true →
      (∀ q n, t0.wait = some (q, n) → q ≤ 8 → x.limit ≤ n →
        (s.sched.head? = some (.strm c e) → s.stillWaits c e q = true →
          exec (.ringTimeout c e) s = .next (turn.takeFault c e .ringTimeout (BitVec.ofNat 64 q) false)) ∧
        (s.sched.head? ≠ some (.strm c e) → exec (.ringTimeout c e) s = .next s) ∧
        (s.stillWaits c e q = false → exec (.ringTimeout c e) s = .next s)) ∧
      (∀ f a, t0.skip = 0 → t0.occ = 0 → t0.dfault = some (f, a) → x.te = false → k.free = true → k.saveLets e = true →
        exec (.deferredFaultDelivery c e) s = .next (match s.beginSlot c e with
          | (w1, none) => (w1.modStr c e fun t => { t with dfault := none }).takeFault c e f a true
          | (w1, some q) => w1.readFault c q)) ∧
      (∀ h f, t0.skip = 0 → t0.occ = 0 → t0.held = none → s.fetch c e = .ok h → decodeWord e (x.heldWord h).toNat = .error f →
        exec (.encodingFault c e) s =
          .next (inSlot (s.modStr c e fun t => { t with held := some h }) f.cause (encodingAddr h (x.heldWord h)))) ∧
      (t0.skip ≠ 0 ∨ t0.occ ≠ 0 → exec (.encodingFault c e) s = .next s) ∧
      (∀ f a, t0.occ = 0 → t0.held = none → s.fetch c e = .error (f, a) →
        exec (.instructionFetchFault c e) s = .next (inSlot s f a))) ∧
    (∀ n ctr, s.runs c .c = true → x.strC.wait = some (9, n) → x.limit ≤ n → s.stillWaits c .c 9 = true → pktPhase (s.pktOf c) = some ctr →
      s.sched.head? = some (.strm c .c) →
      exec (.phaseWatchdog c) s = .next (turn.takeFault c .c .watchdog (BitVec.ofNat 64 ctr) false)) ∧
    (∀ f, k.frz = some f → f.report = false → k.settling = false →
      exec (.handlerEntry c) s =
        .next ((s.modCore c fun k => { k with frz := some { f with settled := true } }).enterHandler c)) ∧
    ∀ f, k.frz = some f → f.report = true → f.cause ≠ .coreFrozen → s.enginesQuiet c = true → s.drained c = true →
      s.fwStage = .idle → k.stop = none →
      exec (.frozenTaskReport c) s = .next (s.endOnCore c .failed (some
        (if x.tnest then (.nestedTrap, x.nestAddr.toNat, x.trapPc.toNat) else (f.cause, f.addr.toNat, x.trapPc.toNat))))

/-- Events of the homes (R262, R266, R287 to R290, R299, R300, R307, R309, R311, R343, R452): a request that a stream has
sent under the current generation is served and answered, by the event of its kind; one of the generation before is replayed
once, and the writes of a source without a request that are not acknowledged are written again, where no later write has gone over
them and translated anew, and not counted; accepted stores are
performed in order; a count message is counted when the cycle's requests are done; an entry at its target fires again, with REARM, or
fires, without, in a later cycle; a generation bump starts a sweep, which ends when no older request, store or unacknowledged write is in
flight and leaves the entries of the space with the new generation; a bounded wait whose bound has passed is
attempted again and lands 0. Events of the levels (R310, R312 to R316, R402): a sealed region gains a replica; a bank or a
lane is marked while its group of 32, or of 16, has a spare; one that fails without a spare takes its layer to shedding, with the DEGR
bit; the recovery point starts the saves, at a job boundary or past its deadline; a layer whose sweeps have ended is shed; a corrected
word counts and changes no value, an uncorrectable one is marked, a core's buffers among them, an LPDDR6 one at its channel (R278,
R279); waiting records are drained. While firmware switches nothing of this moves (R478).
It rests on readings and choices of the model: log entries 16, 17, 22, 23, 61, 79, 112, 113, 114, 115, 116, 117, 144 and 145. -/
def Obligations.HomeAndLevelEventResults : Prop :=
  ((∀ (s : State) (c : CoreId) (e : Strm) (q : Sent), ((s.ctx c).str e).sent = some q → q.ans = none → q.gen = s.genOf c →
     let answers := fun (i : Instr) => ∃ t, exec i s = .next t ∧
       t = (s.serve c q.req).1.modStr c e fun u => { u with sent := some { q with ans := some (s.serve c q.req).2 } }
     (∀ va n v, q.req = .ld va n ∨ q.req = .st va n v ∨ q.req = .blk va n → answers (.homeControllerAnswer c e)) ∧
     (∀ a b d, q.req = .arm a b d ∨ q.req = .arrv a b → answers (.homeControllerAnswer c e)) ∧
     (∀ op va a b n dr, e = .c → q.req = .amo op va a ∨ q.req = .cas va a b ∨ q.req = .bari va a ∨ q.req = .bara va n dr ∨
       q.req = .barw va → answers (.homeAtomic c)) ∧
     (∀ va, e = .c → q.req = .seal va → answers (.sealComplete c)) ∧
     (∀ va, e = .c → q.req = .unseal va → answers (.unsealComplete c)) ∧
     (e = .x → answers (.parameterBlockRead c)) ∧
     (∀ n p o, e = .c → q.req = .launch n p o → exec (.launchAcceptance c) s = .next ((s.offer n p (s.asidOf c) o).1.modStr c .c
       fun u => { u with sent := some { q with ans := some (.word (s.offer n p (s.asidOf c) o).2) } }))) ∧
   (∀ (s : State) (c : CoreId) (e : Strm) (q : Sent), ((s.ctx c).str e).sent = some q → q.ans = none → q.replayed = false →
     q.gen + 1 = s.genOf c →
     exec (.requestReplay c e) s = .next (s.modStr c e fun u => { u with sent := some { q with gen := s.genOf c, replayed := true } })) ∧
   (∀ (s : State) (c : CoreId) (e : Strm), ((s.ctx c).str e).sent = none →
     ∃ t, exec (.requestReplay c e) s = .next t ∧ t = { s with mem := t.mem, bad := t.bad } ∧ (∀ w ∈ t.bad, w ∈ s.bad) ∧
       (∀ a, ((∀ u ∈ s.unacked, u.src.named c e = true → inRanges u.w.later a = true) ∨ s.sealedHit [(a, 1)] = true) →
         t.memByte a = s.memByte a) ∧
       ∀ u pa b q, s.unacked.filter (fun u => u.src.named c e) = [u] → u.w.cells = [(pa, [b])] →
         (match u.w.via with
           | none => q = pa
           | some a => ∃ p, s.vRange none a .w u.w.addr 1 = .ok [p] ∧ q = p.1) →
         inRanges u.w.later pa = false → inRanges u.w.later q = false → s.sealedHit [(q, 1)] = false →
           t.memByte q = b ∧ ∀ a, a ≠ q → t.memByte a = s.memByte a) ∧
   (∀ (s : State) (c : CoreId) (p : PStore), (s.core c).pend = [p] →
     exec (.storePerformed c) s = .next ((s.modCore c fun k => { k with pend := [] }).performStore c p)) ∧
   (∀ (s : State) (die : BitVec 2) (idx : BitVec 16) (m : CountMsg) (l : List CountMsg), s.counts = m :: l →
     (∀ f d, Agent.strm f d ∉ s.sched) → m.entry = die.toNat * 65536 + idx.toNat → exec (.regionCount die idx) s = .next ({ s with counts := l }.countDie m)) ∧
   (∀ (s : State) (die : BitVec 2) (idx : BitVec 16) (r : Region), let id := die.toNat * 65536 + idx.toNat
     (∀ f d, Agent.strm f d ∉ s.sched) → s.counts = [] →
     s.regions.get? id = some r → r.valid = true → r.rearm = true → r.target ≠ 0 → r.target ≤ r.count → id ∉ s.refire →
       ∃ q, exec (.rearmRefire die idx) s = .next ({ s with regions := s.regions.set id q }.dieFired id q) ∧
         q.count + r.target = r.count ∧ q.fires = r.fires + 1 ∧ q.target = r.target ∧ q.act = r.act ∧ q.arg = r.arg) ∧
   (∀ (s : State) (die : BitVec 2) (idx : BitVec 16) (r : Region), let id := die.toNat * 65536 + idx.toNat
     (∀ f d, Agent.strm f d ∉ s.sched) → s.counts = [] →
     s.regions.get? id = some r → r.valid = true → r.rearm = false → r.fired = false → r.target ≠ 0 → r.target ≤ r.count →
       id ∉ s.refire → ∃ q, exec (.rearmRefire die idx) s = .next ({ s with regions := s.regions.set id q }.dieFired id q) ∧
         q = { r with fires := r.fires + 1, fired := true }) ∧
   (∀ (s : State) (asid : BitVec 16) (a : ASpace), s.spaces.get? asid.toNat = some a →
     (s.fwStage ≠ .idle → exec (.generationBump asid) s = .next s ∧ exec (.sweepComplete asid) s = .next s) ∧
     (a.sweep = false → s.fwStage = .idle → exec (.generationBump asid) s =
       .next { s with spaces := s.spaces.set asid.toNat { a with gen := a.gen + 1, sweep := true } }) ∧
     (s.swept asid = true ↔ (∀ u ∈ s.unacked, u.w.via = some asid → u.w.gen = a.gen) ∧ ∀ k ∈ s.cores, let c := BitVec.ofNat 9 k.1
       s.asidOf c = asid → (∀ f q, ((s.ctx c).str f).sent = some q → q.ans = none → q.gen = s.genOf c) ∧
         ∀ p ∈ k.2.pend, p.gen = s.genOf c) ∧
     (s.swept asid = false → exec (.sweepComplete asid) s = .next s) ∧
     (s.swept asid = true → s.fwStage = .idle → ∃ t, exec (.sweepComplete asid) s = .next t ∧
       t = { s with spaces := s.spaces.set asid.toNat { a with sweep := false }, regions := t.regions, cores := t.cores } ∧
       (∀ id, t.regions.get? id = (s.regions.get? id).map fun r => if r.asid = asid then { r with gen := a.gen } else r) ∧
       ∀ c id, (t.ctx c).regs.get? id = ((s.ctx c).regs.get? id).map fun r => if r.asid = asid then { r with gen := a.gen } else r)) ∧
   ∀ (s0 : State) (c : CoreId) (r : Ring) (pd : PReg) (a b : SReg), s0.runs c .c = true → (s0.ctx c).strC.wait ≠ none →
     let s := { s0 with cur := c }
     let x := s0.ctx c
     let u := s.slot .c
     let y := s.slotCtx .c
     let lo := fun (w : Word) => (w.extractLsb' 0 32).toNat
     let hi := fun (w : Word) => (w.extractLsb' 32 32).toNat
     let ends := fun (w : State) => Host.Outcome.next (State.complete c .c r (Done.one w (New.plain 1 (.pred pd false))))
     let again := fun (i : Instr) (ev : Instr) (late : Prop) => s0.heldInstr c = some i → late → exec ev s0 = exec i s
     again (.barw r pd a b) (.barwBoundExpiry c) (hi (x.sr b) ≤ x.strC.bounded) ∧
     again (.await r pd a b) (.awaitBoundExpiry c) (lo (x.sr b) ≤ x.strC.bounded) ∧
     again (.clwait r pd a b) (.clwaitBoundExpiry c) (lo (x.sr b) ≤ x.strC.bounded) ∧
     (s.Opens .c r → u.memHold = false →
       (∀ p e, s0.heldInstr c = some (.await r pd a b) → lo (x.sr b) ≤ x.strC.bounded → lo (y.sr b) ≤ y.strC.bounded →
         u.findEntry c .await (y.sr a) (y.sr b) false = .ok (some (p, e)) → e.fires = (y.sr b).extractLsb' 32 16 →
         exec (.awaitBoundExpiry c) s0 = ends u) ∧
       (s0.heldInstr c = some (.clwait r pd a b) → lo (x.sr b) ≤ x.strC.bounded → lo (y.sr b) ≤ y.strC.bounded →
         (y.tables.any fun t => t.handle == (y.sr a).extractLsb' 0 16) = true → exec (.clwaitBoundExpiry c) s0 = ends u) ∧
       (∀ w ph, s0.heldInstr c = some (.barw r pd a b) → hi (x.sr b) ≤ x.strC.bounded → hi (y.sr b) ≤ y.strC.bounded →
         bspSpace (barwSpace (y.sr b)) = none → (y.sr a).toNat % 16 = 0 →
         u.serve c (.barw (BitVec.ofNat 8 (u.vahi c) ++ y.sr a)) = (w, .word ph) → (w.ctx c).strC.bounded = y.strC.bounded →
         y.strC.bar ≠ some (u.barPa c (BitVec.ofNat 8 (u.vahi c) ++ y.sr a), true) → ph.toNat = (y.sr b).toNat % 16 → exec (.barwBoundExpiry c) s0 = ends w))) ∧
  (∀ (s : State) (die tdie : BitVec 2) (idx : BitVec 16) (lvl : BitVec 3) (bank : SpareUnit) (word : EccReport) (q : BitVec 6),
     let id := die.toNat * 65536 + idx.toNat
     let n := die.toNat * 4 + (lvl.toNat - 1)
     let banks := match lvl.toNat with
       | 1 => 8192
       | 2 => 4096
       | 3 => 1024
       | 4 => 512
       | _ => 0
     let unit := match bank with
       | .bank k => k.toNat
       | .lane k => 2 ^ 14 + k.toNat
     let group := fun (k : Nat) => if k < 2 ^ 14 then k / 32 else 2 ^ 14 + (k - 2 ^ 14) / 16
     let exists' := match bank with
       | .bank k => k.toNat < banks
       | .lane _ => 1 ≤ lvl.toNat ∧ lvl.toNat ≤ 4
     let w := word.first.toNat
     let lost := (die.toNat, lvl.toNat, group unit) ∈ s.sparedGroups ∨
       ∃ f ∈ s.failing, f ≠ (die.toNat, lvl.toNat, unit) ∧ (f.1, f.2.1, group f.2.2) = (die.toNat, lvl.toNat, group unit)
     let due := fun (since : Nat) => since + Config.shedDeadline ≤ s.devTime.toNat ∨
       ∀ k ∈ s.cores, k.1 / 128 = die.toNat → ∀ l, s.launchOf (BitVec.ofNat 9 k.1) = some l →
         ∃ j, pktJob l.pkt = some j ∧ (s.jobs.getD j Ctr.fresh).fired = true
     (∀ r, s.regions.get? id = some r → r.valid = true → r.sealed = true → 2 ≤ lvl.toNat → lvl.toNat ≤ 4 →
       (id, lvl.toNat, tdie.toNat) ∉ s.replicas →
       exec (.replicaPlacement die idx lvl tdie) s = .next { s with replicas := s.replicas ++ [(id, lvl.toNat, tdie.toNat)] }) ∧
     (exists' → (die.toNat, lvl.toNat, group unit) ∉ s.sparedGroups →
       (∀ f ∈ s.failing, (f.1, f.2.1, group f.2.2) ≠ (die.toNat, lvl.toNat, group unit)) → s.fwStage = .idle →
       exec (.bankMarkFailing die lvl bank) s =
         .next { s with failing := s.failing ++ [(die.toNat, lvl.toNat, unit)] }) ∧
     (¬ lost → exec (.layerFailureNoSpare die lvl bank) s = .next s) ∧
     (exists' → lost → s.layers.getD n .normal = .normal → ∃ t, exec (.layerFailureNoSpare die lvl bank) s = .next t ∧
       t.deadBanks = s.deadBanks ++ (if unit < 2 ^ 14 then [(die.toNat, lvl.toNat, unit)] else []) ∧ t.layers.getD n .normal = .shedPending s.devTime.toNat ∧
       t.mem = s.mem ∧ t.cores = s.cores ∧
       ∀ i, (t.mgmt.caps.getD die.toNat 0).getLsbD i = if i = 3 + lvl.toNat then true
         else if i + 1 = lvl.toNat then false else (s.mgmt.caps.getD die.toNat 0).getLsbD i) ∧
     (∀ since, s.layers.getD n .normal = .shedPending since → ¬ due since ∨ s.fwStage ≠ .idle →
       exec (.recoveryPoint die lvl) s = .next s) ∧
     (∀ since, s.layers.getD n .normal = .shedPending since → due since → s.fwStage = .idle → ∃ t, exec (.recoveryPoint die lvl) s = .next t ∧ t.layers.getD n .normal = .shedding ∧
       t.mem = s.mem ∧
       ∀ (c : CoreId) a, (s.cores.map (·.1)).Nodup → s.cores.has c.toNat = true → s.usesLayer c die.toNat lvl.toNat = true →
         (s.core c).preemptible = true → s.canCkpt c = true → s.areaOf c = some a →
         ∃ v, (t.core c).save = some v ∧ v.settled = false ∧ v.why = .preempt ∧ v.sect = 0) ∧
     (s.layers.getD n .normal = .sweeping → (∀ a ∈ s.spaces, a.2.sweep = false) → s.fwStage = .idle →
       ∃ t, exec (.shedComplete die lvl) s = .next t ∧ t.layers.getD n .normal = .shed ∧ t.mem = s.mem ∧ t.cores = s.cores) ∧
     (1 ≤ lvl.toNat → lvl.toNat ≤ 4 → s.wordBad die.toNat lvl.toNat w = false →
       (word.bad = false → exec (.patrolScrub die lvl word) s = .next { s with corrected := s.corrected + 1 }) ∧
       (word.bad = true → ∃ t, exec (.patrolScrub die lvl word) s = .next t ∧ t.mem = s.mem ∧ t.corrected = s.corrected ∧
         t.wordBad die.toNat lvl.toNat w = true)) ∧
     (∀ sp, lvl = 0 → reportSpace (w / 2 ^ 18 % 8) = some sp → w % 2 ^ 18 * unitBytes sp < Space.size sp →
       let c : CoreId := BitVec.ofNat 9 (die.toNat * 128 + w / 2 ^ 21 % 128)
       (sp, w % 2 ^ 18) ∉ (s.core c).bad →
       (word.bad = false → unitBytes sp = 8 → exec (.patrolScrub die lvl word) s = .next { s with corrected := s.corrected + 1 }) ∧
       (word.bad = true → exec (.patrolScrub die lvl word) s =
         .next (s.modCore c fun k => { k with bad := k.bad ++ [(sp, w % 2 ^ 18)] }))) ∧
     (lvl = 5 → 8 * w < 0x018000000000 →
       (word.bad = false → ∃ t, exec (.patrolScrub die lvl word) s = .next t ∧ t = { s with lpCorrected := t.lpCorrected } ∧
         ∀ k, t.lpCorrected.getD k 0 = s.lpCorrected.getD k 0 + if k = w / 32 % 96 then 1 else 0) ∧
       (word.bad = true → ∃ t, exec (.patrolScrub die lvl word) s = .next t ∧ t = { s with bad := t.bad } ∧
         ∀ k, k ∈ t.bad ↔ k ∈ s.bad ∨ (w ≤ k ∧ k < w + max 1 word.words.toNat ∧ 8 * k < 0x018000000000))) ∧
     (∀ a b, let p := lpPlace a
       p.granule = a / 256 ∧ p.die = p.granule % 96 / 24 ∧ p.channel = p.granule % 96 % 24 ∧ p.subchannel = p.granule / 96 % 2 ∧
       p.offset = p.granule / 192 * 256 + a % 256 ∧
       (p.die = (lpPlace b).die → p.channel = (lpPlace b).channel → p.subchannel = (lpPlace b).subchannel →
         p.offset = (lpPlace b).offset → a = b)) ∧
     ∀ u, s.queues.get? q.toNat = some u → exec (.errorRecordDrain q) s = .next (s.drainRecs q.toNat u.waiting))

/-- A task ends (R231, R232, R244, R404): it takes its terminal state once; its launch, and every graph and job counter that its launch
names, count one more DONE or FAILED, the phase counter one more arrival; a counter fires when its target is reached, and only then,
and the gates that name a fired graph counter open; the launch's last task makes its completion record and drops its marks and credits.
Task events (R33, R231, R241, R243, R246, R249, R251, R257, R259, R301, R402, R478): Botra writes, with the budget of the queue,
preloads and withdraws the record of a next slot and parks records; a commit makes the record the running one and binds its task, or
starts its restore; a task that has ended is DONE and its core free, or FAILED if an item failed after its stream's exit; a cancelled one
ends once its engines rest; a timed task whose gate is closed at START is FAILED; a phase whose count has reached its target, and whose
accesses are complete, takes its next number; a ready task ages with the clock and rises with its age; the governor holds a core whose
window of 1 µs exceeded its envelope.
It rests on readings and choices of the model: log entries 75, 78, 80, 81, 82, 90, 128, 129, 130, 136, 146 and 151. -/
def Obligations.TaskEventResults : Prop :=
  ((∀ (s : State) (lid i : Nat) (st : TaskSt) (l : Launch), s.launches.get? lid = some l → st.terminal = true →
     (l.task i).st.terminal = false →
       let ok := decide (st = .done)
       let t := s.taskEnds lid i st
       let done := if ok then l.done + 1 else l.done
       let failed := if ok then l.failed else l.failed + 1
       let last := done + failed = pktTasks l.pkt ∧ l.reported = false
       let fires := fun (n : Nat) => pktGraph l.pkt = some n ∧ ((s.graphs.getD n Ctr.fresh).arrive ok).2 = true
       let waits := fun (p : BitVec 1024) (g n : Nat) => gateMode (pktGate p g) = 4 ∧ pktGate p g % 4096 = n
       (∃ l', t.launches.get? lid = some l' ∧ (l'.task i).st = st ∧ (l'.task i).area = none ∧
         (∀ j, j ≠ i → l'.task j = l.task j) ∧ l'.done = done ∧ l'.failed = failed ∧
         (last → l'.reported = true ∧ l'.mark0 = false ∧ l'.mark1 = false ∧ l'.cred0 = 0 ∧ l'.cred1 = 0) ∧
         (¬ last → l'.reported = l.reported ∧ l'.cred0 = l.cred0 ∧ l'.cred1 = l.cred1)) ∧
       (∀ n, pktGraph l.pkt = some n → t.graphs.getD n Ctr.fresh = ((s.graphs.getD n Ctr.fresh).arrive ok).1 ∧
         ∀ m, m ≠ n → t.graphs.get? m = s.graphs.get? m) ∧
       (pktGraph l.pkt = none → t.graphs = s.graphs) ∧
       (∀ n, pktJob l.pkt = some n → t.jobs.getD n Ctr.fresh = ((s.jobs.getD n Ctr.fresh).arrive ok).1 ∧
         ∀ m, m ≠ n → t.jobs.get? m = s.jobs.get? m) ∧
       (pktJob l.pkt = none → t.jobs = s.jobs) ∧
       (∀ n, pktPhase l.pkt = some n → let k := s.phases.getD n PhCtr.fresh
         t.phases.getD n PhCtr.fresh = (if k.boundary = true ∨ (k.target ≠ 0 ∧ k.target.toNat ≤ k.count.toNat)
           then { k with heldArr := k.heldArr + 1 } else { k with count := k.count + 1 }) ∧
         ∀ m, m ≠ n → t.phases.get? m = s.phases.get? m) ∧
       (pktPhase l.pkt = none → t.phases = s.phases) ∧
       (∀ n o l2, fires n → o ≠ lid → s.launches.get? o = some l2 → t.launches.get? o = some { l2 with
         mark0 := l2.mark0 || decide (waits l2.pkt 0 n), mark1 := l2.mark1 || decide (waits l2.pkt 1 n) }) ∧
       (∀ o, (∀ n, ¬ fires n) → o ≠ lid → t.launches.get? o = s.launches.get? o) ∧
       (¬ last → t.queues = s.queues ∧ t.mem = s.mem) ∧
       (last → ∃ w : State, w.queues = s.queues ∧ w.mem = s.mem ∧ t = w.report l.q.toNat
         { typ := 0x20, cause := 0, kind := 6, core := l.lastCore, lid := lid, tidx := 0, tag := pktTag l.pkt, addr := 0, pc := 0,
           aux0 := done + failed * 2 ^ 32, aux1 := pktTasks l.pkt % 2 ^ 24 })) ∧
   (∀ (s : State) (lid i : Nat) (st : TaskSt) (l : Launch), s.launches.get? lid = some l →
     (l.task i).st.terminal = true → s.taskEnds lid i st = s) ∧
   ∀ (k : Ctr) (done : Bool),
     let t := k.arrive done
     t.1.done = (if done then k.done + 1 else k.done) ∧ t.1.failed = (if done then k.failed else k.failed + 1) ∧
     t.1.target = k.target ∧
     (t.2 = true ↔ k.fired = false ∧ k.target ≠ 0 ∧ t.1.done + t.1.failed = k.target) ∧
     t.1.fired = (k.fired || t.2)) ∧
  (∀ (s : State) (c : CoreId) (lid : BitVec 32) (i : BitVec 24),
     let k := s.core c
     let x := s.ctx c
     (∀ l, s.mayPlace c lid.toNat i.toNat = true → s.launches.get? lid.toNat = some l →
       let budget := s.budgets.getD l.q.toNat 0
       ∃ t, exec (.placement c lid i budget) s = .next t ∧
         (t.core c).next = some { lid := lid, tidx := i, grants := heatGrants (pktHeat l.pkt), budget := budget } ∧
         (t.core c).run = k.run ∧ (t.core c).ctx = k.ctx ∧ t.mem = s.mem ∧
         ∃ l', t.launches.get? lid.toNat = some l' ∧ (l'.task i.toNat).st = .placed ∧ (l'.task i.toNat).core = some c ∧
           ∀ j, j ≠ i.toNat → l'.task j = l.task j) ∧
     exec (.preload c) s = .next (s.modCore c fun k => { k with preload := k.next.isSome && k.run.isSome }) ∧
     (s.fwStage ≠ .idle → exec (.withdrawal c) s = .next s) ∧
     (∀ b l, k.next = some b → s.launches.get? b.lid.toNat = some l → (l.task b.tidx.toNat).st = .placed → s.fwStage = .idle →
       ∃ t, exec (.withdrawal c) s = .next t ∧ (t.core c).next = none ∧ (t.core c).run = k.run ∧ (t.core c).ctx = k.ctx ∧
         ∃ l', t.launches.get? b.lid.toNat = some l' ∧
           (l'.task b.tidx.toNat).st = if (l.task b.tidx.toNat).resume then .saved else .queued) ∧
     (∀ (die : BitVec 2) (n : BitVec 10) (rec : BitVec 128),
       let key := die.toNat * 1024 + n.toNat
       let b : BindRec := { lid := rec.extractLsb' 96 32, tidx := rec.extractLsb' 72 24, grants := rec.extractLsb' 69 3,
                            budget := rec.extractLsb' 32 32 }
       (s.fwStage ≠ .idle → exec (.parkedRecordWrite die n c rec) s = .next s) ∧
       (s.fwStage = .idle → rec.getLsbD 0 = false → ∃ t, exec (.parkedRecordWrite die n c rec) s = .next t ∧
         t = { s with parked := t.parked, parkedGo := t.parkedGo } ∧ key ∉ t.parkedGo ∧ t.parked.get? key = none ∧
         ∀ j, j ≠ key → t.parked.get? j = s.parked.get? j) ∧
       (s.fwStage = .idle → rec.getLsbD 0 = true → s.roomFor c b.lid.toNat b.tidx.toNat = true →
         ∃ t, exec (.parkedRecordWrite die n c rec) s = .next t ∧ t = { s with parked := t.parked } ∧
           t.parked.get? key = some (c, b) ∧ ∀ j, j ≠ key → t.parked.get? j = s.parked.get? j) ∧
       (rec.getLsbD 0 = true → s.roomFor c b.lid.toNat b.tidx.toNat = false →
         exec (.parkedRecordWrite die n c rec) s = .next s)) ∧
     (∀ b l g, s.commitOk c = true → k.next = some b → s.launches.get? b.lid.toNat = some l →
       s.images.get? (pktField l.pkt 0x00 8 % 65536) = some g →
       ∃ t, exec (.bindCommit c) s = .next t ∧
         ((l.task b.tidx.toNat).resume = false → b.grants = 0 → pktCkpt l.pkt = false → pktField l.pkt 0x20 8 = 0 →
           pktField l.pkt 0x18 8 = 0 →
           let y := t.ctx c
           (t.core c).run = some b ∧ (t.core c).next = none ∧
           y.sr 1 = b.tidx.setWidth 64 ∧ y.sr 2 = BitVec.ofNat 64 (pktTasks l.pkt) ∧ y.sr 3 = c.setWidth 64 ∧
           (∀ j, j ≠ 1 → j ≠ 2 → j ≠ 3 → y.sr j = 0) ∧ y.lend = 0 ∧
           (∀ e, (pktStreams l.pkt).contains e = true → (y.str e).live = .live ∧
             (y.str e).pc = BitVec.ofNat 72 ((g.sec e).toNat + 2 * pktEntry l.pkt e)) ∧
           (∀ e, (pktStreams l.pkt).contains e = false → y.str e = Stream.reset) ∧
           (∃ l', t.launches.get? b.lid.toNat = some l' ∧ (l'.task b.tidx.toNat).st = .running ∧
             (l'.task b.tidx.toNat).core = some c)) ∧
         ((l.task b.tidx.toNat).resume = true → b.grants = 0 →
           (t.core c).run = some b ∧ (t.core c).ctx = Ctx.reset ∧ ∃ r, (t.core c).restore = some r ∧ r.sect = 1)) ∧
     (∀ b l, s.ended c = true → k.run = some b → s.launches.get? b.lid.toNat = some l →
       (l.task b.tidx.toNat).st = .running → (l.task b.tidx.toNat).area = none →
       ∃ t, exec (.taskEnd c) s = .next t ∧
         (x.failed = none → t = s.endOnCore c .done none) ∧
         (∀ f a, x.failed = some (f, a) → t = s.endOnCore c .failed (some (f, a.toNat, 0))) ∧
         (x.failed = none ∨ s.queues.get? l.q.toNat = none → (t.core c).run = none ∧ (t.core c).ctx = x.left) ∧
         ((x.failed = none ∧ s.recsWait b.lid.toNat b.tidx.toNat = false) ∨ s.queues.get? l.q.toNat = none →
           ∃ l', t.launches.get? b.lid.toNat = some l' ∧ (l'.task b.tidx.toNat).st = if x.failed.isSome then .failed else .done) ∧
         (s.recsWait b.lid.toNat b.tidx.toNat = true → (l.task b.tidx.toNat).closing = none →
           (x.failed = none → ∃ l', t.launches.get? b.lid.toNat = some l' ∧ (l'.task b.tidx.toNat).st = .running ∧
             (l'.task b.tidx.toNat).closing = some .done) ∧
           (∀ f u e, x.failed = some f → s.queues.get? l.q.toNat = some u → s.devRead none u.asid u.cons.toNat 8 = .error e →
             (t.core c).run = some b ∧ (t.core c).stop = some .ended ∧
             ∃ l', t.launches.get? b.lid.toNat = some l' ∧ (l'.task b.tidx.toNat).st = .running ∧
               (l'.task b.tidx.toNat).closing = some .failed))) ∧
     (k.stop = some .cancel → k.save = none → s.enginesQuiet c = true → s.drained c = true →
       exec (.cancelRelease c) s = .next (s.endOnCore c .cancelled (some (.cancelled, 0, 0)))) ∧
     (∀ l, s.launches.get? lid.toNat = some l → i.toNat < pktTasks l.pkt →
       (pktStart l.pkt ≠ 0 → pktStart l.pkt ≤ s.devTime.toNat → (l.task i.toNat).st = .queued → (l.task i.toNat).closing = none →
         l.gatesOpen i.toNat = false → exec (.lateStart lid i) s =
           .next ((s.dropNext lid.toNat i.toNat).taskFails lid.toNat i.toNat .failed .lateStart none (pktStart l.pkt) 0 0 0)) ∧
       let rise := fun (age : Nat) => min (7 - s.queueLevel l) (age / 10000000)
       let ready := ((l.task i.toNat).st = .queued ∨ (l.task i.toNat).st = .saved) ∧ (l.task i.toNat).closing = none ∧
         l.gatesOpen i.toNat = true ∧ pktStart l.pkt ≤ s.devTime.toNat
       (∃ t l', exec (.ageLevelRise lid i) s = .next t ∧ t = { s with launches := t.launches } ∧
         t.launches.get? lid.toNat = some l' ∧ (∀ j, j ≠ i.toNat → l'.task j = l.task j) ∧
         l'.task i.toNat = { l.task i.toNat with ageLevel := rise (l.task i.toNat).age }) ∧
       ∀ d, l.reported = false → ∃ l', (s.ageTasks d).launches.get? lid.toNat = some l' ∧
         (ready → l'.task i.toNat = { l.task i.toNat with
           age := (l.task i.toNat).age + d, ageLevel := rise ((l.task i.toNat).age + d) }) ∧
         (¬ ready → l'.task i.toNat = l.task i.toNat)) ∧
     (∀ (ctr : BitVec 8) p, s.phases.get? ctr.toNat = some p → p.target ≠ 0 → p.target.toNat ≤ p.count.toNat →
       (s.phaseQuiet ctr.toNat = false → exec (.phaseBoundary ctr) s =
         .next { s with phases := s.phases.set ctr.toNat { p with boundary := true } }) ∧
       (s.phaseQuiet ctr.toNat = true → p.clk = false → s.failing = [] →
         ∃ t, exec (.phaseBoundary ctr) s = .next t ∧
           t.phases.get? ctr.toNat = some { p with count := p.heldArr, heldArr := 0, phno := p.phno + 1, boundary := false } ∧
           ∀ b l, k.run = some b → s.launches.get? b.lid.toNat = some l → pktPhase l.pkt = some ctr.toNat →
             (x.strC.phaseArr = true → x.strC.phaseGo = none → (t.ctx c).strC.phaseGo = some (p.phno + 1)) ∧
             ∀ u, x.shadow = some u → u.phaseArr = true → u.phaseGo = none →
               (t.ctx c).shadow = some { u with phaseGo := some (p.phno + 1) })) ∧
     ∀ (mw : BitVec 32), let us := s.devTime.toNat / 1000
       (k.run = none ∨ k.govUs = us + 1 → exec (.governorWindow c mw) s = .next s) ∧
       (k.run ≠ none → k.govUs ≠ us + 1 → exec (.governorWindow c mw) s = .next (s.modCore c fun k =>
         { k with govUs := us + 1, govMw := mw.toNat,
                  gov := decide ((match pktHeat (s.pktOf c) with
                    | 0 => 4000
                    | 1 => 5500
                    | 2 => 11000
                    | _ => 14000) < mw.toNat) })))

/-- Events of saves, restores, kills and recovery (R246, R405, R406, R408, R410, R411, R413 to R417, R419, R422): what each stage requires and
leaves. Botra copies an emergency area into the task's slot when its bytes are good and the slot takes every part, and a bad byte of it
fails the task. The victim of a pre-emption runs at the position that a task of the lowest PRIO, and of those the latest committed, holds.
It rests on readings and choices of the model: log entries 83, 84, 85, 86, 87, 88, 89, 90, 91, 92, 94, 139, 140, 141, 154 and 155. -/
def Obligations.PreemptionEventResults : Prop :=
  ∀ (s : State) (c : CoreId),
    let k := s.core c
    let x := s.ctx c
    (∀ v, k.save = some v →
      (v.settled = false → v.done = none → x.te = false → k.frz = none → k.settling = false → s.enginesQuiet c = true →
        s.drained c = true → s.storesStand c = true → exec (.checkpointSettle c) s =
          .next (s.modCore c fun k => { k with save := some { v with settled := true, since := s.devTime.toNat } })) ∧
      (v.settled = true → v.paused = false → v.done = none → k.frz = none → s.storesStand c = true →
        (v.sect < 13 →
          (∀ t, s.slotWrite (s.asidOf c) v.emerg (s.savePiece c v).addr (s.savePiece c v).bytes = .ok t →
            exec (.checkpointWrite c) s = .next (t.modCore c fun k => { k with save := some (s.savePiece c v).next })) ∧
          (∀ f a, s.slotWrite (s.asidOf c) v.emerg (s.savePiece c v).addr (s.savePiece c v).bytes = .error (f, a) →
            ∃ t, exec (.checkpointWrite c) s = .next t ∧ ∃ w, (t.core c).save = some w ∧ w = { v with paused := true })) ∧
        (v.sect = 13 → v.emerg = false → ∀ b l a, k.run = some b → s.launches.get? b.lid.toNat = some l →
          (l.task b.tidx.toNat).area = some a → k.stop = none →
          ∃ t l' a', exec (.checkpointRelease c) s = .next t ∧ t.launches.get? b.lid.toNat = some l' ∧
            (l'.task b.tidx.toNat).area = some a' ∧ a'.latest = some v.slot ∧ a'.serial = a.serial + 1 ∧
            (v.why ≠ .ckpt → (t.core c).run = none ∧ (l'.task b.tidx.toNat).st = .saved ∧ (l'.task b.tidx.toNat).core = none) ∧
            (v.why = .ckpt → (t.core c).run = k.run ∧ (∃ w, (t.core c).save = some w ∧ w.done = some 0) ∧
              (l'.task b.tidx.toNat).st = (l.task b.tidx.toNat).st))) ∧
      (v.settled = true → v.done = none → s.fwStage = .idle → v.since + s.hangNs ≤ s.devTime.toNat →
        (v.sect = 13 → exec (.hangWatchdog c) s = .next s) ∧
        (v.sect ≠ 13 → v.why = .ckpt → k.stop = none → exec (.hangWatchdog c) s =
          .next (s.modCore c fun k => { k with save := some { v with done := some 3 } })) ∧
        (v.sect ≠ 13 → v.why ≠ .ckpt → v.emerg = true ∨ s.siteOf c ∈ s.emergUsed → exec (.hangWatchdog c) s =
          .next (s.endOnCore c .failed (some (if v.why = .recover then (.coreFrozen, 0, 0)
            else (.saveAborted, (s.savePiece c v).addr, 0))))) ∧
        (v.sect ≠ 13 → v.why ≠ .ckpt → v.emerg = false → s.siteOf c ∉ s.emergUsed → ∃ t w, exec (.hangWatchdog c) s = .next t ∧
          (t.core c).save = some w ∧ w.emerg = true ∧ w.sect = 0 ∧ w.since = s.devTime.toNat)) ∧
      (v.paused = true → s.fwStage = .idle → exec (.saveFaultService c true) s =
        .next (s.modCore c fun k => { k with save := some { v with paused := false } }))) ∧
    (∀ v, k.save = none → k.restore = some v →
      (∀ f a, v.paused = some (f, a) → s.fwStage = .idle →
        exec (.saveFaultService c true) s = .next (s.modCore c fun k => { k with restore := some { v with paused := none } }) ∧
        exec (.saveFaultService c false) s = .next (s.restoreFail c f a)) ∧
      (∀ a z, v.paused = none → k.frz = none → k.stop = none → s.areaOf c = some a → a.slots.get? v.slot = some z →
        let sec := (sections z.ctx.allot z.grants).getD (v.sect - 1) (0, 0)
        let at' := v.blk * 0x10000
        (12 ≤ v.sect → exec (.restore c) s = .next (s.restoreDone c v a z)) ∧
        (v.sect < 12 → sec.2 ≤ at' → exec (.restore c) s =
          .next (s.modCore c fun k => { k with restore := some { v with sect := v.sect + 1, blk := 0 } })) ∧
        (v.sect < 12 → at' < sec.2 → ∀ bs,
          s.devRead none (s.asidOf c) (a.slot v.slot + sec.1 + at') (min 0x10000 (sec.2 - at')) = .ok bs →
          exec (.restore c) s = .next ((s.putSect c (v.sect - 1) at' bs).modCore c fun k =>
            { k with restore := some { v with blk := v.blk + 1 } })))) ∧
    (∀ (lid : BitVec 32) (i : BitVec 24) l v, s.mayPreempt c lid.toNat i.toNat = true → s.launches.get? lid.toNat = some l →
      s.launchOf c = some v →
      let left := x.estNow s.devTime
      let most := s.drainMax (pktPrio l.pkt)
      ∃ t, exec (.preemptionChoice c lid i) s = .next t ∧ (t.core c).run = k.run ∧
        (left ≤ most ∨ most = 0xFFFF ∨ (s.canCkpt c = false ∧ pktKill (s.pktOf c) = false) →
          (t.core c).save = none ∧ (t.core c).stop = none) ∧
        (most < left → most ≠ 0xFFFF → s.canCkpt c = true → ∃ w, (t.core c).save = some w ∧ w.why = .preempt ∧ w.settled = false) ∧
        (most < left → most ≠ 0xFFFF → s.canCkpt c = false → pktKill (s.pktOf c) = true → (t.core c).stop = some .kill)) ∧
    (∀ b l, k.stop = some .kill → k.run = some b → s.launches.get? b.lid.toNat = some l → k.settling = false →
      s.enginesQuiet c = true → s.drained c = true →
      ∃ t l', exec (.killAndRerun c) s = .next t ∧ (t.core c).run = none ∧ t.launches.get? b.lid.toNat = some l' ∧
        (l'.task b.tidx.toNat).st = .queued ∧ (l'.task b.tidx.toNat).reruns = (l.task b.tidx.toNat).reruns + 1) ∧
    (s.overBudget c = true → k.preemptible = true → s.fwStage = .idle → k.next = none →
      (∀ a, s.canCkpt c = true → s.areaOf c = some a → exec (.budgetOverrun c) s = .next (s.startSave c .budget none)) ∧
      (s.canCkpt c = false → pktKill (s.pktOf c) = true →
        exec (.budgetOverrun c) s = .next (s.modCore c fun k => { k with stop := some .kill })) ∧
      (s.canCkpt c = false → pktKill (s.pktOf c) = false →
        exec (.budgetOverrun c) s = .next (s.modCore c fun k => { k with stop := some .overrun }))) ∧
    (∃ t, exec (.coreSelfCheckFailure c) s = .next t ∧ (t.core c).dead = true ∧ t.mem = s.mem ∧
      (k.run ≠ none → k.stop = none → (∀ f, k.frz = some f → f.report = false) →
        (∃ f, (t.core c).frz = some f ∧ f.cause = .coreFrozen) ∧
        ∀ f, k.frz = some f → f.defer = true → ((t.ctx c).str f.strm).dfault = some (f.cause, f.addr))) ∧
    (k.run = none → s.fwStage ≠ .idle → exec (.regrow c) s = .next s) ∧
    (∀ n, k.run = none → k.dead = true → k.lender = none → s.freeSpare c = some n → s.fwStage = .idle →
      ∃ t, exec (.regrow c) s = .next t ∧ (t.core c).dead = false ∧ (t.core c).regrown = true ∧ (t.core c).pcol = 16 ∧
        (t.core c).run = none ∧ (t.core c).next = none ∧ t.spares.get? n = some (some c)) ∧
    (∀ (lid : BitVec 32) (i : BitVec 24) l a site c' z, s.launches.get? lid.toNat = some l → (l.task i.toNat).area = some a →
      a.emerg = some (site, c', z) →
      let bad := s.emergBad (s.emergArea site) z.ctx.allot
      let copied := s.slotWrites l.asid (s.emergPieces lid.toNat i.toNat l a site c' z)
      (s.fwStage ≠ .idle ∨ (l.task i.toNat).st ≠ .saved ∨ (l.task i.toNat).closing ≠ none ∨ (bad = none ∧ copied = none) →
        exec (.emergencyCopy lid i) s = .next s) ∧
      (s.fwStage = .idle → (l.task i.toNat).st = .saved → (l.task i.toNat).closing = none →
        (∀ q, bad = some q → exec (.emergencyCopy lid i) s = .next ((s.report l.q.toNat
          { typ := 0x01, cause := Cause.uncorrectableData.code, kind := 5, core := none, lid := lid.toNat, tidx := i.toNat,
            tag := pktTag l.pkt, addr := q, pc := 0, aux0 := 0, aux1 := 0 }).taskCloses lid.toNat i.toNat .failed)) ∧
        (∀ w, bad = none → copied = some w → ∃ t l' a', exec (.emergencyCopy lid i) s = .next t ∧ t.mem = w.mem ∧
          t.launches.get? lid.toNat = some l' ∧ (l'.task i.toNat).area = some a' ∧ (∀ j, j ≠ i.toNat → l'.task j = l.task j) ∧
          a' = { a with emerg := none, latest := some a.other, slots := a'.slots } ∧
          (∃ z', a'.slots.get? a.other = some z' ∧ z' = { z with bad := z'.bad }) ∧ site ∉ t.emergUsed ∧
          (∀ n, n ≠ site → (n ∈ t.emergUsed ↔ n ∈ s.emergUsed))))) ∧
    exec .packageFreeze s = .next { s with frozen := true } ∧
    (s.mgmt.debug = true → exec .freezeResume s = .next { s with frozen := false }) ∧
    (s.mgmt.debug = false → exec .freezeResume s = .next s)

/-! ### Events of the ports and the fabric, requests of the host, power and boot -/

/-- Ports, ingest, packets and collective steps (R298, R433 to R449): what each event does where it takes effect. A packet that comes
again is performed again where no later write has gone over it, and acknowledged as before; one for a collective step that failed since
its matched steps differ is refused (R449).
It rests on readings and choices of the model: log entries 95, 96, 99, 100, 101, 131, 133, 134 and 154. -/
def Obligations.FabricEventResults : Prop :=
  ∀ (s : State),
    let port0 : Port := { maxf := 0, st := 0, mode := 0, dropped := 0, rules := [], sentFrames := [] }
    (∀ (n : BitVec 4), let p := s.ports.getD n.toNat port0
      (p.st = 1 → ∃ t, exec (.linkTrainingDone n) s = .next t ∧ t = { s with ports := t.ports } ∧
        t.ports.getD n.toNat port0 = { p with st := 2 } ∧ ∀ k, k ≠ n.toNat → t.ports.get? k = s.ports.get? k) ∧
      (p.st = 2 → ∃ t, exec (.linkLoss n) s = .next t ∧ t = { s with ports := t.ports } ∧
        t.ports.getD n.toNat port0 = { p with st := 1 } ∧ ∀ k, k ≠ n.toNat → t.ports.get? k = s.ports.get? k) ∧
      (∀ offset rate, s.fwStage ≠ .idle → exec (.ptpEventFrame n offset rate) s = .next s) ∧
      (∀ offset rate, s.mgmt.ptpEn = true → n = s.mgmt.ptpPort → s.frameMode n.toNat = true → s.fwStage = .idle →
        ∃ t, exec (.ptpEventFrame n offset rate) s = .next t ∧
          t.mgmt.devRate = (if -500000 ≤ rate.toInt ∧ rate.toInt ≤ 500000 then rate else s.mgmt.devRate) ∧
          t.mgmt.ptpOff = (if 1000000 < offset.toInt.natAbs then s.mgmt.ptpOff + offset else s.mgmt.ptpOff) ∧
          (offset.toInt.natAbs ≤ 1000000 → t.out = s.out) ∧ t.mem = s.mem ∧ t.cores = s.cores) ∧
      (∀ bs ok, s.frameMode n.toNat = true → p.st = 2 →
        (ok = false ∨ bs.length + 4 < 64 ∨ p.maxf.toNat < bs.length + 4 → ∃ t, exec (.frameReceive n bs ok) s = .next t ∧
          t = { s with ports := t.ports } ∧ t.ports.getD n.toNat port0 = { p with dropped := p.dropped + 1 }) ∧
        (ok = true → 64 ≤ bs.length + 4 → bs.length + 4 ≤ p.maxf.toNat → (headsOf bs).etype ≠ 0x8808 →
          (n = s.mgmt.ptpPort → ptpEvent bs (headsOf bs) = true → exec (.frameReceive n bs ok) s = .next s) ∧
          (n ≠ s.mgmt.ptpPort ∨ ptpEvent bs (headsOf bs) = false →
          (p.classify bs = none → ∃ t, exec (.frameReceive n bs ok) s = .next t ∧ t = { s with ports := t.ports } ∧
            t.ports.getD n.toNat port0 = { p with dropped := p.dropped + 1 }) ∧
          ∀ q u, p.classify bs = some q → s.ingest.get? q = some u → u.k ≠ 0 →
            exec (.frameReceive n bs ok) s = .next (s.ingestFrame n.toNat q u bs))))) ∧
    (∀ q u n bs cons, s.ingest.get? q = some u → s.devRead none u.asid u.cons.toNat 8 = .ok cons →
      let size := if u.slotMode then 2 ^ u.slot else (32 + bs.length + 63) / 64 * 64
      let pos := u.prod % 2 ^ u.k
      pos + size ≤ 2 ^ u.k → 32 + bs.length ≤ size →
      (ringRoom u.k u.prod (leNat cons) size = false → ∃ w, (s.ingestFrame n q u bs).ingest.get? q = some w ∧
        w = { u with drops := if u.drops = 0xFFFFFFFF then u.drops else u.drops + 1 } ∧ (s.ingestFrame n q u bs).mem = s.mem) ∧
      (ringRoom u.k u.prod (leNat cons) size = true → ∀ pa, s.vRange none u.asid .w (u.base.toNat + pos) size = .ok [(pa, size)] →
        s.sealedHit [(pa, size)] = false →
        let t := s.ingestFrame n q u bs
        (∃ w, t.ingest.get? q = some w ∧ w = { u with prod := u.prod + size, seq := u.seq + 1, drops := 0 }) ∧
        (s.regions = [] → t.memRead pa size =
          ingestHeader (s.devTime.toNat + s.mgmt.ptpOff.toInt) bs.length n q false u.drops.toNat u.seq.toNat s.devTime.toNat ++
            bs ++ List.replicate (size - 32 - bs.length) 0))) ∧
    (∀ p : FabPkt,
      (p.dst ≠ s.devId →
        (p.hops.toNat < 4 → exec (.fabricPacketReceive p) s =
          .next { s with forwarded := s.forwarded ++ [(s.routes.getD p.dst.toNat 0, { p with hops := p.hops + 1 })] }) ∧
        (4 ≤ p.hops.toNat → exec (.fabricPacketReceive p) s = .next s)) ∧
      (p.dst = s.devId → (s.seenPkts.find? fun q => q.src == p.src && q.id == p.id) = none →
        let u : State := { s with seenPkts := s.seenPkts ++ [{ src := p.src, id := p.id, cause := none, w := default }] }
        (∀ ch job off bs, p.body = .send ch job off bs →
          (s.doneSends.contains (ch, p.src, job) = true → ∃ t, exec (.fabricPacketReceive p) s = .next t ∧
            t.acks = s.acks ++ [(p.src, p.id, Cause.protection.code)] ∧ t.recvs = s.recvs ∧ t.staged = s.staged ∧ t.mem = s.mem) ∧
          (s.doneSends.contains (ch, p.src, job) = false →
            (s.recvOf p.src ch = none → exec (.fabricPacketReceive p) s = .next { u with staged := s.staged ++ [p] }) ∧
            ∀ r, s.recvOf p.src ch = some r →
              exec (.fabricPacketReceive p) s = .next (u.recvInto r p job off.toNat bs))) ∧
        (∀ g st rk op len f off bs, p.body = .coll g st rk op len f off bs →
          ((g.toNat, st.toNat) ∉ s.collFails → exec (.fabricPacketReceive p) s = .next { u with staged := s.staged ++ [p] }) ∧
          ((g.toNat, st.toNat) ∈ s.collFails → ∃ t, exec (.fabricPacketReceive p) s = .next t ∧
            t.acks = s.acks ++ [(p.src, p.id, Cause.protection.code)] ∧ t.staged = s.staged ∧ t.mem = s.mem ∧ t.cores = s.cores))) ∧
      (∀ q, p.dst = s.devId → (s.seenPkts.find? fun q => q.src == p.src && q.id == p.id) = some q →
        (q.cause = none → exec (.fabricPacketReceive p) s = .next s) ∧
        ∀ k, q.cause = some k → ∃ t, exec (.fabricPacketReceive p) s = .next t ∧ t.acks = s.acks ++ [(p.src, p.id, k)] ∧
          t.regions = s.regions ∧ t.counts = s.counts ∧ t.recvs = s.recvs ∧ t.staged = s.staged ∧
          (∀ a, inRanges q.w.later a = true ∨ s.sealedHit [(a, 1)] = true → t.memByte a = s.memByte a) ∧
          ∀ pa b x, q.w.cells = [(pa, [b])] →
            (match q.w.via with
              | none => x = pa
              | some a => ∃ y, s.vRange none a .w q.w.addr 1 = .ok [y] ∧ x = y.1) →
            inRanges q.w.later pa = false → inRanges q.w.later x = false → s.sealedHit [(x, 1)] = false →
              t.memByte x = b ∧ ∀ a, a ≠ x → t.memByte a = s.memByte a)) ∧
    (∀ (src : BitVec 12) (ch : BitVec 8) r, s.recvOf src ch = some r →
      r ∈ s.recvs ∧ r.chan = ch ∧ ((∃ q ∈ s.recvs, q.chan = ch ∧ q.peer = src) → r.peer = src)) ∧
    (∀ (l : List (Nat × Nat)) (a b i : Nat), (∀ q ∈ l, q.1 ≤ q.2) → a ≤ b →
      ((∃ q ∈ fillPart l a b, q.1 ≤ i ∧ i < q.2) ↔ (∃ q ∈ l, q.1 ≤ i ∧ i < q.2) ∨ (a ≤ i ∧ i < b))) ∧
    (∀ l p, s.outPkts = l ++ [p] → (∀ q ∈ l, q.sent = true) → p.sent = false →
      s.sendDue = { s with outPkts := l ++
        [if Config.stagingPkts < (l.filter fun q => q.pkt.dst == p.pkt.dst).length then p
         else { p with sent := true, sentNs := s.devTime.toNat }] }) ∧
    (∀ (id : BitVec 32) (cause : BitVec 8),
      ((∀ p ∈ s.outPkts, p.sent = true → p.pkt.id ≠ id) →
        exec (.fabricAck id cause) s = .next s ∧ exec (.linkTimeout id) s = .next s) ∧
      ∀ p, (s.outPkts.find? fun p => p.pkt.id == id && p.sent) = some p →
        let u : State := { s with outPkts := s.outPkts.filter fun q => q.pkt.id != id }
        (cause = 0 → exec (.fabricAck id cause) s = .next u) ∧
        (cause ≠ 0 → exec (.fabricAck id cause) s = .next (u.stepFail p.core p.handle p.step (causeOf cause.toNat, 0))) ∧
        (p.sentNs + s.linkNs ≤ s.devTime.toNat →
          exec (.linkTimeout id) s = .next (s.stepFail p.core p.handle p.step (.watchdog, 0))) ∧
        (s.devTime.toNat < p.sentNs + s.linkNs → exec (.linkTimeout id) s = .next s)) ∧
    ∀ (c : CoreId) (t : CTable), (s.ctx c).tables = [t] →
      (∀ i, (s.core c).run ≠ none → t.failed = false → t.started = i → i < t.recs.length → i = 0 ∨ t.live = [] →
        exec (.collectiveStepStart c) s = .next (s.stepStartAt c t i)) ∧
      (∀ i k, t.live = [(i, k)] → k.fail = none → k.wrote = true → s.noAck c t.handle i = false →
        recOp (t.recs.getD i 0) = 1 → recTgt (t.recs.getD i 0) / 2 ^ 63 = 0 →
        ∃ w, exec (.collectiveStepComplete c) s = .next w ∧ w.mem = s.mem ∧
          (t.started = t.recs.length → (w.ctx c).tables = []) ∧
          (t.failed = false → t.started ≠ t.recs.length → (w.ctx c).tables = [{ t with live := [] }]))

/-- Requests of task sessions (R237, R259, R453): on a bound session, in its order, LAUNCH is offered to its queue, CANCEL
reaches the named tasks, WRITE is performed and counted and READ answers the bytes of mapped memory; FREEZE belongs to the
control session (R422). Management commands on the control session, in its order and outside a quiescent point (R232, R256,
R295, R296, R413, R437, R439, R440, R444, R446, R454, R468, R474, R477, R478, R483, R484): what each that is accepted changes
and answers.
It rests on readings and choices of the model: log entries 74, 102, 103, 104, 105, 128, 133, 137, 142 and 154. -/
def Obligations.HostRequestResults : Prop :=
  (∀ (s : State) (h : Toc) (n : BitVec 4) (e : Session) (a : BitVec 16), s.bootOk = true →
     let answers := fun (i : Instr) (t : State) (st : Nat) (data : List Nat) =>
       exec i s = .next { t with out := t.out ++ [.answer h st data] }
     (h.sess = some n → s.sessions.get? n.toNat = some e → e.asid = some a → h.seq = e.seq → (∀ k ∈ s.toclCancels, k.1.sess ≠ some n) →
       let u := { s with sessions := s.sessions.set n.toNat { e with seq := e.seq + 1 } }
       (∀ q p, answers (.toclLaunch h q p) (u.offer q p a).1 ((u.offer q p a).2.toNat % 256) [(u.offer q p a).2.toNat / 2 ^ 32]) ∧
       (∀ (lvl : BitVec 3) (id : BitVec 32) (i : BitVec 24),
         let names := u.cancelNames a lvl.toNat (id.setWidth 64) (i.setWidth 64) none
         (4 < lvl.toNat → answers (.toclCancel h lvl id i) u 0x04 []) ∧
         (lvl.toNat ≤ 4 →
           (∀ st, names = .error st → answers (.toclCancel h lvl id i) u st [0]) ∧
           (∀ l w k, names = .ok l → u.cancelTasks l = (w, k, []) → answers (.toclCancel h lvl id i) w 0 [k]) ∧
           ∀ l w k c m, names = .ok l → u.cancelTasks l = (w, k, c :: m) →
             exec (.toclCancel h lvl id i) s = .next { w with toclCancels := w.toclCancels ++ [(h, k, c :: m)] })) ∧
       (∀ va bs, bs.length ≤ 4096 →
         (∀ x, u.hostRange a .w va.toNat bs.length = .error x →
           answers (.toclWrite h va bs) (u.fltVirt a va.toNat bs.length) x.1.code [x.2]) ∧
         (∀ l, u.hostRange a .w va.toNat bs.length = .ok l →
           (u.sealedHit l = true → answers (.toclWrite h va bs) (u.setFlt l) Cause.sealedWrite.code [va.toNat + u.sealedAt l]) ∧
           (u.sealedHit l = false → u.dieRefusers l = [] → answers (.toclWrite h va bs) (u.performWrite .dev (some a) va.toNat l bs) 0 []) ∧
           (u.sealedHit l = false → u.dieRefusers l ≠ [] →
             answers (.toclWrite h va bs) (u.performWrite .dev (some a) va.toNat l bs) Cause.arrivalOverflow.code []))) ∧
       (∀ va (len : BitVec 13), len.toNat ≤ 4096 →
         (∀ x, u.hostRange a .r va.toNat len.toNat = .error x → answers (.toclRead h va len) u x.1.code [x.2]) ∧
         (∀ l, u.hostRange a .r va.toNat len.toNat = .ok l →
           (∀ k, u.badPiece l = some k → answers (.toclRead h va len) u Cause.uncorrectableData.code [va.toNat + k]) ∧
           (u.badPiece l = none → answers (.toclRead h va len) u 0 ((u.readPieces l).map (·.toNat)))))) ∧
     (∀ pa n, s.sealedHit [(pa, n)] = true → s.sealedAt [(pa, n)] < n ∧ s.sealedHit [(pa + s.sealedAt [(pa, n)], 1)] = true ∧
       ∀ j, j < s.sealedAt [(pa, n)] → s.sealedHit [(pa + j, 1)] = false) ∧
     (h.sess = none → h.seq = s.ctlSeq →
       exec (.freeze h) s = .next { s with ctlSeq := s.ctlSeq + 1, frozen := true } ∧
       ∀ q p, answers (.toclLaunch h q p) { s with ctlSeq := s.ctlSeq + 1 } 0x02 [])) ∧
  (∀ (s : State) (h : Toc), s.bootOk = true → s.fwStage = .idle → h.sess = none → h.seq = s.ctlSeq →
     let u := { s with ctlSeq := s.ctlSeq + 1 }
     let answers := fun (i : Instr) (t : State) (st : Nat) (data : List Nat) =>
       exec i s = .next { t with out := t.out ++ [.answer h st data] }
     (∀ (die : BitVec 2) (idx : BitVec 16) (w0 w1 w2 w3 w4 : Word), let id := die.toNat * 65536 + idx.toNat
       (∀ sp a, Space.ofCode (w0.toNat / 2 ^ 60) = some sp → s.space (w1.extractLsb' 48 16) = some a →
         sp = .virt ∨ sp = .t3 ∨ sp = .t4 → s.regions = [] →
         let r := Region.ofWords sp a.gen w0 w1 w2 w3 w4
         r.formOk w0 w1 = true → ∃ q, answers (.regionCreate h die idx w0 w1 w2 w3 w4) { u with regions := s.regions.set id q } 0 [] ∧
           q.valid = true ∧ q.spc = sp ∧ q.base = w0.toNat % 2 ^ 60 * 4096 ∧ q.asid = w1.extractLsb' 48 16 ∧ q.gen = a.gen ∧
           q.k = (w1.extractLsb' 34 6).toNat ∧ q.sealed = w1.getLsbD 33 ∧ q.count = w2.toNat % 2 ^ 48 ∧
           q.target = w3.toNat % 2 ^ 48 ∧ q.arg = w4.extractLsb' 0 60) ∧
       ∀ r, s.regions.get? id = some r →
         (s.entryHeld r = true → answers (.regionDestroy h die idx) u 0x04 [] ∧ answers (.regionRead h die idx) u 0x04 []) ∧
         (s.entryHeld r = false → ∃ t, answers (.regionDestroy h die idx) t 0 [] ∧ t.regions.get? id = none ∧
           (∀ p ∈ t.replicas, p.1 ≠ id) ∧ t.mem = s.mem ∧ answers (.regionRead h die idx) u 0 r.words)) ∧
     (∀ (n : BitVec 12) (target : BitVec 32) (clk : Bool),
       (s.counterBusy pktGraph n.toNat = false → ∃ t k, answers (.counterSet h .graph n target false) t 0 [] ∧
         t.graphs.get? n.toNat = some k ∧ k.done = 0 ∧ k.failed = 0 ∧ k.target = target.toNat ∧ k.fired = false) ∧
       (n.toNat < 64 → s.counterBusy pktJob n.toNat = false → ∃ t k, answers (.counterSet h .job n target false) t 0 [] ∧
         t.jobs.get? n.toNat = some k ∧ k.done = 0 ∧ k.failed = 0 ∧ k.target = target.toNat ∧ k.fired = false) ∧
       (n.toNat < 256 → s.counterBusy pktPhase n.toNat = false → s.phaseWaits n.toNat = false →
         (s.phases.getD n.toNat PhCtr.fresh).boundary = false → ∃ t k, answers (.counterSet h .phase n target clk) t 0 [] ∧
           t.phases.get? n.toNat = some k ∧ k.count = 0 ∧ k.target = target ∧ k.phno = 0 ∧ k.clk = clk)) ∧
     (∀ (n : BitVec 4) (asid : BitVec 16) (un : Bool),
       let busy := (∃ k ∈ s.toclCancels, k.1.sess = some n) ∨ ∃ i ∈ s.tocHeld, ∃ k, tocOf i = some k ∧ k.sess = some n
       (¬ busy → answers (.sessionBind h n asid un)
         { u with sessions := s.sessions.set n.toNat { asid := if un then none else some asid, seq := 0 } } 0 []) ∧
       (busy → answers (.sessionBind h n asid un) u 0x04 [])) ∧
     (∀ (n : BitVec 12) v, s.regValue n.toNat = some v → answers (.regRead h n) u 0 [v]) ∧
     (∀ v : Word, answers (.regWrite (.host h) 0x050 v) { u with mgmt := { s.mgmt with linkTo := v.extractLsb' 0 32 } } 0 [] ∧
       answers (.regWrite (.host h) 0x064 v) { u with mgmt := { s.mgmt with hangWd := v.extractLsb' 0 32 } } 0 [] ∧
       (∀ n : BitVec 12, n ∈ [(0x000 : BitVec 12), 0x010, 0x011, 0x012, 0x013, 0x020, 0x030, 0x031, 0x032, 0x070, 0x071, 0x072, 0x073] →
         answers (.regWrite (.host h) n v) u 0x02 []) ∧
       ∀ n : BitVec 12, s.regValue n.toNat = none → answers (.regWrite (.host h) n v) u 0x04 []) ∧
     (∀ g asid devs (rank : BitVec 4), 2 ≤ devs.length → devs.length ≤ 16 → rank.toNat < devs.length →
       answers (.groupSet h g asid devs rank)
         { u with groups := s.groups.set g.toNat { asid := asid, devs := devs, rank := rank.toNat, posted := 0 } } 0 []) ∧
     (∀ (q : BitVec 6) (w0 w1 w2 : Word), w1.extractLsb' 48 8 = 0 → w1.extractLsb' 0 20 = 0 → w1.extractLsb' 24 2 = 2 →
       let k := (w1.extractLsb' 26 6).toNat
       let base := (w1.extractLsb' 56 8).toNat * 2 ^ 64 + w0.toNat
       let free := { u with ingest := s.ingest.del q.toNat }
       12 ≤ k → k ≤ 30 → base % 2 ^ k = 0 → w2.toNat % 8 = 0 → free.rangeHeld (w1.extractLsb' 32 16) base (2 ^ k) = false →
         ∃ t i, answers (.ingestSet h q w0 w1 w2) t 0 [] ∧ t.ingest.get? q.toNat = some i ∧ i.base.toNat = base ∧ i.k = k ∧
           i.asid = w1.extractLsb' 32 16 ∧ i.slotMode = false ∧ i.prod = 0 ∧ i.seq = 0 ∧ i.drops = 0) ∧
     (∀ (p : BitVec 4) (v : Word), v.extractLsb' 0 2 ≠ 3 → answers (.portSet h p v) (u.portWrite p.toNat v) 0 []) ∧
     (∀ (p : BitVec 4) (n : BitVec 6) (v : Word), ∃ t, answers (.ruleSet h p n v) t 0 [] ∧
       ∀ i, ((t.ports.getD p.toNat Port.fresh).rules.getD n.toNat 0).getLsbD i =
         if 44 ≤ i ∧ i < 54 then false else v.getLsbD i) ∧
     (∀ (d : BitVec 12) (p : BitVec 4), answers (.routeSet h d .here) { u with devId := d } 0 [] ∧
       ∃ t, answers (.routeSet h d (.port p)) t 0 [] ∧ t.devId = s.devId ∧ t.routes.getD d.toNat 0 = p ∧
         ∀ k, k ≠ d.toNat → t.routes.getD k 0 = s.routes.getD k 0) ∧
     (∀ (q : BitVec 6) lvl asid (base cons : VAddr) (k : BitVec 6), s.waitingIn q = 0 → 12 ≤ k.toNat → k.toNat ≤ 24 →
       base.toNat % 2 ^ k.toNat = 0 → cons.toNat % 8 = 0 → ∃ t w, answers (.queueSet h q lvl asid base k cons) t 0 [] ∧
         t.queues.get? q.toNat = some w ∧ w.level = lvl ∧ w.asid = asid ∧ w.ring = base ∧ w.ringK = k.toNat ∧ w.cons = cons ∧
         w.prod = 0) ∧
     (∀ (asid : BitVec 16) (base : VAddr) (size : Word) a, s.space asid = some a → base.toNat % 0x10000 = 0 →
       size.toNat % 0x10000 = 0 → s.launches = [] → s.regions = [] →
       answers (.saveSet h asid base size)
         { u with spaces := s.spaces.set asid.toNat { a with saveBase := base.toNat, saveSize := size.toNat } } 0 []) ∧
     (∀ (n : BitVec 8) (w0 w1 w2 w3 w4 : Word), w1.extractLsb' 48 8 = 0 → w1.extractLsb' 16 3 = 0 → w1.extractLsb' 22 4 = 3 →
       let k := (w1.extractLsb' 26 6).toNat
       let base := (w1.extractLsb' 56 8).toNat * 2 ^ 64 + w0.toNat
       let free := { u with subs := s.subs.del n.toNat }
       (w1.extractLsb' 0 16).toNat < 512 → 12 ≤ k → k ≤ 24 → base % 2 ^ k = 0 → w2.toNat % 8 = 0 → w4.toInt < w3.toInt →
       free.rangeHeld (w1.extractLsb' 32 16) base (2 ^ k) = false →
         ∃ t i, answers (.subSet h n w0 w1 w2 w3 w4) t 0 [] ∧ t.subs.get? n.toNat = some i ∧ i.base.toNat = base ∧ i.k = k ∧
           i.kind = 3 ∧ i.index = (w1.extractLsb' 0 16).toNat ∧ i.high = w3 ∧ i.low = w4 ∧ i.above = false ∧ i.seq = 0) ∧
     (∀ nonce, ∃ sig, answers (.attest h nonce) u 0 sig ∧ sig.take (96 * s.attLog.length) = logWords s.attLog) ∧
     (∀ n typ version (d : BitVec 512), logWords [(n, typ, version, d)] = (leBytes 4 n ++ leBytes 4 typ ++ leBytes 8 version ++
       leBytes 16 0 ++ leBytes 64 d.toNat).map (·.toNat)) ∧
     (∀ r : FwRec, answers (.fwStage h r) { u with fwSlots := s.fwSlots.set (1 - s.fwActive) r } 0 []) ∧
     (∀ r, s.fwSlots.get? (1 - s.fwActive) = some r →
       (s.fwOk r = true → ∃ t, answers (.fwCommit h) t 0 [] ∧ t.fwStage = .quiesced s.devTime.toNat ∧
         t.attLog = s.attLog ++ [(s.attLog.length, 1, r.version.toNat, Config.recDigest r)]) ∧
       (s.fwOk r = false → answers (.fwCommit h) u 0x04 []))) ∧
  -- What Botra writes through the management port: every register, under the access codes of R15.
  (∀ (s : State) (v : Word), s.bootOk = true → s.fwStage = .idle →
     let writes := fun (n : BitVec 12) (m : Mgmt) =>
       exec (.regWrite .botra n v) s = .next { s with mgmt := m, out := s.out ++ [.port 0 []] }
     (let req : BitVec 8 := v.extractLsb' 16 8
      writes 0x020 { s.mgmt with clkReq := if 0x0A ≤ req.toNat ∧ req.toNat ≤ 0x18 then req else s.mgmt.clkReq
                                 clkDefer := s.mgmt.clkNow || (s.mgmt.clkDefer && !v.getLsbD 1) }) ∧
     (let rate : BitVec 32 := v.extractLsb' 0 32
      writes 0x030 { s.mgmt with devRate := if -500000 ≤ rate.toInt ∧ rate.toInt ≤ 500000 then rate else s.mgmt.devRate }) ∧
     writes 0x031 { s.mgmt with ptpOff := v } ∧
     writes 0x032 { s.mgmt with ptpEn := v.getLsbD 4, ptpPort := v.extractLsb' 0 4 } ∧
     writes 0x050 { s.mgmt with linkTo := v.extractLsb' 0 32 } ∧ writes 0x064 { s.mgmt with hangWd := v.extractLsb' 0 32 } ∧
     (∀ n : BitVec 12, n ∈ [(0x000 : BitVec 12), 0x070, 0x071, 0x072, 0x073] → writes n s.mgmt) ∧
     (∀ d : BitVec 2, ∃ m, writes (0x010 + d.setWidth 12) m ∧ m = { s.mgmt with caps := m.caps } ∧
       (∀ k, k ≠ d.toNat → m.caps.getD k 0 = s.mgmt.caps.getD k 0) ∧
       ∀ i, i < 64 → (m.caps.getD d.toNat 0).getLsbD i =
         if (12 ≤ i ∧ i < 17 ∧ (v.extractLsb' 12 5).toNat ≤ 16) ∨ (17 ≤ i ∧ i < 23 ∧ (v.extractLsb' 17 6).toNat ≤ 32) ∨
           (23 ≤ i ∧ i < 31 ∧ (v.extractLsb' 23 8).toNat ≤ 128) ∨ (31 ≤ i ∧ i < 40 ∧ (v.extractLsb' 31 9).toNat ≤ 256) ∨
           (40 ≤ i ∧ i < 45 ∧ (v.extractLsb' 40 5).toNat ≤ 24)
         then v.getLsbD i else (s.mgmt.caps.getD d.toNat 0).getLsbD i) ∧
     ∀ n : BitVec 12, s.regValue n.toNat = none → exec (.regWrite .botra n v) s = .next { s with out := s.out ++ [.port 0x04 []] }) ∧
  -- A request on a session that is not bound is answered DENIED, in a quiescent point too (R483).
  (∀ (s : State) (h : Toc) (n : BitVec 4) q p (r : BitVec 12), s.bootOk = true → h.sess = some n →
     (∀ e, s.sessions.get? n.toNat = some e → e.asid = none) →
     exec (.toclLaunch h q p) s = .next { s with out := s.out ++ [.answer h 0x02 []] } ∧
     exec (.regRead h r) s = .next { s with out := s.out ++ [.answer h 0x02 []] }) ∧
  -- A management command offered in a quiescent point is held, and acted on once the point is over (R479).
  (∀ (s : State) (h : Toc) (n : BitVec 12) rest v, s.frozen = false → s.bootOk = true → h.sess = none → h.seq = s.ctlSeq →
     s.regValue n.toNat = some v →
     (s.agenda = .regRead h n :: rest → s.fwStage ≠ .idle → s.tocHeld = [] →
       step s = .next { s with agenda := rest, tocHeld := [.regRead h n] }) ∧
     (s.tocHeld = [.regRead h n] → s.fwStage ≠ .idle → s.heldReqs = s) ∧
     (s.tocHeld = [.regRead h n] → s.fwStage = .idle → s.toclCancels = [] →
       s.heldReqs = { s with tocHeld := [], ctlSeq := s.ctlSeq + 1, out := s.out ++ [.answer h 0 [v]] }))

/-- Power, clock, boot and firmware events (R18, R421, R465, R466, R469 to R473, R475, R476, R478, R479): Botra sets where a trim goes, and the
island moves 5 mV a µs; a clock request in range is kept; the host is denied both; a sample that crosses a threshold is notified, once a µs; hold
ends in retention; a held core wakes at once, a retained one through its die's arbiter, in arrival order and by number within a cycle, which
admits the oldest while fewer than eight ramp; a lost parity check starts the core anew; package reset keeps flash and stops at the first step of
boot that fails, after which the host is answered the boot status; a record is accepted as its TYPE asks; a new Botra takes over or, after 50 µs,
the old one resumes.
It rests on readings and choices of the model: log entries 7, 8, 93, 106, 108, 109, 110, 111, 135, 136 and 143. -/
def Obligations.PowerAndBootResults : Prop :=
  (∀ (n : BitVec 10) (mv : BitVec 16) (r : BitVec 8) (s : State), s.fwStage = .idle →
    (s.bootOk = true →
      let said := fun (t : State) (st : Nat) => { t with out := t.out ++ [OutMsg.port st []] }
      exec (.trimSet ⟨.botra, n⟩ mv) s = .next
        (if n.toNat < 544 then said { s with trimGoal := s.trimGoal.set n.toNat mv } 0 else said s 0x04) ∧
      exec (.clkSet ⟨.botra, r⟩) s = .next
        (if 0x0A ≤ r.toNat ∧ r.toNat ≤ 0x18 then said { s with mgmt := { s.mgmt with clkReq := r } } 0 else said s 0x04) ∧
      ∀ h : Toc, h.sess = none → h.seq = s.ctlSeq →
        let denies := { s with ctlSeq := s.ctlSeq + 1, out := s.out ++ [OutMsg.answer h 0x02 []] }
        exec (.trimSet ⟨.host h, n⟩ mv) s = .next denies ∧ exec (.clkSet ⟨.host h, r⟩) s = .next denies) ∧
    (s.bootOk = false → exec (.trimSet ⟨.botra, n⟩ mv) s = .next s ∧ exec (.clkSet ⟨.botra, r⟩) s = .next s)) ∧
  (∀ (s : State) (n : Nat) (goal : BitVec 16) (old : Word), s.trimGoal = [(n, goal)] →
    (s.devTime.toNat / 1000 = old.toNat / 1000 → s.microActs old = s) ∧
    (s.devTime.toNat / 1000 ≠ old.toNat / 1000 → s.subs = [] →
      let t := s.microActs old
      let v := s.trims.getD n 0
      let w := t.trims.getD n 0
      t.mem = s.mem ∧ (∀ c, t.core c = { s.core c with gov := false }) ∧ (∀ k, k ≠ n → t.trims.getD k 0 = s.trims.getD k 0) ∧
        (v.toNat + 5 < goal.toNat → w.toNat = v.toNat + 5 ∧ t.trimGoal = s.trimGoal) ∧
        (goal.toNat + 5 < v.toNat → w.toNat + 5 = v.toNat ∧ t.trimGoal = s.trimGoal) ∧
        (v.toNat ≤ goal.toNat + 5 → goal.toNat ≤ v.toNat + 5 → w = goal ∧ t.trimGoal = []))) ∧
  (∀ (s : State) (n : BitVec 8) u (v : Word), s.subs.get? n.toNat = some u →
    let us := s.devTime.toNat / 1000
    (u.kind ≠ 0 → s.sampled.getD u.sensor 0 = us + 1 → exec (.sensorSample n v) s = .next s) ∧
    (u.kind ≠ 0 → s.sampled.getD u.sensor 0 ≠ us + 1 →
      let k := s.core (BitVec.ofNat 9 (u.sensor % 65536))
      exec (.sensorSample n v) s = .next (s.sampleSensor u.sensor us
        (if u.sensor / 65536 = 3 ∧ k.govUs = us + 1 then BitVec.ofNat 64 k.govMw else v))) ∧
    (s.subs = [(n.toNat, u)] → s.sampleSensor u.sensor us v =
      { s with sampled := s.sampled.put u.sensor (us + 1) 0 }.subSample n.toNat v) ∧
    (u.above = false → u.high.toInt ≤ v.toInt → s.subSample n.toNat v = s.notify n.toNat { u with above := true } true v) ∧
    (u.above = true → v.toInt ≤ u.low.toInt → s.subSample n.toNat v = s.notify n.toNat { u with above := false } false v) ∧
    (u.above = false → v.toInt < u.high.toInt → s.subSample n.toNat v = s) ∧
    (u.above = true → u.low.toInt < v.toInt → s.subSample n.toNat v = s)) ∧
  (∀ (s : State) (c : CoreId),
    (∀ t, (s.core c).pwr = .hold t → t + 2000 ≤ s.devTime.toNat →
      exec (.holdTimerExpiry c) s = .next (s.modCore c fun k => { k with pwr := .retained })) ∧
    (∀ t, (s.core c).pwr = .hold t → s.devTime.toNat < t + 2000 →
      exec (.wakeRequest c) s = .next (s.modCore c fun k => { k with pwr := .active })) ∧
    ((s.core c).pwr = .retained → ∃ t l m, exec (.wakeRequest c) s = .next t ∧ (t.core c).pwr = .waiting s.cycle.toNat ∧
      s.arbiter.getD (c.toNat / 128) [] = l ++ m ∧ t.arbiter.getD (c.toNat / 128) [] = l ++ c :: m ∧
      (∀ k ∈ l, s.wakesAfter s.cycle.toNat c k = false) ∧
      ∀ k, m.head? = some k → s.wakesAfter s.cycle.toNat c k = true) ∧
    (∀ (die : BitVec 2) l t, s.arbiter.getD die.toNat [] = c :: l → (s.core c).pwr = .waiting t →
      (s.cycle.toNat ≤ t ∨ 8 ≤ s.ramping die.toNat → exec (.wakeAdmit die) s = .next s) ∧
      (t < s.cycle.toNat → s.ramping die.toNat < 8 → ∃ w, exec (.wakeAdmit die) s = .next w ∧
        (w.core c).pwr = .waking s.devTime.toNat ∧ w.arbiter.getD die.toNat [] = l)) ∧
    (∀ t, (s.core c).pwr = .waking t →
      (t + 130 ≤ s.devTime.toNat → exec (.wakeRampDone c true) s = .next (s.modCore c fun k => { k with pwr := .active })) ∧
      (t + 120 ≤ s.devTime.toNat → (s.core c).next = none → ∃ w, exec (.wakeRampDone c false) s = .next w ∧
        (w.core c).run = none ∧ (w.core c).pwr = .hold s.devTime.toNat ∧ (w.core c).ctx = Ctx.reset ∧ (w.core c).ofs = [] ∧
        w.mem = (s.retentionLost c).mem))) ∧
  (∀ (s : State),
    (∃ t, exec .packageReset s = .next t ∧ t.agenda = s.agenda ∧ t.fwSlots = s.fwSlots ∧ t.fwMin = s.fwMin ∧
      t.flashRecs = s.flashRecs ∧ t.mem = State.reset.mem ∧ t.cores = State.reset.cores ∧ t.launches = [] ∧ t.frozen = false ∧
      (s.bootStop = none → t.bootOk = true ∧ s.bootSlot = some t.fwActive ∧ t.attLog.length = 5) ∧
      ∀ k, s.bootStop = some k → t.bootFail = some k ∧ t.attLog.length = min (measuredAt k) 5) ∧
    (s.bootFinds = some .seed → s.bootStop = some .seed) ∧
    (s.bootFinds ≠ some .seed → s.bootSlot = none → s.bootStop = some .botra) ∧
    (∀ n, s.bootFinds ≠ some .seed → s.bootSlot = some n →
      (s.cfgOk 2 = false → s.bootStop = some (.config 2)) ∧ (s.cfgOk 2 = true → s.cfgOk 3 = false → s.bootStop = some (.config 3)) ∧
      (s.cfgOk 2 = true → s.cfgOk 3 = true → s.cfgOk 4 = false → s.bootStop = some (.config 4)) ∧
      (s.cfgOk 2 = true → s.cfgOk 3 = true → s.cfgOk 4 = true → s.bootStop = s.bootFinds)) ∧
    ∀ k, s.bootFail = some k → (∀ h va len, exec (.toclRead h va len) s = .next { s with out := s.out ++ [.bootStatus k.step k] }) ∧
      (s.agenda = [] → step s = .next s)) ∧
  (∀ (s : State) (r : FwRec),
    let byRoot := r.magic = 0x5A435246 ∧ r.body.length = r.len.toNat ∧ r.signer = 0 ∧ Config.sigValid none r = true
    (s.fwOk r = true ↔ r.typ = 1 ∧ byRoot ∧ s.fwMin.toNat ≤ r.version.toNat) ∧
    (r.typ = 2 ∨ r.typ = 3 ∨ r.typ = 5 → (s.recOk r = true ↔ byRoot)) ∧
    (r.typ = 4 → s.recOk r = true → r.magic = 0x5A435246 ∧ r.body.length = r.len.toNat ∧
      (byRoot ∨ ∃ o, s.flashRecs.get? 5 = some o ∧ o.typ = 5 ∧ s.recOk o = true ∧ r.signer = 1 ∧ Config.sigValid (some o) r = true))) ∧
  ∀ (s : State) t, s.fwStage = .quiesced t →
    (∃ w, exec .handoverReady s = .next w ∧ w.fwStage = .idle ∧ w.fwActive = 1 - s.fwActive ∧ w.mem = s.mem ∧
      ∀ r, s.fwSlots.get? (1 - s.fwActive) = some r → w.fwMin = if s.fwMin.toNat < r.version.toNat then r.version else s.fwMin) ∧
    (t + 50000 ≤ s.devTime.toNat → ∃ w, exec .handoverTimeout s = .next w ∧ w.fwStage = .idle ∧ w.fwActive = s.fwActive ∧
      w.fwMin = s.fwMin ∧ w.attLog.length = s.attLog.length + 1) ∧
    (s.devTime.toNat < t + 50000 → exec .handoverTimeout s = .next s)

/-! ### Waits of the command streams -/

/-- XWAIT and XNOP (R365), MWAIT and MNOP (R224). XWAIT n issues when at most n X commands are outstanding, MWAIT when no matrix nest runs; else the
stream stalls as back-pressure, which no watchdog times. XNOP and MNOP do nothing. Issued, each deposits its signals and leaves the command
queue, every register and memory as they are. The words of MWAIT and MNOP have majors 0x0E and 0x10 and every operand bit zero. -/
def Obligations.CommandWaitsAndNops : Prop :=
  let held := fun (s : State) (e : Strm) (i : Instr) =>
    exec i s = .next (s.modStr s.cur e fun t => { t with wait := some (otherWait, (s.ctx s.cur |>.str e).waited otherWait) })
  let issues := fun (s : State) (e : Strm) (r : Ring) (i : Instr) => ∃ t, exec i s = .next t ∧ t = s.passes e r id ∧
    (t.ctx s.cur).cmds = (s.slotCtx e).cmds ∧ (t.ctx s.cur).mnest = (s.slotCtx e).mnest ∧ t.mem = (s.slot e).mem ∧
    (∀ j, (t.ctx s.cur).sr j = (s.slotCtx e).sr j) ∧
    ∀ q, (t.ctx s.cur).fresh.getD q 0 = (s.slotCtx e).fresh.getD q 0 + (if r.sp = true ∧ q = outQueue e true then 1 else 0) +
      (if r.sn = true ∧ q = outQueue e false then 1 else 0)
  (∀ (s : State) (r : Ring) (n : BitVec 5), s.Opens .x r →
     ((s.slotCtx .x).cmds.length ≤ n.toNat → issues s .x r (.xwait r n)) ∧
     (n.toNat < (s.slotCtx .x).cmds.length → held s .x (.xwait r n)) ∧ issues s .x r (.xnop r)) ∧
  (∀ (s : State) (r : Ring), s.Opens .m r →
     ((s.slotCtx .m).mnest = none → issues s .m r (.mwait r)) ∧ ((s.slotCtx .m).mnest ≠ none → held s .m (.mwait r)) ∧
     issues s .m r (.mnop r)) ∧
  (∀ w : Nat, w < 2 ^ 32 → w % 64 = 0x0E ∨ w % 64 = 0x10 →
     let r : Ring :=
       { wp := w.testBit 6
         wn := w.testBit 7
         sp := w.testBit 8
         sn := w.testBit 9 }
     (w < 2 ^ 10 → decodeWord .m w = .ok (if w % 64 = 0x0E then .mwait r else .mnop r)) ∧
     (2 ^ 10 ≤ w → decodeWord .m w = .error .reservedField))

/-! ### The machine as a whole -/

/-- What reset leaves. Stated by the spec (the Reset columns of R54 to R62, R90, R166 to R168, R209 to R213, R396, R397, R434 and R466): time stands at 0,
and every control register that the C stream can read reads its reset value on every core, 0 but for the core's number and features, WDOG and VCTL. The model's
choice, since a context has its values of R24 from a bind on (log entry 2): scalars, predicates and masks are 0 and views the default ones before it; and no
task, region, launch or counter exists. The first step begins the first cycle and changes nothing else.
It rests on readings and choices of the model: log entries 1, 2, 3, 4 and 5. -/
def Obligations.ResetValues : Prop :=
  let s := State.reset
  s.cycle = 0 ∧ s.devTime = 0 ∧ s.mgmt.clkCur = 0x15 ∧ s.mgmt.clkReq = 0x15 ∧
  s.mgmt.clkDefer = false ∧ s.mgmt.devRate = 0 ∧ s.mgmt.ptpOff = 0 ∧ s.mgmt.ptpEn = false ∧ s.bootOk = true ∧ s.frozen = false ∧
  s.launches = [] ∧ s.regions = [] ∧ s.phases = [] ∧ s.jobs = [] ∧ s.graphs = [] ∧ s.queues = [] ∧ s.sessions = [] ∧
  s.unacked = [] ∧ s.seenPkts = [] ∧ s.collFails = [] ∧ s.mgmt.clkNow = false ∧ s.outPkts = [] ∧ s.staged = [] ∧ s.recvs = [] ∧ s.trimGoal = [] ∧ s.tocHeld = [] ∧
  (∀ c : CoreId,
     (s.core c).run = none ∧
     s.csrRead c 0x002 = 0 ∧ s.csrRead c 0x003 = 0 ∧ s.csrRead c 0x010 = 0 ∧ s.csrRead c 0x011 = 0 ∧
     s.csrRead c 0x012 = 0x01000000 ∧ (∀ n, 0x014 ≤ n → n ≤ 0x016 → s.csrRead c n = 0) ∧
     (∀ n, 0x020 ≤ n → n ≤ 0x025 → s.csrRead c n = 0) ∧ s.csrRead c 0x030 = 0 ∧ s.csrRead c 0x040 = 0x200 ∧
     s.csrRead c 0x041 = 0 ∧ s.csrRead c 0x042 = 0 ∧ (∀ n, 0x050 ≤ n → n ≤ 0x05F → s.csrRead c n = 0) ∧
     (s.csrRead c 0x000).extractLsb' 0 9 = c ∧ (s.csrRead c 0x001).extractLsb' 16 8 = 1 ∧
     (∀ r, (s.ctx c).sr r = 0) ∧ (∀ r, (s.ctx c).pr r = decide (r = 0)) ∧ (∀ r, (s.ctx c).kr r = if r = 0 then BitVec.allOnes 128 else 0) ∧
     (∀ v : VReg, (s.ctx c).view v = 128 * v.toNat) ∧ (∀ n, (s.ctx c).tv.get? n = none) ∧ (∀ n, (s.ctx c).av.get? n = none) ∧
     (∀ q, (s.ctx c).tokens q = 0) ∧ (∀ v, (s.ctx c).eph.get? v = none) ∧ ∀ e, ((s.ctx c).str e).queue = []) ∧
  step s = .next s.tick ∧ s.tick = { s with cycle := 1, devFrac := s.tick.devFrac }

/-- Memory after reset has its canonical form: it lists nothing.
It rests on readings and choices of the model: log entry 3. -/
def Obligations.ResetMemoryCanonical : Prop := State.reset.MemoryCanonical

/-- Whatever a step does (an instruction of any stream, a trap, an engine's turn, the end of a cycle, an event), memory keeps its canonical form:
addresses strictly rise, and no listed byte equals what an unlisted address reads as.
It rests on readings and choices of the model: log entry 3. -/
def Obligations.StepKeepsMemoryCanonical : Prop := ∀ s t : State, s.MemoryCanonical → step s = .next t → t.MemoryCanonical

/-- The machine never stops: every step from every state answers a next state; an instruction that cannot be executed takes its exception or
waits (R10, R86, R391).
It rests on readings and choices of the model: log entries 15 and 19. -/
def Obligations.EveryStepAnswersNext : Prop := ∀ s : State, ∃ t, step s = .next t

/-- Decoding and encoding agree, one way: every well-formed instruction of a stream has a word of 32 bits, or of 16 for a dictionary code, and
the decoder reads exactly that instruction from the word's bytes as they stand in memory, lowest first, whatever follows them (R12, R65 to R86). Every
well-formed instruction of a stream has such a word. -/
def Obligations.DecodeOfEncode : Prop :=
  (∀ (i : Instr) (n w : Nat), i.wf = true → encode i = some (n, w) →
    ∃ e, i.strm = some e ∧ (n = 32 ∨ n = 16) ∧ w < 2 ^ n ∧ decode e w = .ok i ∧
      ∀ rest, decodeBytes e (leBytes (n / 8) w ++ rest) = .ok (i, rest)) ∧
  ∀ (i : Instr) (e : Strm), i.wf = true → i.strm = some e → ∃ n w, encode i = some (n, w)

/-- Decoding and encoding agree, the other way: a word that a stream's decoder accepts is the word of a well-formed instruction of that stream,
and no other word of 32 bits is: the decoder ignores no bit (R85, R86). -/
def Obligations.EncodeOfDecode : Prop :=
  ∀ (e : Strm) (w : Nat) (i : Instr), w < 2 ^ 32 → decodeWord e w = .ok i →
    i.wf = true ∧ i.strm = some e ∧ encode i = some (32, w)

/-- Words written out from the encodings of the spec decode to the instructions they stand for, one or more of every family of each stream. -/
def Obligations.SpecWordsDecode : Prop :=
  let z : Ring := ⟨false, false, false, false⟩
  decodeWord .c 0x01C61601 = .ok (.add { z with sn := true } 5 6 7) ∧
  decodeWord .c 0x0123140A = .ok (.movi z 5 0x0123) ∧
  decodeWord .c 0x05064412 = .ok (.cmpi z 1 .lt 6 20) ∧
  decodeWord .c 0xFFFEA814 = .ok (.br z 2 true 0x3FFFA) ∧
  decodeWord .c 0x0D94241A = .ok (.ld z 9 20 .w .xb 3) ∧
  decodeWord .c 0x00801025 = .ok (.csrr z 4 0x002) ∧
  decodeWord .c 0x01C6142A = .ok (.launch z 5 6 7) ∧
  decodeWord .c 0x01C6141F = .ok (.amoAdd z 5 6 7) ∧
  decodeWord .c 0x10940C22 = .ok (.bara z .vm 20 2 false) ∧
  decodeWord .c 0x05543021 = .ok (.arm z 12 20 21) ∧
  decodeWord .v 0x0C419E47 = .ok (.vfmaF32F64 { z with wp := true, sn := true } 7 true 1 2 3 false) ∧
  decodeWord .v 0x4042241B = .ok (.vcvt z 9 2 false .f32 .e2m1) ∧
  decodeWord .v 0x00320C27 = .ok (.vld z false 3 2 3 .xb) ∧
  decodeWord .m 0x00440001 = .ok (.mma z 0 0 1 true false) ∧
  decodeWord .m 0x0000000F = .ok (.mstat z) ∧
  decodeWord .x 0x00000801 = .ok (.xcopy z 2 false) ∧
  decodeWord .x 0x80004802 = .error .reservedField ∧
  decodeWord .x 0x2140000A = .ok (.xJoin z 5) ∧
  decode .c 0x017E = .ok (.dictionaryCode .c 5)

/-- A step runs the decoded instruction (R45, R65, R67, R69, R88, R116). In a stream's turn, when the stream is to issue, the step is exec of the instruction that the
word it holds, or the word that it fetches at its PC, decodes to; the state has moved past the turn in the cycle's order, the word is held, and what
follows every turn of a core is added. A dictionary code is held and the same turn goes on with the word of its entry. A word that does not decode, and
a parcel that cannot be fetched, take their faults. The fetched word has the parcel at the PC in its low half and the next one above it.
It rests on readings and choices of the model: log entries 14, 15 and 39. -/
def Obligations.StepRunsDecodedInstruction : Prop :=
  (∀ (s : State) (c : CoreId) (e : Strm) (rest : List Agent),
    let k := s.core c
    let t := k.ctx.str e
    s.agenda = [] → s.frozen = false → s.bootOk = true → s.sched = .strm c e :: rest →
    k.free = true → k.saveLets e = true → t.live = .live → (k.ctx.te = true → e = .c) → k.govHolds e s.cycle = false →
    t.occ = 0 → t.skip = 0 → (t.fence = true → k.pend = []) → (t.dfault = none ∨ k.ctx.te = true) →
    let u0 : State := { s with sched := rest, cur := c }
    let u := u0.modStr c e fun t => { t with fence := false }
    let stepIs := fun (o : Host.Outcome State Fault Refusal) => ∀ v, o = .next v → step s = .next (s.afterTurn v c)
    (∀ h, t.held = some h →
      (∀ i, decodeWord e ((u.ctx c).heldWord h).toNat = .ok i → stepIs (exec i u)) ∧
      (∀ x, decodeWord e ((u.ctx c).heldWord h).toNat = .error x → stepIs (exec (.encodingFault c e) u))) ∧
    (t.held = none →
      (∀ w, u.fetch c e = .ok (.word w) →
        (∀ i, decodeWord e w.toNat = .ok i → stepIs (exec i (u.hold c e (.word w)))) ∧
        (∀ x, decodeWord e w.toNat = .error x → stepIs (exec (.encodingFault c e) (u.hold c e (.word w))))) ∧
      (∀ n, u.fetch c e = .ok (.code n) →
        exec (.dictionaryCode e n) u = .next { u.hold c e (.code n) with sched := .strm c e :: rest } ∧
        stepIs (exec (.dictionaryCode e n) u)) ∧
      (∀ x, u.fetch c e = .error x → stepIs (exec (.instructionFetchFault c e) u)))) ∧
  (∀ (s v : State) (c : CoreId), (v.core c).ctx.te = (s.core c).ctx.te → (v.core c).frz = (s.core c).frz → (v.core c).ctx.lend = 0 →
    s.afterTurn v c = v) ∧
  (∀ (s : State) (c : CoreId) (e : Strm) (p q : Nat),
    let pc := ((s.ctx c).str e).pc
    s.fetchParcel c pc = .ok p →
    (p % 64 = 62 → s.fetch c e = .ok (.code (BitVec.ofNat 10 (p / 64)))) ∧
    (p % 64 ≠ 62 → badMajor e p = false → s.fetchParcel c (pcAt pc (pc.setWidth 64 + 2)) = .ok q →
      s.fetch c e = .ok (.word (BitVec.ofNat 32 (p + 2 ^ 16 * q))))) ∧
  (∀ (s : State) (c : CoreId) (pc : VAddr) l,
    s.vRange (some c) (s.asidOf c) .x pc.toNat 2 = .ok l → s.badPiece l = none →
    (∀ id r, s.dieEntry (s.asidOf c) .virt pc.toNat = some (id, r) → r.sealed = true →
      s.fetchParcel c pc = .ok (leNat (s.readPieces l))) ∧
    (s.dieEntry (s.asidOf c) .virt pc.toNat = none → s.fetchParcel c pc = .error (.protection, pc.setWidth 64)))
end

