-- ==== Sys2Proof/Laws/Dispatch.lean ====
section
/-!
SUPPORT. Laws/Dispatch.lean: exec of each constructor is its meaning, so that no proof unfolds the dispatch.
-/
namespace Sys2Proof.Machine

theorem exec_add r d a b (s : State) : exec (.add r d a b) s = execAdd r d a b s := rfl
theorem exec_sub r d a b (s : State) : exec (.sub r d a b) s = execSub r d a b s := rfl
theorem exec_and r d a b (s : State) : exec (.and r d a b) s = execAnd r d a b s := rfl
theorem exec_or r d a b (s : State) : exec (.or r d a b) s = execOr r d a b s := rfl
theorem exec_xor r d a b (s : State) : exec (.xor r d a b) s = execXor r d a b s := rfl
theorem exec_andn r d a b (s : State) : exec (.andn r d a b) s = execAndn r d a b s := rfl
theorem exec_orn r d a b (s : State) : exec (.orn r d a b) s = execOrn r d a b s := rfl
theorem exec_sll r d a b (s : State) : exec (.sll r d a b) s = execSll r d a b s := rfl
theorem exec_srl r d a b (s : State) : exec (.srl r d a b) s = execSrl r d a b s := rfl
theorem exec_sra r d a b (s : State) : exec (.sra r d a b) s = execSra r d a b s := rfl
theorem exec_rol r d a b (s : State) : exec (.rol r d a b) s = execRol r d a b s := rfl
theorem exec_ror r d a b (s : State) : exec (.ror r d a b) s = execRor r d a b s := rfl
theorem exec_sel r d a b (s : State) : exec (.sel r d a b) s = execSel r d a b s := rfl
theorem exec_min r d a b (s : State) : exec (.min r d a b) s = execMin r d a b s := rfl
theorem exec_max r d a b (s : State) : exec (.max r d a b) s = execMax r d a b s := rfl
theorem exec_minn r d a b (s : State) : exec (.minn r d a b) s = execMinn r d a b s := rfl
theorem exec_mul r d a b (s : State) : exec (.mul r d a b) s = execMul r d a b s := rfl
theorem exec_mulh r d a b (s : State) : exec (.mulh r d a b) s = execMulh r d a b s := rfl
theorem exec_mulhn r d a b (s : State) : exec (.mulhn r d a b) s = execMulhn r d a b s := rfl
theorem exec_div r d a b (s : State) : exec (.div r d a b) s = execDiv r d a b s := rfl
theorem exec_divn r d a b (s : State) : exec (.divn r d a b) s = execDivn r d a b s := rfl
theorem exec_rem r d a b (s : State) : exec (.rem r d a b) s = execRem r d a b s := rfl
theorem exec_remn r d a b (s : State) : exec (.remn r d a b) s = execRemn r d a b s := rfl
theorem exec_maxn r d a b (s : State) : exec (.maxn r d a b) s = execMaxn r d a b s := rfl
theorem exec_clz r d a (s : State) : exec (.clz r d a) s = execClz r d a s := rfl
theorem exec_ctz r d a (s : State) : exec (.ctz r d a) s = execCtz r d a s := rfl
theorem exec_popc r d a (s : State) : exec (.popc r d a) s = execPopc r d a s := rfl
theorem exec_brev r d a (s : State) : exec (.brev r d a) s = execBrev r d a s := rfl
theorem exec_bswap r d a (s : State) : exec (.bswap r d a) s = execBswap r d a s := rfl
theorem exec_sext r d a w1 (s : State) : exec (.sext r d a w1) s = execSext r d a w1 s := rfl
theorem exec_zext r d a w1 (s : State) : exec (.zext r d a w1) s = execZext r d a w1 s := rfl
theorem exec_addi r d a imm (s : State) : exec (.addi r d a imm) s = execAddi r d a imm s := rfl
theorem exec_andi r d a imm (s : State) : exec (.andi r d a imm) s = execAndi r d a imm s := rfl
theorem exec_ori r d a imm (s : State) : exec (.ori r d a imm) s = execOri r d a imm s := rfl
theorem exec_xori r d a imm (s : State) : exec (.xori r d a imm) s = execXori r d a imm s := rfl
theorem exec_muli r d a imm (s : State) : exec (.muli r d a imm) s = execMuli r d a imm s := rfl
theorem exec_slli r d a sh (s : State) : exec (.slli r d a sh) s = execSlli r d a sh s := rfl
theorem exec_srli r d a sh (s : State) : exec (.srli r d a sh) s = execSrli r d a sh s := rfl
theorem exec_srai r d a sh (s : State) : exec (.srai r d a sh) s = execSrai r d a sh s := rfl
theorem exec_rori r d a sh (s : State) : exec (.rori r d a sh) s = execRori r d a sh s := rfl
theorem exec_movi r d imm (s : State) : exec (.movi r d imm) s = execMovi r d imm s := rfl
theorem exec_movk r d imm (s : State) : exec (.movk r d imm) s = execMovk r d imm s := rfl
theorem exec_addpc r d imm (s : State) : exec (.addpc r d imm) s = execAddpc r d imm s := rfl
theorem exec_bfx r d a b (s : State) : exec (.bfx r d a b) s = execBfx r d a b s := rfl
theorem exec_bfxn r d a b (s : State) : exec (.bfxn r d a b) s = execBfxn r d a b s := rfl
theorem exec_bfi r d a b (s : State) : exec (.bfi r d a b) s = execBfi r d a b s := rfl
theorem exec_fshl r d a b (s : State) : exec (.fshl r d a b) s = execFshl r d a b s := rfl
theorem exec_fshr r d a b (s : State) : exec (.fshr r d a b) s = execFshr r d a b s := rfl
theorem exec_cmp r pd cond a b (s : State) : exec (.cmp r pd cond a b) s = execCmp r pd cond a b s := rfl
theorem exec_cmpAnd r pd cond a b (s : State) : exec (.cmpAnd r pd cond a b) s = execCmpAnd r pd cond a b s := rfl
theorem exec_cmpOr r pd cond a b (s : State) : exec (.cmpOr r pd cond a b) s = execCmpOr r pd cond a b s := rfl
theorem exec_cmpi r pd cond a imm (s : State) : exec (.cmpi r pd cond a imm) s = execCmpi r pd cond a imm s := rfl
theorem exec_pand r pd pa pb (s : State) : exec (.pand r pd pa pb) s = execPand r pd pa pb s := rfl
theorem exec_por r pd pa pb (s : State) : exec (.por r pd pa pb) s = execPor r pd pa pb s := rfl
theorem exec_pxor r pd pa pb (s : State) : exec (.pxor r pd pa pb) s = execPxor r pd pa pb s := rfl
theorem exec_pnot r pd pa (s : State) : exec (.pnot r pd pa) s = execPnot r pd pa s := rfl
theorem exec_pmov r pd pa (s : State) : exec (.pmov r pd pa) s = execPmov r pd pa s := rfl
theorem exec_br r p neg off (s : State) : exec (.br r p neg off) s = execBr r p neg off s := rfl
theorem exec_jmp r off (s : State) : exec (.jmp r off) s = execJmp r off s := rfl
theorem exec_call r off (s : State) : exec (.call r off) s = execCall r off s := rfl
theorem exec_jr r a (s : State) : exec (.jr r a) s = execJr r a s := rfl
theorem exec_jalr r d a (s : State) : exec (.jalr r d a) s = execJalr r d a s := rfl
theorem exec_ret r (s : State) : exec (.ret r) s = execRet r s := rfl
theorem exec_loop r d imm (s : State) : exec (.loop r d imm) s = execLoop r d imm s := rfl
theorem exec_nop r (s : State) : exec (.nop r) s = execNop r s := rfl
theorem exec_skip r p neg n (s : State) : exec (.skip r p neg n) s = execSkip r p neg n s := rfl
theorem exec_join r k (s : State) : exec (.join r k) s = execJoin r k s := rfl
theorem exec_exit r (s : State) : exec (.exit r) s = execExit r s := rfl
theorem exec_ld r d a sz sp off (s : State) : exec (.ld r d a sz sp off) s = execLd r d a sz sp off s := rfl
theorem exec_st r d a sz sp off (s : State) : exec (.st r d a sz sp off) s = execSt r d a sz sp off s := rfl
theorem exec_ldx r d a b sz sp (s : State) : exec (.ldx r d a b sz sp) s = execLdx r d a b sz sp s := rfl
theorem exec_stx r d a b sz sp (s : State) : exec (.stx r d a b sz sp) s = execStx r d a b sz sp s := rfl
theorem exec_pft r a sz sp off (s : State) : exec (.pft r a sz sp off) s = execPft r a sz sp off s := rfl
theorem exec_ldVm r d a sz off (s : State) : exec (.ldVm r d a sz off) s = execLdVm r d a sz off s := rfl
theorem exec_stVm r d a sz off (s : State) : exec (.stVm r d a sz off) s = execStVm r d a sz off s := rfl
theorem exec_ldxVm r d a b sz (s : State) : exec (.ldxVm r d a b sz) s = execLdxVm r d a b sz s := rfl
theorem exec_stxVm r d a b sz (s : State) : exec (.stxVm r d a b sz) s = execStxVm r d a b sz s := rfl
theorem exec_pftVm r a sz off (s : State) : exec (.pftVm r a sz off) s = execPftVm r a sz off s := rfl
theorem exec_amoAdd r d a b (s : State) : exec (.amoAdd r d a b) s = execAmoAdd r d a b s := rfl
theorem exec_amoAnd r d a b (s : State) : exec (.amoAnd r d a b) s = execAmoAnd r d a b s := rfl
theorem exec_amoOr r d a b (s : State) : exec (.amoOr r d a b) s = execAmoOr r d a b s := rfl
theorem exec_amoXor r d a b (s : State) : exec (.amoXor r d a b) s = execAmoXor r d a b s := rfl
theorem exec_amoMin r d a b (s : State) : exec (.amoMin r d a b) s = execAmoMin r d a b s := rfl
theorem exec_amoMax r d a b (s : State) : exec (.amoMax r d a b) s = execAmoMax r d a b s := rfl
theorem exec_amoMinn r d a b (s : State) : exec (.amoMinn r d a b) s = execAmoMinn r d a b s := rfl
theorem exec_amoMaxn r d a b (s : State) : exec (.amoMaxn r d a b) s = execAmoMaxn r d a b s := rfl
theorem exec_amoSwap r d a b (s : State) : exec (.amoSwap r d a b) s = execAmoSwap r d a b s := rfl
theorem exec_cas r d a b (s : State) : exec (.cas r d a b) s = execCas r d a b s := rfl
theorem exec_arm r d a b (s : State) : exec (.arm r d a b) s = execArm r d a b s := rfl
theorem exec_arrv r d a b (s : State) : exec (.arrv r d a b) s = execArrv r d a b s := rfl
theorem exec_await r pd a b (s : State) : exec (.await r pd a b) s = execAwait r pd a b s := rfl
theorem exec_bari r sp a b (s : State) : exec (.bari r sp a b) s = execBari r sp a b s := rfl
theorem exec_bara r sp a c1 drop (s : State) : exec (.bara r sp a c1 drop) s = execBara r sp a c1 drop s := rfl
theorem exec_barw r pd a b (s : State) : exec (.barw r pd a b) s = execBarw r pd a b s := rfl
theorem exec_seal r a (s : State) : exec (.seal r a) s = execSeal r a s := rfl
theorem exec_unseal r a (s : State) : exec (.unseal r a) s = execUnseal r a s := rfl
theorem exec_fence r sc (s : State) : exec (.fence r sc) s = execFence r sc s := rfl
theorem exec_csrr r g csr (s : State) : exec (.csrr r g csr) s = execCsrr r g csr s := rfl
theorem exec_csrw r g csr (s : State) : exec (.csrw r g csr) s = execCsrw r g csr s := rfl
theorem exec_csrs r g csr (s : State) : exec (.csrs r g csr) s = execCsrs r g csr s := rfl
theorem exec_csrc r g csr (s : State) : exec (.csrc r g csr) s = execCsrc r g csr s := rfl
theorem exec_time r g (s : State) : exec (.time r g) s = execTime r g s := rfl
theorem exec_view r vd a (s : State) : exec (.view r vd a) s = execView r vd a s := rfl
theorem exec_tdesc r d a b (s : State) : exec (.tdesc r d a b) s = execTdesc r d a b s := rfl
theorem exec_trap r code (s : State) : exec (.trap r code) s = execTrap r code s := rfl
theorem exec_eret r (s : State) : exec (.eret r) s = execEret r s := rfl
theorem exec_token r dir n (s : State) : exec (.token r dir n) s = execToken r dir n s := rfl
theorem exec_twait r dir n (s : State) : exec (.twait r dir n) s = execTwait r dir n s := rfl
theorem exec_launch r d a b (s : State) : exec (.launch r d a b) s = execLaunch r d a b s := rfl
theorem exec_launchCr r d a b (s : State) : exec (.launchCr r d a b) s = execLaunchCr r d a b s := rfl
theorem exec_cancelTask r d a b (s : State) : exec (.cancelTask r d a b) s = execCancelTask r d a b s := rfl
theorem exec_cancelLaunch r d a (s : State) : exec (.cancelLaunch r d a) s = execCancelLaunch r d a s := rfl
theorem exec_cancelGraph r d a (s : State) : exec (.cancelGraph r d a) s = execCancelGraph r d a s := rfl
theorem exec_cancelPhase r d a (s : State) : exec (.cancelPhase r d a) s = execCancelPhase r d a s := rfl
theorem exec_cancelJob r d a (s : State) : exec (.cancelJob r d a) s = execCancelJob r d a s := rfl
theorem exec_phase r d (s : State) : exec (.phase r d) s = execPhase r d s := rfl
theorem exec_ckpt r d (s : State) : exec (.ckpt r d) s = execCkpt r d s := rfl
theorem exec_estim r a (s : State) : exec (.estim r a) s = execEstim r a s := rfl
theorem exec_clstep r d a b (s : State) : exec (.clstep r d a b) s = execClstep r d a b s := rfl
theorem exec_clwait r pd a b (s : State) : exec (.clwait r pd a b) s = execClwait r pd a b s := rfl
theorem exec_mulw r d a b (s : State) : exec (.mulw r d a b) s = execMulw r d a b s := rfl
theorem exec_dictionaryCode e ix (s : State) : exec (.dictionaryCode e ix) s = execDictionaryCode e ix s := rfl
theorem exec_vadd r t e vd va vb (s : State) : exec (.vadd r t e vd va vb) s = execVadd r t e vd va vb s := rfl
theorem exec_vsub r t e vd va vb (s : State) : exec (.vsub r t e vd va vb) s = execVsub r t e vd va vb s := rfl
theorem exec_vmul r t e vd va vb (s : State) : exec (.vmul r t e vd va vb) s = execVmul r t e vd va vb s := rfl
theorem exec_vmin r t e vd va vb (s : State) : exec (.vmin r t e vd va vb) s = execVmin r t e vd va vb s := rfl
theorem exec_vmax r t e vd va vb (s : State) : exec (.vmax r t e vd va vb) s = execVmax r t e vd va vb s := rfl
theorem exec_vdiv r t e vd va vb (s : State) : exec (.vdiv r t e vd va vb) s = execVdiv r t e vd va vb s := rfl
theorem exec_vfmaF32F64 r vd e va vb vc t (s : State) : exec (.vfmaF32F64 r vd e va vb vc t) s = execVfmaF32F64 r vd e va vb vc t s := rfl
theorem exec_vfmaBf16F16 r vd e va vb vc t (s : State) : exec (.vfmaBf16F16 r vd e va vb vc t) s = execVfmaBf16F16 r vd e va vb vc t s := rfl
theorem exec_vfmsF32F64 r vd e va vb vc t (s : State) : exec (.vfmsF32F64 r vd e va vb vc t) s = execVfmsF32F64 r vd e va vb vc t s := rfl
theorem exec_vfmsBf16F16 r vd e va vb vc t (s : State) : exec (.vfmsBf16F16 r vd e va vb vc t) s = execVfmsBf16F16 r vd e va vb vc t s := rfl
theorem exec_vfnmaF32F64 r vd e va vb vc t (s : State) : exec (.vfnmaF32F64 r vd e va vb vc t) s = execVfnmaF32F64 r vd e va vb vc t s := rfl
theorem exec_vfnmaBf16F16 r vd e va vb vc t (s : State) : exec (.vfnmaBf16F16 r vd e va vb vc t) s = execVfnmaBf16F16 r vd e va vb vc t s := rfl
theorem exec_vabs r t e vd va (s : State) : exec (.vabs r t e vd va) s = execVabs r t e vd va s := rfl
theorem exec_vneg r t e vd va (s : State) : exec (.vneg r t e vd va) s = execVneg r t e vd va s := rfl
theorem exec_vsqrt r t e vd va (s : State) : exec (.vsqrt r t e vd va) s = execVsqrt r t e vd va s := rfl
theorem exec_vrcp r t e vd va (s : State) : exec (.vrcp r t e vd va) s = execVrcp r t e vd va s := rfl
theorem exec_vrsq r t e vd va (s : State) : exec (.vrsq r t e vd va) s = execVrsq r t e vd va s := rfl
theorem exec_vexp2 r t e vd va (s : State) : exec (.vexp2 r t e vd va) s = execVexp2 r t e vd va s := rfl
theorem exec_vlog2 r t e vd va (s : State) : exec (.vlog2 r t e vd va) s = execVlog2 r t e vd va s := rfl
theorem exec_vscale r t e vd va vb (s : State) : exec (.vscale r t e vd va vb) s = execVscale r t e vd va vb s := rfl
theorem exec_vand r e vd va vb (s : State) : exec (.vand r e vd va vb) s = execVand r e vd va vb s := rfl
theorem exec_vor r e vd va vb (s : State) : exec (.vor r e vd va vb) s = execVor r e vd va vb s := rfl
theorem exec_vxor r e vd va vb (s : State) : exec (.vxor r e vd va vb) s = execVxor r e vd va vb s := rfl
theorem exec_vsll r t e vd va vb (s : State) : exec (.vsll r t e vd va vb) s = execVsll r t e vd va vb s := rfl
theorem exec_vsrl r t e vd va vb (s : State) : exec (.vsrl r t e vd va vb) s = execVsrl r t e vd va vb s := rfl
theorem exec_vsra r t e vd va vb (s : State) : exec (.vsra r t e vd va vb) s = execVsra r t e vd va vb s := rfl
theorem exec_vmulh r t e vd va vb (s : State) : exec (.vmulh r t e vd va vb) s = execVmulh r t e vd va vb s := rfl
theorem exec_vadds r t e vd va vb (s : State) : exec (.vadds r t e vd va vb) s = execVadds r t e vd va vb s := rfl
theorem exec_vsubs r t e vd va vb (s : State) : exec (.vsubs r t e vd va vb) s = execVsubs r t e vd va vb s := rfl
theorem exec_vcmp r md cond va vb t (s : State) : exec (.vcmp r md cond va vb t) s = execVcmp r md cond va vb t s := rfl
theorem exec_vsel r e vd va vb (s : State) : exec (.vsel r e vd va vb) s = execVsel r e vd va vb s := rfl
theorem exec_vclass r md va set t (s : State) : exec (.vclass r md va set t) s = execVclass r md va set t s := rfl
theorem exec_vcvt r vd vp e fs fd (s : State) : exec (.vcvt r vd vp e fs fd) s = execVcvt r vd vp e fs fd s := rfl
theorem exec_vpack r vd vp e fs fd (s : State) : exec (.vpack r vd vp e fs fd) s = execVpack r vd vp e fs fd s := rfl
theorem exec_vunpk r vd vp fs fd (s : State) : exec (.vunpk r vd vp fs fd) s = execVunpk r vd vp fs fd s := rfl
theorem exec_vmov r e vd va (s : State) : exec (.vmov r e vd va) s = execVmov r e vd va s := rfl
theorem exec_vbcast r t e vd sx (s : State) : exec (.vbcast r t e vd sx) s = execVbcast r t e vd sx s := rfl
theorem exec_vext r t sd va sx (s : State) : exec (.vext r t sd va sx) s = execVext r t sd va sx s := rfl
theorem exec_vins r t e vd va sx (s : State) : exec (.vins r t e vd va sx) s = execVins r t e vd va sx s := rfl
theorem exec_vperm r t e vd va vb (s : State) : exec (.vperm r t e vd va vb) s = execVperm r t e vd va vb s := rfl
theorem exec_vrotDn r t e vd va sx (s : State) : exec (.vrotDn r t e vd va sx) s = execVrotDn r t e vd va sx s := rfl
theorem exec_vrotUp r t e vd va sx (s : State) : exec (.vrotUp r t e vd va sx) s = execVrotUp r t e vd va sx s := rfl
theorem exec_vslideDn r t e vd va sx (s : State) : exec (.vslideDn r t e vd va sx) s = execVslideDn r t e vd va sx s := rfl
theorem exec_vslideUp r t e vd va sx (s : State) : exec (.vslideUp r t e vd va sx) s = execVslideUp r t e vd va sx s := rfl
theorem exec_vredSum r t e vd va (s : State) : exec (.vredSum r t e vd va) s = execVredSum r t e vd va s := rfl
theorem exec_vredMin r t e vd va (s : State) : exec (.vredMin r t e vd va) s = execVredMin r t e vd va s := rfl
theorem exec_vredMax r t e vd va (s : State) : exec (.vredMax r t e vd va) s = execVredMax r t e vd va s := rfl
theorem exec_vscanSum r t e vd va (s : State) : exec (.vscanSum r t e vd va) s = execVscanSum r t e vd va s := rfl
theorem exec_vscanMin r t e vd va (s : State) : exec (.vscanMin r t e vd va) s = execVscanMin r t e vd va s := rfl
theorem exec_vscanMax r t e vd va (s : State) : exec (.vscanMax r t e vd va) s = execVscanMax r t e vd va s := rfl
theorem exec_vld r e vd sa sb sp (s : State) : exec (.vld r e vd sa sb sp) s = execVld r e vd sa sb sp s := rfl
theorem exec_vst r vd sa sb sp (s : State) : exec (.vst r vd sa sb sp) s = execVst r vd sa sb sp s := rfl
theorem exec_vlds r t e vd sa sb sp (s : State) : exec (.vlds r t e vd sa sb sp) s = execVlds r t e vd sa sb sp s := rfl
theorem exec_vsts r t vd sa sb sp (s : State) : exec (.vsts r t vd sa sb sp) s = execVsts r t vd sa sb sp s := rfl
theorem exec_vgath r t e vd va sa (s : State) : exec (.vgath r t e vd va sa) s = execVgath r t e vd va sa s := rfl
theorem exec_vscat r t vd va sa (s : State) : exec (.vscat r t vd va sa) s = execVscat r t vd va sa s := rfl
theorem exec_vlut r t e vd va sa (s : State) : exec (.vlut r t e vd va sa) s = execVlut r t e vd va sa s := rfl
theorem exec_vbfx r t e vd va vb (s : State) : exec (.vbfx r t e vd va vb) s = execVbfx r t e vd va vb s := rfl
theorem exec_vfsh r t e vd va vb (s : State) : exec (.vfsh r t e vd va vb) s = execVfsh r t e vd va vb s := rfl
theorem exec_vpopc r t e vd va (s : State) : exec (.vpopc r t e vd va) s = execVpopc r t e vd va s := rfl
theorem exec_vclz r t e vd va (s : State) : exec (.vclz r t e vd va) s = execVclz r t e vd va s := rfl
theorem exec_vqnt r t e vd va sx g (s : State) : exec (.vqnt r t e vd va sx g) s = execVqnt r t e vd va sx g s := rfl
theorem exec_vdqnt r t e vd va sx g (s : State) : exec (.vdqnt r t e vd va sx g) s = execVdqnt r t e vd va sx g s := rfl
theorem exec_vmsel r mk (s : State) : exec (.vmsel r mk) s = execVmsel r mk s := rfl
theorem exec_vnop r (s : State) : exec (.vnop r) s = execVnop r s := rfl
theorem exec_vJoin r k (s : State) : exec (.vJoin r k) s = execVJoin r k s := rfl
theorem exec_vExit r (s : State) : exec (.vExit r) s = execVExit r s := rfl
theorem exec_mma r acc ta tb z w (s : State) : exec (.mma r acc ta tb z w) s = execMma r acc ta tb z w s := rfl
theorem exec_mmai r acc ta tb z w g sx (s : State) : exec (.mmai r acc ta tb z w g sx) s = execMmai r acc ta tb z w g sx s := rfl
theorem exec_mmax r acc ta tb z w g sx (s : State) : exec (.mmax r acc ta tb z w g sx) s = execMmax r acc ta tb z w g sx s := rfl
theorem exec_aclr r x (s : State) : exec (.aclr r x) s = execAclr r x s := rfl
theorem exec_aadd r x y z (s : State) : exec (.aadd r x y z) s = execAadd r x y z s := rfl
theorem exec_ald r x y (s : State) : exec (.ald r x y) s = execAld r x y s := rfl
theorem exec_ast r x y tr (s : State) : exec (.ast r x y tr) s = execAst r x y tr s := rfl
theorem exec_acvt r x y sat scl sx (s : State) : exec (.acvt r x y sat scl sx) s = execAcvt r x y sat scl sx s := rfl
theorem exec_tld r x sx (s : State) : exec (.tld r x sx) s = execTld r x sx s := rfl
theorem exec_tst r x y sat (s : State) : exec (.tst r x y sat) s = execTst r x y sat s := rfl
theorem exec_ttr r x y (s : State) : exec (.ttr r x y) s = execTtr r x y s := rfl
theorem exec_trepk r x y (s : State) : exec (.trepk r x y) s = execTrepk r x y s := rfl
theorem exec_trepkPk r x y (s : State) : exec (.trepkPk r x y) s = execTrepkPk r x y s := rfl
theorem exec_mnest r (s : State) : exec (.mnest r) s = execMnest r s := rfl
theorem exec_mwait r (s : State) : exec (.mwait r) s = execMwait r s := rfl
theorem exec_mstat r (s : State) : exec (.mstat r) s = execMstat r s := rfl
theorem exec_mstatClr r (s : State) : exec (.mstatClr r) s = execMstatClr r s := rfl
theorem exec_mnop r (s : State) : exec (.mnop r) s = execMnop r s := rfl
theorem exec_mJoin r k (s : State) : exec (.mJoin r k) s = execMJoin r k s := rfl
theorem exec_mExit r (s : State) : exec (.mExit r) s = execMExit r s := rfl
theorem exec_xcopy r pb pv (s : State) : exec (.xcopy r pb pv) s = execXcopy r pb pv s := rfl
theorem exec_xnestCopy r pb pv (s : State) : exec (.xnestCopy r pb pv) s = execXnestCopy r pb pv s := rfl
theorem exec_xnestAcc r pb pv (s : State) : exec (.xnestAcc r pb pv) s = execXnestAcc r pb pv s := rfl
theorem exec_xnestMcast r pb pv (s : State) : exec (.xnestMcast r pb pv) s = execXnestMcast r pb pv s := rfl
theorem exec_xnestStrm r pb pv (s : State) : exec (.xnestStrm r pb pv) s = execXnestStrm r pb pv s := rfl
theorem exec_xmcast r pb pv (s : State) : exec (.xmcast r pb pv) s = execXmcast r pb pv s := rfl
theorem exec_xacc r pb pv (s : State) : exec (.xacc r pb pv) s = execXacc r pb pv s := rfl
theorem exec_xstrm r pb pv (s : State) : exec (.xstrm r pb pv) s = execXstrm r pb pv s := rfl
theorem exec_xgath r pb ax pv (s : State) : exec (.xgath r pb ax pv) s = execXgath r pb ax pv s := rfl
theorem exec_xwait r n (s : State) : exec (.xwait r n) s = execXwait r n s := rfl
theorem exec_xfence r (s : State) : exec (.xfence r) s = execXfence r s := rfl
theorem exec_xnop r (s : State) : exec (.xnop r) s = execXnop r s := rfl
theorem exec_xJoin r k (s : State) : exec (.xJoin r k) s = execXJoin r k s := rfl
theorem exec_xExit r (s : State) : exec (.xExit r) s = execXExit r s := rfl
theorem exec_resultLanding core e (s : State) : exec (.resultLanding core e) s = execResultLanding core e s := rfl
theorem exec_accumulatorRead core (s : State) : exec (.accumulatorRead core) s = execAccumulatorRead core s := rfl
theorem exec_ringTimeout core e (s : State) : exec (.ringTimeout core e) s = execRingTimeout core e s := rfl
theorem exec_handlerEntry core (s : State) : exec (.handlerEntry core) s = execHandlerEntry core s := rfl
theorem exec_frozenTaskReport core (s : State) : exec (.frozenTaskReport core) s = execFrozenTaskReport core s := rfl
theorem exec_deferredFaultDelivery core e (s : State) : exec (.deferredFaultDelivery core e) s = execDeferredFaultDelivery core e s := rfl
theorem exec_taskEnd core (s : State) : exec (.taskEnd core) s = execTaskEnd core s := rfl
theorem exec_launchAcceptance core (s : State) : exec (.launchAcceptance core) s = execLaunchAcceptance core s := rfl
theorem exec_placement core lid tidx budget (s : State) : exec (.placement core lid tidx budget) s = execPlacement core lid tidx budget s := rfl
theorem exec_ageLevelRise lid tidx (s : State) : exec (.ageLevelRise lid tidx) s = execAgeLevelRise lid tidx s := rfl
theorem exec_preload core (s : State) : exec (.preload core) s = execPreload core s := rfl
theorem exec_withdrawal core (s : State) : exec (.withdrawal core) s = execWithdrawal core s := rfl
theorem exec_bindCommit core (s : State) : exec (.bindCommit core) s = execBindCommit core s := rfl
theorem exec_lateStart lid tidx (s : State) : exec (.lateStart lid tidx) s = execLateStart lid tidx s := rfl
theorem exec_governorWindow core mw (s : State) : exec (.governorWindow core mw) s = execGovernorWindow core mw s := rfl
theorem exec_phaseBoundary ctr (s : State) : exec (.phaseBoundary ctr) s = execPhaseBoundary ctr s := rfl
theorem exec_phaseWatchdog core (s : State) : exec (.phaseWatchdog core) s = execPhaseWatchdog core s := rfl
theorem exec_cancelRelease core (s : State) : exec (.cancelRelease core) s = execCancelRelease core s := rfl
theorem exec_homeAtomic core (s : State) : exec (.homeAtomic core) s = execHomeAtomic core s := rfl
theorem exec_barwBoundExpiry core (s : State) : exec (.barwBoundExpiry core) s = execBarwBoundExpiry core s := rfl
theorem exec_homeControllerAnswer core e (s : State) : exec (.homeControllerAnswer core e) s = execHomeControllerAnswer core e s := rfl
theorem exec_storePerformed core (s : State) : exec (.storePerformed core) s = execStorePerformed core s := rfl
theorem exec_regionCount die idx (s : State) : exec (.regionCount die idx) s = execRegionCount die idx s := rfl
theorem exec_rearmRefire die idx (s : State) : exec (.rearmRefire die idx) s = execRearmRefire die idx s := rfl
theorem exec_awaitBoundExpiry core (s : State) : exec (.awaitBoundExpiry core) s = execAwaitBoundExpiry core s := rfl
theorem exec_generationBump asid (s : State) : exec (.generationBump asid) s = execGenerationBump asid s := rfl
theorem exec_requestReplay core e (s : State) : exec (.requestReplay core e) s = execRequestReplay core e s := rfl
theorem exec_sweepComplete asid (s : State) : exec (.sweepComplete asid) s = execSweepComplete asid s := rfl
theorem exec_sealComplete core (s : State) : exec (.sealComplete core) s = execSealComplete core s := rfl
theorem exec_unsealComplete core (s : State) : exec (.unsealComplete core) s = execUnsealComplete core s := rfl
theorem exec_replicaPlacement die idx lvl tdie (s : State) : exec (.replicaPlacement die idx lvl tdie) s = execReplicaPlacement die idx lvl tdie s := rfl
theorem exec_bankMarkFailing die lvl bank (s : State) : exec (.bankMarkFailing die lvl bank) s = execBankMarkFailing die lvl bank s := rfl
theorem exec_layerFailureNoSpare die lvl bank (s : State) : exec (.layerFailureNoSpare die lvl bank) s = execLayerFailureNoSpare die lvl bank s := rfl
theorem exec_recoveryPoint die lvl (s : State) : exec (.recoveryPoint die lvl) s = execRecoveryPoint die lvl s := rfl
theorem exec_shedComplete die lvl (s : State) : exec (.shedComplete die lvl) s = execShedComplete die lvl s := rfl
theorem exec_patrolScrub die lvl word (s : State) : exec (.patrolScrub die lvl word) s = execPatrolScrub die lvl word s := rfl
theorem exec_parameterBlockRead core (s : State) : exec (.parameterBlockRead core) s = execParameterBlockRead core s := rfl
theorem exec_commandStart core (s : State) : exec (.commandStart core) s = execCommandStart core s := rfl
theorem exec_itemPerformed core slot (s : State) : exec (.itemPerformed core slot) s = execItemPerformed core slot s := rfl
theorem exec_commandComplete core slot (s : State) : exec (.commandComplete core slot) s = execCommandComplete core slot s := rfl
theorem exec_itemFailure core slot (s : State) : exec (.itemFailure core slot) s = execItemFailure core slot s := rfl
theorem exec_errorRecordDrain q (s : State) : exec (.errorRecordDrain q) s = execErrorRecordDrain q s := rfl
theorem exec_nestStepStart core (s : State) : exec (.nestStepStart core) s = execNestStepStart core s := rfl
theorem exec_nestStepWatchdog core (s : State) : exec (.nestStepWatchdog core) s = execNestStepWatchdog core s := rfl
theorem exec_nestComplete core (s : State) : exec (.nestComplete core) s = execNestComplete core s := rfl
theorem exec_preemptionChoice core lid tidx (s : State) : exec (.preemptionChoice core lid tidx) s = execPreemptionChoice core lid tidx s := rfl
theorem exec_checkpointSettle core (s : State) : exec (.checkpointSettle core) s = execCheckpointSettle core s := rfl
theorem exec_checkpointWrite core (s : State) : exec (.checkpointWrite core) s = execCheckpointWrite core s := rfl
theorem exec_saveFaultService core served (s : State) : exec (.saveFaultService core served) s = execSaveFaultService core served s := rfl
theorem exec_checkpointRelease core (s : State) : exec (.checkpointRelease core) s = execCheckpointRelease core s := rfl
theorem exec_hangWatchdog core (s : State) : exec (.hangWatchdog core) s = execHangWatchdog core s := rfl
theorem exec_emergencyCopy lid tidx (s : State) : exec (.emergencyCopy lid tidx) s = execEmergencyCopy lid tidx s := rfl
theorem exec_restore core (s : State) : exec (.restore core) s = execRestore core s := rfl
theorem exec_killAndRerun core (s : State) : exec (.killAndRerun core) s = execKillAndRerun core s := rfl
theorem exec_budgetOverrun core (s : State) : exec (.budgetOverrun core) s = execBudgetOverrun core s := rfl
theorem exec_coreSelfCheckFailure core (s : State) : exec (.coreSelfCheckFailure core) s = execCoreSelfCheckFailure core s := rfl
theorem exec_regrow core (s : State) : exec (.regrow core) s = execRegrow core s := rfl
theorem exec_packageReset (s : State) : exec .packageReset s = execPackageReset s := rfl
theorem exec_packageFreeze (s : State) : exec .packageFreeze s = execPackageFreeze s := rfl
theorem exec_freeze h (s : State) : exec (.freeze h) s = execFreeze h s := rfl
theorem exec_freezeResume (s : State) : exec .freezeResume s = execFreezeResume s := rfl
theorem exec_ptpEventFrame port offset rate (s : State) : exec (.ptpEventFrame port offset rate) s = execPtpEventFrame port offset rate s := rfl
theorem exec_linkTrainingDone port (s : State) : exec (.linkTrainingDone port) s = execLinkTrainingDone port s := rfl
theorem exec_linkLoss port (s : State) : exec (.linkLoss port) s = execLinkLoss port s := rfl
theorem exec_frameReceive port bytes fcsOk (s : State) : exec (.frameReceive port bytes fcsOk) s = execFrameReceive port bytes fcsOk s := rfl
theorem exec_fabricPacketReceive p (s : State) : exec (.fabricPacketReceive p) s = execFabricPacketReceive p s := rfl
theorem exec_fabricAck id cause (s : State) : exec (.fabricAck id cause) s = execFabricAck id cause s := rfl
theorem exec_linkTimeout id (s : State) : exec (.linkTimeout id) s = execLinkTimeout id s := rfl
theorem exec_collectiveStepStart core (s : State) : exec (.collectiveStepStart core) s = execCollectiveStepStart core s := rfl
theorem exec_collectiveStepComplete core (s : State) : exec (.collectiveStepComplete core) s = execCollectiveStepComplete core s := rfl
theorem exec_clwaitBoundExpiry core (s : State) : exec (.clwaitBoundExpiry core) s = execClwaitBoundExpiry core s := rfl
theorem exec_toclLaunch h q pkt (s : State) : exec (.toclLaunch h q pkt) s = execToclLaunch h q pkt s := rfl
theorem exec_toclCancel h lvl id tidx (s : State) : exec (.toclCancel h lvl id tidx) s = execToclCancel h lvl id tidx s := rfl
theorem exec_toclWrite h va bytes (s : State) : exec (.toclWrite h va bytes) s = execToclWrite h va bytes s := rfl
theorem exec_toclRead h va len (s : State) : exec (.toclRead h va len) s = execToclRead h va len s := rfl
theorem exec_regionCreate h die idx w0 w1 w2 w3 w4 (s : State) : exec (.regionCreate h die idx w0 w1 w2 w3 w4) s = execRegionCreate h die idx w0 w1 w2 w3 w4 s := rfl
theorem exec_regionDestroy h die idx (s : State) : exec (.regionDestroy h die idx) s = execRegionDestroy h die idx s := rfl
theorem exec_regionRead h die idx (s : State) : exec (.regionRead h die idx) s = execRegionRead h die idx s := rfl
theorem exec_counterSet h kind n target clk (s : State) : exec (.counterSet h kind n target clk) s = execCounterSet h kind n target clk s := rfl
theorem exec_sessionBind h n asid unbind (s : State) : exec (.sessionBind h n asid unbind) s = execSessionBind h n asid unbind s := rfl
theorem exec_regRead h num (s : State) : exec (.regRead h num) s = execRegRead h num s := rfl
theorem exec_regWrite h num v (s : State) : exec (.regWrite h num v) s = execRegWrite h num v s := rfl
theorem exec_groupSet h g asid devs rank (s : State) : exec (.groupSet h g asid devs rank) s = execGroupSet h g asid devs rank s := rfl
theorem exec_ingestSet h q w0 w1 w2 (s : State) : exec (.ingestSet h q w0 w1 w2) s = execIngestSet h q w0 w1 w2 s := rfl
theorem exec_portSet h port v (s : State) : exec (.portSet h port v) s = execPortSet h port v s := rfl
theorem exec_ruleSet h port rule v (s : State) : exec (.ruleSet h port rule v) s = execRuleSet h port rule v s := rfl
theorem exec_routeSet h dev port (s : State) : exec (.routeSet h dev port) s = execRouteSet h dev port s := rfl
theorem exec_queueSet h q level asid base k cons (s : State) : exec (.queueSet h q level asid base k cons) s = execQueueSet h q level asid base k cons s := rfl
theorem exec_saveSet h asid base size (s : State) : exec (.saveSet h asid base size) s = execSaveSet h asid base size s := rfl
theorem exec_subSet h n w0 w1 w2 w3 w4 (s : State) : exec (.subSet h n w0 w1 w2 w3 w4) s = execSubSet h n w0 w1 w2 w3 w4 s := rfl
theorem exec_trimSet island mv (s : State) : exec (.trimSet island mv) s = execTrimSet island mv s := rfl
theorem exec_clkSet req (s : State) : exec (.clkSet req) s = execClkSet req s := rfl
theorem exec_attest h nonce (s : State) : exec (.attest h nonce) s = execAttest h nonce s := rfl
theorem exec_fwStage h r (s : State) : exec (.fwStage h r) s = execFwStage h r s := rfl
theorem exec_fwCommit h (s : State) : exec (.fwCommit h) s = execFwCommit h s := rfl
theorem exec_handoverReady (s : State) : exec .handoverReady s = execHandoverReady s := rfl
theorem exec_handoverTimeout (s : State) : exec .handoverTimeout s = execHandoverTimeout s := rfl
theorem exec_sensorSample n v (s : State) : exec (.sensorSample n v) s = execSensorSample n v s := rfl
theorem exec_holdTimerExpiry core (s : State) : exec (.holdTimerExpiry core) s = execHoldTimerExpiry core s := rfl
theorem exec_wakeRequest core (s : State) : exec (.wakeRequest core) s = execWakeRequest core s := rfl
theorem exec_wakeAdmit die (s : State) : exec (.wakeAdmit die) s = execWakeAdmit die s := rfl
theorem exec_wakeRampDone core parityOk (s : State) : exec (.wakeRampDone core parityOk) s = execWakeRampDone core parityOk s := rfl
theorem exec_encodingFault core e (s : State) : exec (.encodingFault core e) s = execEncodingFault core e s := rfl
theorem exec_instructionFetchFault core e (s : State) : exec (.instructionFetchFault core e) s = execInstructionFetchFault core e s := rfl
theorem exec_parkedRecordWrite die ix core rec (s : State) : exec (.parkedRecordWrite die ix core rec) s = execParkedRecordWrite die ix core rec s := rfl

end Sys2Proof.Machine
end

