-- ==== Sys2Proof/Laws/State.lean ====
section
/-!
SUPPORT. Laws/State.lean: one lemma per field per update of the state and of a context, and what a core, a context or a stream
reads as after an update.
-/
namespace Sys2Proof

/-! ### Finite maps -/

theorem FMap.del_ins_self {α : Type} (m : FMap α) (k : Nat) (v : α) : (m.ins k v).del k = m.del k := by
  induction m with
  | nil => simp [FMap.ins, FMap.del]
  | cons p t ih =>
    obtain ⟨a, b⟩ := p
    by_cases h : k < a
    · simp [FMap.ins, h, FMap.del]
    · by_cases ha : a = k <;> simp [FMap.ins, h, FMap.del, ih, ha]

theorem FMap.del_del {α : Type} (m : FMap α) (k : Nat) : (m.del k).del k = m.del k := by
  induction m with
  | nil => rfl
  | cons p t ih =>
    obtain ⟨a, b⟩ := p
    by_cases ha : a = k <;> simp [FMap.del, ih, ha]

@[simp] theorem FMap.set_set {α : Type} (m : FMap α) (k : Nat) (v w : α) : (m.set k v).set k w = m.set k w := by
  simp [FMap.set, FMap.del_ins_self, FMap.del_del]

theorem FMap.get?_del_same {α : Type} (m : FMap α) (k : Nat) : (m.del k).get? k = none := by
  induction m with
  | nil => rfl
  | cons p t ih =>
    obtain ⟨a, b⟩ := p
    by_cases ha : a = k <;> simp [FMap.del, ih, ha, FMap.get?]

theorem FMap.get?_del_other {α : Type} (m : FMap α) (k j : Nat) (h : j ≠ k) : (m.del k).get? j = m.get? j := by
  induction m with
  | nil => rfl
  | cons p t ih =>
    obtain ⟨a, b⟩ := p
    by_cases ha : a = k
    · subst ha; simp [FMap.del, FMap.get?, ih, Ne.symm h]
    · by_cases hj : a = j
      · subst hj; simp [FMap.del, FMap.get?, ha]
      · simp [FMap.del, FMap.get?, ih, ha, hj]

theorem FMap.get?_ins_same {α : Type} (m : FMap α) (k : Nat) (v : α) (h : m.get? k = none) : (m.ins k v).get? k = some v := by
  induction m with
  | nil => simp [FMap.ins, FMap.get?]
  | cons p t ih =>
    obtain ⟨a, b⟩ := p
    simp only [FMap.get?] at h
    by_cases ha : a = k
    · simp [ha] at h
    · simp only [ha, if_false] at h
      by_cases hl : k < a <;> simp [FMap.ins, hl, FMap.get?, ha, ih h]

theorem FMap.get?_ins_other {α : Type} (m : FMap α) (k j : Nat) (v : α) (h : j ≠ k) : (m.ins k v).get? j = m.get? j := by
  induction m with
  | nil => simp [FMap.ins, FMap.get?, Ne.symm h]
  | cons p t ih =>
    obtain ⟨a, b⟩ := p
    by_cases hl : k < a
    · simp [FMap.ins, hl, FMap.get?, Ne.symm h]
    · by_cases ha : a = j
      · subst ha; simp [FMap.ins, hl, FMap.get?]
      · simp [FMap.ins, hl, FMap.get?, ha, ih]

@[simp] theorem FMap.get?_set_same {α : Type} (m : FMap α) (k : Nat) (v : α) : (m.set k v).get? k = some v :=
  FMap.get?_ins_same _ _ _ (FMap.get?_del_same m k)

theorem FMap.get?_set_other {α : Type} (m : FMap α) (k j : Nat) (v : α) (h : j ≠ k) : (m.set k v).get? j = m.get? j := by
  simp [FMap.set, FMap.get?_ins_other _ _ _ _ h, FMap.get?_del_other _ _ _ h]

theorem FMap.getD_eq {α : Type} (m : FMap α) (k : Nat) (d : α) : m.getD k d = (m.get? k).getD d := by
  induction m with
  | nil => rfl
  | cons p t ih =>
    obtain ⟨a, b⟩ := p
    by_cases ha : a = k <;> simp [FMap.getD, FMap.get?, ha, ih]

@[simp] theorem FMap.getD_put_same {α : Type} [DecidableEq α] (m : FMap α) (k : Nat) (v d : α) : (m.put k v d).getD k d = v := by
  by_cases h : v = d
  · simp [FMap.put, h, FMap.getD_eq, FMap.get?_del_same]
  · simp [FMap.put, h, FMap.getD_eq, FMap.get?_ins_same _ _ _ (FMap.get?_del_same m k)]

theorem FMap.getD_put_other {α : Type} [DecidableEq α] (m : FMap α) (k j : Nat) (v d e : α) (h : j ≠ k) :
    (m.put k v d).getD j e = m.getD j e := by
  by_cases hv : v = d
  · simp [FMap.put, hv, FMap.getD_eq, FMap.get?_del_other _ _ _ h]
  · simp [FMap.put, hv, FMap.getD_eq, FMap.get?_ins_other _ _ _ _ h, FMap.get?_del_other _ _ _ h]

namespace Machine

/-! ### The state under updates of a core -/

@[simp] theorem State.setCore_cycle (s : State) (c : CoreId) (k : Core) : (s.setCore c k).cycle = s.cycle := rfl
@[simp] theorem State.setCore_devTime (s : State) (c : CoreId) (k : Core) : (s.setCore c k).devTime = s.devTime := rfl
@[simp] theorem State.setCore_devFrac (s : State) (c : CoreId) (k : Core) : (s.setCore c k).devFrac = s.devFrac := rfl
@[simp] theorem State.setCore_t2 (s : State) (c : CoreId) (k : Core) : (s.setCore c k).t2 = s.t2 := rfl
@[simp] theorem State.setCore_t2bad (s : State) (c : CoreId) (k : Core) : (s.setCore c k).t2bad = s.t2bad := rfl
@[simp] theorem State.setCore_mem (s : State) (c : CoreId) (k : Core) : (s.setCore c k).mem = s.mem := rfl
@[simp] theorem State.setCore_bad (s : State) (c : CoreId) (k : Core) : (s.setCore c k).bad = s.bad := rfl
@[simp] theorem State.setCore_regions (s : State) (c : CoreId) (k : Core) : (s.setCore c k).regions = s.regions := rfl
@[simp] theorem State.setCore_counts (s : State) (c : CoreId) (k : Core) : (s.setCore c k).counts = s.counts := rfl
@[simp] theorem State.setCore_wid (s : State) (c : CoreId) (k : Core) : (s.setCore c k).wid = s.wid := rfl
@[simp] theorem State.setCore_unacked (s : State) (c : CoreId) (k : Core) : (s.setCore c k).unacked = s.unacked := rfl
@[simp] theorem State.setCore_homeQ (s : State) (c : CoreId) (k : Core) : (s.setCore c k).homeQ = s.homeQ := rfl
@[simp] theorem State.setCore_etlb (s : State) (c : CoreId) (k : Core) : (s.setCore c k).etlb = s.etlb := rfl
@[simp] theorem State.setCore_refire (s : State) (c : CoreId) (k : Core) : (s.setCore c k).refire = s.refire := rfl
@[simp] theorem State.setCore_replicas (s : State) (c : CoreId) (k : Core) : (s.setCore c k).replicas = s.replicas := rfl
@[simp] theorem State.setCore_graphs (s : State) (c : CoreId) (k : Core) : (s.setCore c k).graphs = s.graphs := rfl
@[simp] theorem State.setCore_jobs (s : State) (c : CoreId) (k : Core) : (s.setCore c k).jobs = s.jobs := rfl
@[simp] theorem State.setCore_phases (s : State) (c : CoreId) (k : Core) : (s.setCore c k).phases = s.phases := rfl
@[simp] theorem State.setCore_queues (s : State) (c : CoreId) (k : Core) : (s.setCore c k).queues = s.queues := rfl
@[simp] theorem State.setCore_launches (s : State) (c : CoreId) (k : Core) : (s.setCore c k).launches = s.launches := rfl
@[simp] theorem State.setCore_nextLid (s : State) (c : CoreId) (k : Core) : (s.setCore c k).nextLid = s.nextLid := rfl
@[simp] theorem State.setCore_budgets (s : State) (c : CoreId) (k : Core) : (s.setCore c k).budgets = s.budgets := rfl
@[simp] theorem State.setCore_images (s : State) (c : CoreId) (k : Core) : (s.setCore c k).images = s.images := rfl
@[simp] theorem State.setCore_spaces (s : State) (c : CoreId) (k : Core) : (s.setCore c k).spaces = s.spaces := rfl
@[simp] theorem State.setCore_parked (s : State) (c : CoreId) (k : Core) : (s.setCore c k).parked = s.parked := rfl
@[simp] theorem State.setCore_parkedGo (s : State) (c : CoreId) (k : Core) : (s.setCore c k).parkedGo = s.parkedGo := rfl
@[simp] theorem State.setCore_out (s : State) (c : CoreId) (k : Core) : (s.setCore c k).out = s.out := rfl
@[simp] theorem State.setCore_toclCancels (s : State) (c : CoreId) (k : Core) : (s.setCore c k).toclCancels = s.toclCancels := rfl
@[simp] theorem State.setCore_mgmt (s : State) (c : CoreId) (k : Core) : (s.setCore c k).mgmt = s.mgmt := rfl
@[simp] theorem State.setCore_ports (s : State) (c : CoreId) (k : Core) : (s.setCore c k).ports = s.ports := rfl
@[simp] theorem State.setCore_ingest (s : State) (c : CoreId) (k : Core) : (s.setCore c k).ingest = s.ingest := rfl
@[simp] theorem State.setCore_subs (s : State) (c : CoreId) (k : Core) : (s.setCore c k).subs = s.subs := rfl
@[simp] theorem State.setCore_groups (s : State) (c : CoreId) (k : Core) : (s.setCore c k).groups = s.groups := rfl
@[simp] theorem State.setCore_devId (s : State) (c : CoreId) (k : Core) : (s.setCore c k).devId = s.devId := rfl
@[simp] theorem State.setCore_routes (s : State) (c : CoreId) (k : Core) : (s.setCore c k).routes = s.routes := rfl
@[simp] theorem State.setCore_recvs (s : State) (c : CoreId) (k : Core) : (s.setCore c k).recvs = s.recvs := rfl
@[simp] theorem State.setCore_outPkts (s : State) (c : CoreId) (k : Core) : (s.setCore c k).outPkts = s.outPkts := rfl
@[simp] theorem State.setCore_staged (s : State) (c : CoreId) (k : Core) : (s.setCore c k).staged = s.staged := rfl
@[simp] theorem State.setCore_seenPkts (s : State) (c : CoreId) (k : Core) : (s.setCore c k).seenPkts = s.seenPkts := rfl
@[simp] theorem State.setCore_doneSends (s : State) (c : CoreId) (k : Core) : (s.setCore c k).doneSends = s.doneSends := rfl
@[simp] theorem State.setCore_collFails (s : State) (c : CoreId) (k : Core) : (s.setCore c k).collFails = s.collFails := rfl
@[simp] theorem State.setCore_forwarded (s : State) (c : CoreId) (k : Core) : (s.setCore c k).forwarded = s.forwarded := rfl
@[simp] theorem State.setCore_pktId (s : State) (c : CoreId) (k : Core) : (s.setCore c k).pktId = s.pktId := rfl
@[simp] theorem State.setCore_acks (s : State) (c : CoreId) (k : Core) : (s.setCore c k).acks = s.acks := rfl
@[simp] theorem State.setCore_sessions (s : State) (c : CoreId) (k : Core) : (s.setCore c k).sessions = s.sessions := rfl
@[simp] theorem State.setCore_ctlSeq (s : State) (c : CoreId) (k : Core) : (s.setCore c k).ctlSeq = s.ctlSeq := rfl
@[simp] theorem State.setCore_layers (s : State) (c : CoreId) (k : Core) : (s.setCore c k).layers = s.layers := rfl
@[simp] theorem State.setCore_deadBanks (s : State) (c : CoreId) (k : Core) : (s.setCore c k).deadBanks = s.deadBanks := rfl
@[simp] theorem State.setCore_failing (s : State) (c : CoreId) (k : Core) : (s.setCore c k).failing = s.failing := rfl
@[simp] theorem State.setCore_sparedGroups (s : State) (c : CoreId) (k : Core) : (s.setCore c k).sparedGroups = s.sparedGroups := rfl
@[simp] theorem State.setCore_corrected (s : State) (c : CoreId) (k : Core) : (s.setCore c k).corrected = s.corrected := rfl
@[simp] theorem State.setCore_lpCorrected (s : State) (c : CoreId) (k : Core) : (s.setCore c k).lpCorrected = s.lpCorrected := rfl
@[simp] theorem State.setCore_spares (s : State) (c : CoreId) (k : Core) : (s.setCore c k).spares = s.spares := rfl
@[simp] theorem State.setCore_emergUsed (s : State) (c : CoreId) (k : Core) : (s.setCore c k).emergUsed = s.emergUsed := rfl
@[simp] theorem State.setCore_trims (s : State) (c : CoreId) (k : Core) : (s.setCore c k).trims = s.trims := rfl
@[simp] theorem State.setCore_trimGoal (s : State) (c : CoreId) (k : Core) : (s.setCore c k).trimGoal = s.trimGoal := rfl
@[simp] theorem State.setCore_sampled (s : State) (c : CoreId) (k : Core) : (s.setCore c k).sampled = s.sampled := rfl
@[simp] theorem State.setCore_arbiter (s : State) (c : CoreId) (k : Core) : (s.setCore c k).arbiter = s.arbiter := rfl
@[simp] theorem State.setCore_bootFail (s : State) (c : CoreId) (k : Core) : (s.setCore c k).bootFail = s.bootFail := rfl
@[simp] theorem State.setCore_bootFinds (s : State) (c : CoreId) (k : Core) : (s.setCore c k).bootFinds = s.bootFinds := rfl
@[simp] theorem State.setCore_flashRecs (s : State) (c : CoreId) (k : Core) : (s.setCore c k).flashRecs = s.flashRecs := rfl
@[simp] theorem State.setCore_fwSlots (s : State) (c : CoreId) (k : Core) : (s.setCore c k).fwSlots = s.fwSlots := rfl
@[simp] theorem State.setCore_fwActive (s : State) (c : CoreId) (k : Core) : (s.setCore c k).fwActive = s.fwActive := rfl
@[simp] theorem State.setCore_fwStage (s : State) (c : CoreId) (k : Core) : (s.setCore c k).fwStage = s.fwStage := rfl
@[simp] theorem State.setCore_fwMin (s : State) (c : CoreId) (k : Core) : (s.setCore c k).fwMin = s.fwMin := rfl
@[simp] theorem State.setCore_attLog (s : State) (c : CoreId) (k : Core) : (s.setCore c k).attLog = s.attLog := rfl
@[simp] theorem State.setCore_frozen (s : State) (c : CoreId) (k : Core) : (s.setCore c k).frozen = s.frozen := rfl
@[simp] theorem State.setCore_tocHeld (s : State) (c : CoreId) (k : Core) : (s.setCore c k).tocHeld = s.tocHeld := rfl
@[simp] theorem State.setCore_agenda (s : State) (c : CoreId) (k : Core) : (s.setCore c k).agenda = s.agenda := rfl
@[simp] theorem State.setCore_sched (s : State) (c : CoreId) (k : Core) : (s.setCore c k).sched = s.sched := rfl
@[simp] theorem State.setCore_cur (s : State) (c : CoreId) (k : Core) : (s.setCore c k).cur = s.cur := rfl
@[simp] theorem State.setCore_memHold (s : State) (c : CoreId) (k : Core) : (s.setCore c k).memHold = s.memHold := rfl
@[simp] theorem State.setCore_freeCtr (s : State) (c : CoreId) (k : Core) : (s.setCore c k).freeCtr = s.freeCtr := rfl
@[simp] theorem State.modCore_cycle (s : State) (c : CoreId) (f : Core → Core) : (s.modCore c f).cycle = s.cycle := rfl
@[simp] theorem State.modCore_devTime (s : State) (c : CoreId) (f : Core → Core) : (s.modCore c f).devTime = s.devTime := rfl
@[simp] theorem State.modCore_devFrac (s : State) (c : CoreId) (f : Core → Core) : (s.modCore c f).devFrac = s.devFrac := rfl
@[simp] theorem State.modCore_t2 (s : State) (c : CoreId) (f : Core → Core) : (s.modCore c f).t2 = s.t2 := rfl
@[simp] theorem State.modCore_t2bad (s : State) (c : CoreId) (f : Core → Core) : (s.modCore c f).t2bad = s.t2bad := rfl
@[simp] theorem State.modCore_mem (s : State) (c : CoreId) (f : Core → Core) : (s.modCore c f).mem = s.mem := rfl
@[simp] theorem State.modCore_bad (s : State) (c : CoreId) (f : Core → Core) : (s.modCore c f).bad = s.bad := rfl
@[simp] theorem State.modCore_regions (s : State) (c : CoreId) (f : Core → Core) : (s.modCore c f).regions = s.regions := rfl
@[simp] theorem State.modCore_counts (s : State) (c : CoreId) (f : Core → Core) : (s.modCore c f).counts = s.counts := rfl
@[simp] theorem State.modCore_wid (s : State) (c : CoreId) (f : Core → Core) : (s.modCore c f).wid = s.wid := rfl
@[simp] theorem State.modCore_unacked (s : State) (c : CoreId) (f : Core → Core) : (s.modCore c f).unacked = s.unacked := rfl
@[simp] theorem State.modCore_homeQ (s : State) (c : CoreId) (f : Core → Core) : (s.modCore c f).homeQ = s.homeQ := rfl
@[simp] theorem State.modCore_etlb (s : State) (c : CoreId) (f : Core → Core) : (s.modCore c f).etlb = s.etlb := rfl
@[simp] theorem State.modCore_refire (s : State) (c : CoreId) (f : Core → Core) : (s.modCore c f).refire = s.refire := rfl
@[simp] theorem State.modCore_replicas (s : State) (c : CoreId) (f : Core → Core) : (s.modCore c f).replicas = s.replicas := rfl
@[simp] theorem State.modCore_graphs (s : State) (c : CoreId) (f : Core → Core) : (s.modCore c f).graphs = s.graphs := rfl
@[simp] theorem State.modCore_jobs (s : State) (c : CoreId) (f : Core → Core) : (s.modCore c f).jobs = s.jobs := rfl
@[simp] theorem State.modCore_phases (s : State) (c : CoreId) (f : Core → Core) : (s.modCore c f).phases = s.phases := rfl
@[simp] theorem State.modCore_queues (s : State) (c : CoreId) (f : Core → Core) : (s.modCore c f).queues = s.queues := rfl
@[simp] theorem State.modCore_launches (s : State) (c : CoreId) (f : Core → Core) : (s.modCore c f).launches = s.launches := rfl
@[simp] theorem State.modCore_nextLid (s : State) (c : CoreId) (f : Core → Core) : (s.modCore c f).nextLid = s.nextLid := rfl
@[simp] theorem State.modCore_budgets (s : State) (c : CoreId) (f : Core → Core) : (s.modCore c f).budgets = s.budgets := rfl
@[simp] theorem State.modCore_images (s : State) (c : CoreId) (f : Core → Core) : (s.modCore c f).images = s.images := rfl
@[simp] theorem State.modCore_spaces (s : State) (c : CoreId) (f : Core → Core) : (s.modCore c f).spaces = s.spaces := rfl
@[simp] theorem State.modCore_parked (s : State) (c : CoreId) (f : Core → Core) : (s.modCore c f).parked = s.parked := rfl
@[simp] theorem State.modCore_parkedGo (s : State) (c : CoreId) (f : Core → Core) : (s.modCore c f).parkedGo = s.parkedGo := rfl
@[simp] theorem State.modCore_out (s : State) (c : CoreId) (f : Core → Core) : (s.modCore c f).out = s.out := rfl
@[simp] theorem State.modCore_toclCancels (s : State) (c : CoreId) (f : Core → Core) : (s.modCore c f).toclCancels = s.toclCancels := rfl
@[simp] theorem State.modCore_mgmt (s : State) (c : CoreId) (f : Core → Core) : (s.modCore c f).mgmt = s.mgmt := rfl
@[simp] theorem State.modCore_ports (s : State) (c : CoreId) (f : Core → Core) : (s.modCore c f).ports = s.ports := rfl
@[simp] theorem State.modCore_ingest (s : State) (c : CoreId) (f : Core → Core) : (s.modCore c f).ingest = s.ingest := rfl
@[simp] theorem State.modCore_subs (s : State) (c : CoreId) (f : Core → Core) : (s.modCore c f).subs = s.subs := rfl
@[simp] theorem State.modCore_groups (s : State) (c : CoreId) (f : Core → Core) : (s.modCore c f).groups = s.groups := rfl
@[simp] theorem State.modCore_devId (s : State) (c : CoreId) (f : Core → Core) : (s.modCore c f).devId = s.devId := rfl
@[simp] theorem State.modCore_routes (s : State) (c : CoreId) (f : Core → Core) : (s.modCore c f).routes = s.routes := rfl
@[simp] theorem State.modCore_recvs (s : State) (c : CoreId) (f : Core → Core) : (s.modCore c f).recvs = s.recvs := rfl
@[simp] theorem State.modCore_outPkts (s : State) (c : CoreId) (f : Core → Core) : (s.modCore c f).outPkts = s.outPkts := rfl
@[simp] theorem State.modCore_staged (s : State) (c : CoreId) (f : Core → Core) : (s.modCore c f).staged = s.staged := rfl
@[simp] theorem State.modCore_seenPkts (s : State) (c : CoreId) (f : Core → Core) : (s.modCore c f).seenPkts = s.seenPkts := rfl
@[simp] theorem State.modCore_doneSends (s : State) (c : CoreId) (f : Core → Core) : (s.modCore c f).doneSends = s.doneSends := rfl
@[simp] theorem State.modCore_collFails (s : State) (c : CoreId) (f : Core → Core) : (s.modCore c f).collFails = s.collFails := rfl
@[simp] theorem State.modCore_forwarded (s : State) (c : CoreId) (f : Core → Core) : (s.modCore c f).forwarded = s.forwarded := rfl
@[simp] theorem State.modCore_pktId (s : State) (c : CoreId) (f : Core → Core) : (s.modCore c f).pktId = s.pktId := rfl
@[simp] theorem State.modCore_acks (s : State) (c : CoreId) (f : Core → Core) : (s.modCore c f).acks = s.acks := rfl
@[simp] theorem State.modCore_sessions (s : State) (c : CoreId) (f : Core → Core) : (s.modCore c f).sessions = s.sessions := rfl
@[simp] theorem State.modCore_ctlSeq (s : State) (c : CoreId) (f : Core → Core) : (s.modCore c f).ctlSeq = s.ctlSeq := rfl
@[simp] theorem State.modCore_layers (s : State) (c : CoreId) (f : Core → Core) : (s.modCore c f).layers = s.layers := rfl
@[simp] theorem State.modCore_deadBanks (s : State) (c : CoreId) (f : Core → Core) : (s.modCore c f).deadBanks = s.deadBanks := rfl
@[simp] theorem State.modCore_failing (s : State) (c : CoreId) (f : Core → Core) : (s.modCore c f).failing = s.failing := rfl
@[simp] theorem State.modCore_sparedGroups (s : State) (c : CoreId) (f : Core → Core) : (s.modCore c f).sparedGroups = s.sparedGroups := rfl
@[simp] theorem State.modCore_corrected (s : State) (c : CoreId) (f : Core → Core) : (s.modCore c f).corrected = s.corrected := rfl
@[simp] theorem State.modCore_lpCorrected (s : State) (c : CoreId) (f : Core → Core) : (s.modCore c f).lpCorrected = s.lpCorrected := rfl
@[simp] theorem State.modCore_spares (s : State) (c : CoreId) (f : Core → Core) : (s.modCore c f).spares = s.spares := rfl
@[simp] theorem State.modCore_emergUsed (s : State) (c : CoreId) (f : Core → Core) : (s.modCore c f).emergUsed = s.emergUsed := rfl
@[simp] theorem State.modCore_trims (s : State) (c : CoreId) (f : Core → Core) : (s.modCore c f).trims = s.trims := rfl
@[simp] theorem State.modCore_trimGoal (s : State) (c : CoreId) (f : Core → Core) : (s.modCore c f).trimGoal = s.trimGoal := rfl
@[simp] theorem State.modCore_sampled (s : State) (c : CoreId) (f : Core → Core) : (s.modCore c f).sampled = s.sampled := rfl
@[simp] theorem State.modCore_arbiter (s : State) (c : CoreId) (f : Core → Core) : (s.modCore c f).arbiter = s.arbiter := rfl
@[simp] theorem State.modCore_bootFail (s : State) (c : CoreId) (f : Core → Core) : (s.modCore c f).bootFail = s.bootFail := rfl
@[simp] theorem State.modCore_bootFinds (s : State) (c : CoreId) (f : Core → Core) : (s.modCore c f).bootFinds = s.bootFinds := rfl
@[simp] theorem State.modCore_flashRecs (s : State) (c : CoreId) (f : Core → Core) : (s.modCore c f).flashRecs = s.flashRecs := rfl
@[simp] theorem State.modCore_fwSlots (s : State) (c : CoreId) (f : Core → Core) : (s.modCore c f).fwSlots = s.fwSlots := rfl
@[simp] theorem State.modCore_fwActive (s : State) (c : CoreId) (f : Core → Core) : (s.modCore c f).fwActive = s.fwActive := rfl
@[simp] theorem State.modCore_fwStage (s : State) (c : CoreId) (f : Core → Core) : (s.modCore c f).fwStage = s.fwStage := rfl
@[simp] theorem State.modCore_fwMin (s : State) (c : CoreId) (f : Core → Core) : (s.modCore c f).fwMin = s.fwMin := rfl
@[simp] theorem State.modCore_attLog (s : State) (c : CoreId) (f : Core → Core) : (s.modCore c f).attLog = s.attLog := rfl
@[simp] theorem State.modCore_frozen (s : State) (c : CoreId) (f : Core → Core) : (s.modCore c f).frozen = s.frozen := rfl
@[simp] theorem State.modCore_tocHeld (s : State) (c : CoreId) (f : Core → Core) : (s.modCore c f).tocHeld = s.tocHeld := rfl
@[simp] theorem State.modCore_agenda (s : State) (c : CoreId) (f : Core → Core) : (s.modCore c f).agenda = s.agenda := rfl
@[simp] theorem State.modCore_sched (s : State) (c : CoreId) (f : Core → Core) : (s.modCore c f).sched = s.sched := rfl
@[simp] theorem State.modCore_cur (s : State) (c : CoreId) (f : Core → Core) : (s.modCore c f).cur = s.cur := rfl
@[simp] theorem State.modCore_memHold (s : State) (c : CoreId) (f : Core → Core) : (s.modCore c f).memHold = s.memHold := rfl
@[simp] theorem State.modCore_freeCtr (s : State) (c : CoreId) (f : Core → Core) : (s.modCore c f).freeCtr = s.freeCtr := rfl
@[simp] theorem State.modCtx_cycle (s : State) (c : CoreId) (f : Ctx → Ctx) : (s.modCtx c f).cycle = s.cycle := rfl
@[simp] theorem State.modCtx_devTime (s : State) (c : CoreId) (f : Ctx → Ctx) : (s.modCtx c f).devTime = s.devTime := rfl
@[simp] theorem State.modCtx_devFrac (s : State) (c : CoreId) (f : Ctx → Ctx) : (s.modCtx c f).devFrac = s.devFrac := rfl
@[simp] theorem State.modCtx_t2 (s : State) (c : CoreId) (f : Ctx → Ctx) : (s.modCtx c f).t2 = s.t2 := rfl
@[simp] theorem State.modCtx_t2bad (s : State) (c : CoreId) (f : Ctx → Ctx) : (s.modCtx c f).t2bad = s.t2bad := rfl
@[simp] theorem State.modCtx_mem (s : State) (c : CoreId) (f : Ctx → Ctx) : (s.modCtx c f).mem = s.mem := rfl
@[simp] theorem State.modCtx_bad (s : State) (c : CoreId) (f : Ctx → Ctx) : (s.modCtx c f).bad = s.bad := rfl
@[simp] theorem State.modCtx_regions (s : State) (c : CoreId) (f : Ctx → Ctx) : (s.modCtx c f).regions = s.regions := rfl
@[simp] theorem State.modCtx_counts (s : State) (c : CoreId) (f : Ctx → Ctx) : (s.modCtx c f).counts = s.counts := rfl
@[simp] theorem State.modCtx_wid (s : State) (c : CoreId) (f : Ctx → Ctx) : (s.modCtx c f).wid = s.wid := rfl
@[simp] theorem State.modCtx_unacked (s : State) (c : CoreId) (f : Ctx → Ctx) : (s.modCtx c f).unacked = s.unacked := rfl
@[simp] theorem State.modCtx_homeQ (s : State) (c : CoreId) (f : Ctx → Ctx) : (s.modCtx c f).homeQ = s.homeQ := rfl
@[simp] theorem State.modCtx_etlb (s : State) (c : CoreId) (f : Ctx → Ctx) : (s.modCtx c f).etlb = s.etlb := rfl
@[simp] theorem State.modCtx_refire (s : State) (c : CoreId) (f : Ctx → Ctx) : (s.modCtx c f).refire = s.refire := rfl
@[simp] theorem State.modCtx_replicas (s : State) (c : CoreId) (f : Ctx → Ctx) : (s.modCtx c f).replicas = s.replicas := rfl
@[simp] theorem State.modCtx_graphs (s : State) (c : CoreId) (f : Ctx → Ctx) : (s.modCtx c f).graphs = s.graphs := rfl
@[simp] theorem State.modCtx_jobs (s : State) (c : CoreId) (f : Ctx → Ctx) : (s.modCtx c f).jobs = s.jobs := rfl
@[simp] theorem State.modCtx_phases (s : State) (c : CoreId) (f : Ctx → Ctx) : (s.modCtx c f).phases = s.phases := rfl
@[simp] theorem State.modCtx_queues (s : State) (c : CoreId) (f : Ctx → Ctx) : (s.modCtx c f).queues = s.queues := rfl
@[simp] theorem State.modCtx_launches (s : State) (c : CoreId) (f : Ctx → Ctx) : (s.modCtx c f).launches = s.launches := rfl
@[simp] theorem State.modCtx_nextLid (s : State) (c : CoreId) (f : Ctx → Ctx) : (s.modCtx c f).nextLid = s.nextLid := rfl
@[simp] theorem State.modCtx_budgets (s : State) (c : CoreId) (f : Ctx → Ctx) : (s.modCtx c f).budgets = s.budgets := rfl
@[simp] theorem State.modCtx_images (s : State) (c : CoreId) (f : Ctx → Ctx) : (s.modCtx c f).images = s.images := rfl
@[simp] theorem State.modCtx_spaces (s : State) (c : CoreId) (f : Ctx → Ctx) : (s.modCtx c f).spaces = s.spaces := rfl
@[simp] theorem State.modCtx_parked (s : State) (c : CoreId) (f : Ctx → Ctx) : (s.modCtx c f).parked = s.parked := rfl
@[simp] theorem State.modCtx_parkedGo (s : State) (c : CoreId) (f : Ctx → Ctx) : (s.modCtx c f).parkedGo = s.parkedGo := rfl
@[simp] theorem State.modCtx_out (s : State) (c : CoreId) (f : Ctx → Ctx) : (s.modCtx c f).out = s.out := rfl
@[simp] theorem State.modCtx_toclCancels (s : State) (c : CoreId) (f : Ctx → Ctx) : (s.modCtx c f).toclCancels = s.toclCancels := rfl
@[simp] theorem State.modCtx_mgmt (s : State) (c : CoreId) (f : Ctx → Ctx) : (s.modCtx c f).mgmt = s.mgmt := rfl
@[simp] theorem State.modCtx_ports (s : State) (c : CoreId) (f : Ctx → Ctx) : (s.modCtx c f).ports = s.ports := rfl
@[simp] theorem State.modCtx_ingest (s : State) (c : CoreId) (f : Ctx → Ctx) : (s.modCtx c f).ingest = s.ingest := rfl
@[simp] theorem State.modCtx_subs (s : State) (c : CoreId) (f : Ctx → Ctx) : (s.modCtx c f).subs = s.subs := rfl
@[simp] theorem State.modCtx_groups (s : State) (c : CoreId) (f : Ctx → Ctx) : (s.modCtx c f).groups = s.groups := rfl
@[simp] theorem State.modCtx_devId (s : State) (c : CoreId) (f : Ctx → Ctx) : (s.modCtx c f).devId = s.devId := rfl
@[simp] theorem State.modCtx_routes (s : State) (c : CoreId) (f : Ctx → Ctx) : (s.modCtx c f).routes = s.routes := rfl
@[simp] theorem State.modCtx_recvs (s : State) (c : CoreId) (f : Ctx → Ctx) : (s.modCtx c f).recvs = s.recvs := rfl
@[simp] theorem State.modCtx_outPkts (s : State) (c : CoreId) (f : Ctx → Ctx) : (s.modCtx c f).outPkts = s.outPkts := rfl
@[simp] theorem State.modCtx_staged (s : State) (c : CoreId) (f : Ctx → Ctx) : (s.modCtx c f).staged = s.staged := rfl
@[simp] theorem State.modCtx_seenPkts (s : State) (c : CoreId) (f : Ctx → Ctx) : (s.modCtx c f).seenPkts = s.seenPkts := rfl
@[simp] theorem State.modCtx_doneSends (s : State) (c : CoreId) (f : Ctx → Ctx) : (s.modCtx c f).doneSends = s.doneSends := rfl
@[simp] theorem State.modCtx_collFails (s : State) (c : CoreId) (f : Ctx → Ctx) : (s.modCtx c f).collFails = s.collFails := rfl
@[simp] theorem State.modCtx_forwarded (s : State) (c : CoreId) (f : Ctx → Ctx) : (s.modCtx c f).forwarded = s.forwarded := rfl
@[simp] theorem State.modCtx_pktId (s : State) (c : CoreId) (f : Ctx → Ctx) : (s.modCtx c f).pktId = s.pktId := rfl
@[simp] theorem State.modCtx_acks (s : State) (c : CoreId) (f : Ctx → Ctx) : (s.modCtx c f).acks = s.acks := rfl
@[simp] theorem State.modCtx_sessions (s : State) (c : CoreId) (f : Ctx → Ctx) : (s.modCtx c f).sessions = s.sessions := rfl
@[simp] theorem State.modCtx_ctlSeq (s : State) (c : CoreId) (f : Ctx → Ctx) : (s.modCtx c f).ctlSeq = s.ctlSeq := rfl
@[simp] theorem State.modCtx_layers (s : State) (c : CoreId) (f : Ctx → Ctx) : (s.modCtx c f).layers = s.layers := rfl
@[simp] theorem State.modCtx_deadBanks (s : State) (c : CoreId) (f : Ctx → Ctx) : (s.modCtx c f).deadBanks = s.deadBanks := rfl
@[simp] theorem State.modCtx_failing (s : State) (c : CoreId) (f : Ctx → Ctx) : (s.modCtx c f).failing = s.failing := rfl
@[simp] theorem State.modCtx_sparedGroups (s : State) (c : CoreId) (f : Ctx → Ctx) : (s.modCtx c f).sparedGroups = s.sparedGroups := rfl
@[simp] theorem State.modCtx_corrected (s : State) (c : CoreId) (f : Ctx → Ctx) : (s.modCtx c f).corrected = s.corrected := rfl
@[simp] theorem State.modCtx_lpCorrected (s : State) (c : CoreId) (f : Ctx → Ctx) : (s.modCtx c f).lpCorrected = s.lpCorrected := rfl
@[simp] theorem State.modCtx_spares (s : State) (c : CoreId) (f : Ctx → Ctx) : (s.modCtx c f).spares = s.spares := rfl
@[simp] theorem State.modCtx_emergUsed (s : State) (c : CoreId) (f : Ctx → Ctx) : (s.modCtx c f).emergUsed = s.emergUsed := rfl
@[simp] theorem State.modCtx_trims (s : State) (c : CoreId) (f : Ctx → Ctx) : (s.modCtx c f).trims = s.trims := rfl
@[simp] theorem State.modCtx_trimGoal (s : State) (c : CoreId) (f : Ctx → Ctx) : (s.modCtx c f).trimGoal = s.trimGoal := rfl
@[simp] theorem State.modCtx_sampled (s : State) (c : CoreId) (f : Ctx → Ctx) : (s.modCtx c f).sampled = s.sampled := rfl
@[simp] theorem State.modCtx_arbiter (s : State) (c : CoreId) (f : Ctx → Ctx) : (s.modCtx c f).arbiter = s.arbiter := rfl
@[simp] theorem State.modCtx_bootFail (s : State) (c : CoreId) (f : Ctx → Ctx) : (s.modCtx c f).bootFail = s.bootFail := rfl
@[simp] theorem State.modCtx_bootFinds (s : State) (c : CoreId) (f : Ctx → Ctx) : (s.modCtx c f).bootFinds = s.bootFinds := rfl
@[simp] theorem State.modCtx_flashRecs (s : State) (c : CoreId) (f : Ctx → Ctx) : (s.modCtx c f).flashRecs = s.flashRecs := rfl
@[simp] theorem State.modCtx_fwSlots (s : State) (c : CoreId) (f : Ctx → Ctx) : (s.modCtx c f).fwSlots = s.fwSlots := rfl
@[simp] theorem State.modCtx_fwActive (s : State) (c : CoreId) (f : Ctx → Ctx) : (s.modCtx c f).fwActive = s.fwActive := rfl
@[simp] theorem State.modCtx_fwStage (s : State) (c : CoreId) (f : Ctx → Ctx) : (s.modCtx c f).fwStage = s.fwStage := rfl
@[simp] theorem State.modCtx_fwMin (s : State) (c : CoreId) (f : Ctx → Ctx) : (s.modCtx c f).fwMin = s.fwMin := rfl
@[simp] theorem State.modCtx_attLog (s : State) (c : CoreId) (f : Ctx → Ctx) : (s.modCtx c f).attLog = s.attLog := rfl
@[simp] theorem State.modCtx_frozen (s : State) (c : CoreId) (f : Ctx → Ctx) : (s.modCtx c f).frozen = s.frozen := rfl
@[simp] theorem State.modCtx_tocHeld (s : State) (c : CoreId) (f : Ctx → Ctx) : (s.modCtx c f).tocHeld = s.tocHeld := rfl
@[simp] theorem State.modCtx_agenda (s : State) (c : CoreId) (f : Ctx → Ctx) : (s.modCtx c f).agenda = s.agenda := rfl
@[simp] theorem State.modCtx_sched (s : State) (c : CoreId) (f : Ctx → Ctx) : (s.modCtx c f).sched = s.sched := rfl
@[simp] theorem State.modCtx_cur (s : State) (c : CoreId) (f : Ctx → Ctx) : (s.modCtx c f).cur = s.cur := rfl
@[simp] theorem State.modCtx_memHold (s : State) (c : CoreId) (f : Ctx → Ctx) : (s.modCtx c f).memHold = s.memHold := rfl
@[simp] theorem State.modCtx_freeCtr (s : State) (c : CoreId) (f : Ctx → Ctx) : (s.modCtx c f).freeCtr = s.freeCtr := rfl
@[simp] theorem State.modStr_cycle (s : State) (c : CoreId) (e : Strm) (f : Stream → Stream) : (s.modStr c e f).cycle = s.cycle := rfl
@[simp] theorem State.modStr_devTime (s : State) (c : CoreId) (e : Strm) (f : Stream → Stream) : (s.modStr c e f).devTime = s.devTime := rfl
@[simp] theorem State.modStr_devFrac (s : State) (c : CoreId) (e : Strm) (f : Stream → Stream) : (s.modStr c e f).devFrac = s.devFrac := rfl
@[simp] theorem State.modStr_t2 (s : State) (c : CoreId) (e : Strm) (f : Stream → Stream) : (s.modStr c e f).t2 = s.t2 := rfl
@[simp] theorem State.modStr_t2bad (s : State) (c : CoreId) (e : Strm) (f : Stream → Stream) : (s.modStr c e f).t2bad = s.t2bad := rfl
@[simp] theorem State.modStr_mem (s : State) (c : CoreId) (e : Strm) (f : Stream → Stream) : (s.modStr c e f).mem = s.mem := rfl
@[simp] theorem State.modStr_bad (s : State) (c : CoreId) (e : Strm) (f : Stream → Stream) : (s.modStr c e f).bad = s.bad := rfl
@[simp] theorem State.modStr_regions (s : State) (c : CoreId) (e : Strm) (f : Stream → Stream) : (s.modStr c e f).regions = s.regions := rfl
@[simp] theorem State.modStr_counts (s : State) (c : CoreId) (e : Strm) (f : Stream → Stream) : (s.modStr c e f).counts = s.counts := rfl
@[simp] theorem State.modStr_wid (s : State) (c : CoreId) (e : Strm) (f : Stream → Stream) : (s.modStr c e f).wid = s.wid := rfl
@[simp] theorem State.modStr_unacked (s : State) (c : CoreId) (e : Strm) (f : Stream → Stream) : (s.modStr c e f).unacked = s.unacked := rfl
@[simp] theorem State.modStr_homeQ (s : State) (c : CoreId) (e : Strm) (f : Stream → Stream) : (s.modStr c e f).homeQ = s.homeQ := rfl
@[simp] theorem State.modStr_etlb (s : State) (c : CoreId) (e : Strm) (f : Stream → Stream) : (s.modStr c e f).etlb = s.etlb := rfl
@[simp] theorem State.modStr_refire (s : State) (c : CoreId) (e : Strm) (f : Stream → Stream) : (s.modStr c e f).refire = s.refire := rfl
@[simp] theorem State.modStr_replicas (s : State) (c : CoreId) (e : Strm) (f : Stream → Stream) : (s.modStr c e f).replicas = s.replicas := rfl
@[simp] theorem State.modStr_graphs (s : State) (c : CoreId) (e : Strm) (f : Stream → Stream) : (s.modStr c e f).graphs = s.graphs := rfl
@[simp] theorem State.modStr_jobs (s : State) (c : CoreId) (e : Strm) (f : Stream → Stream) : (s.modStr c e f).jobs = s.jobs := rfl
@[simp] theorem State.modStr_phases (s : State) (c : CoreId) (e : Strm) (f : Stream → Stream) : (s.modStr c e f).phases = s.phases := rfl
@[simp] theorem State.modStr_queues (s : State) (c : CoreId) (e : Strm) (f : Stream → Stream) : (s.modStr c e f).queues = s.queues := rfl
@[simp] theorem State.modStr_launches (s : State) (c : CoreId) (e : Strm) (f : Stream → Stream) : (s.modStr c e f).launches = s.launches := rfl
@[simp] theorem State.modStr_nextLid (s : State) (c : CoreId) (e : Strm) (f : Stream → Stream) : (s.modStr c e f).nextLid = s.nextLid := rfl
@[simp] theorem State.modStr_budgets (s : State) (c : CoreId) (e : Strm) (f : Stream → Stream) : (s.modStr c e f).budgets = s.budgets := rfl
@[simp] theorem State.modStr_images (s : State) (c : CoreId) (e : Strm) (f : Stream → Stream) : (s.modStr c e f).images = s.images := rfl
@[simp] theorem State.modStr_spaces (s : State) (c : CoreId) (e : Strm) (f : Stream → Stream) : (s.modStr c e f).spaces = s.spaces := rfl
@[simp] theorem State.modStr_parked (s : State) (c : CoreId) (e : Strm) (f : Stream → Stream) : (s.modStr c e f).parked = s.parked := rfl
@[simp] theorem State.modStr_parkedGo (s : State) (c : CoreId) (e : Strm) (f : Stream → Stream) : (s.modStr c e f).parkedGo = s.parkedGo := rfl
@[simp] theorem State.modStr_out (s : State) (c : CoreId) (e : Strm) (f : Stream → Stream) : (s.modStr c e f).out = s.out := rfl
@[simp] theorem State.modStr_toclCancels (s : State) (c : CoreId) (e : Strm) (f : Stream → Stream) : (s.modStr c e f).toclCancels = s.toclCancels := rfl
@[simp] theorem State.modStr_mgmt (s : State) (c : CoreId) (e : Strm) (f : Stream → Stream) : (s.modStr c e f).mgmt = s.mgmt := rfl
@[simp] theorem State.modStr_ports (s : State) (c : CoreId) (e : Strm) (f : Stream → Stream) : (s.modStr c e f).ports = s.ports := rfl
@[simp] theorem State.modStr_ingest (s : State) (c : CoreId) (e : Strm) (f : Stream → Stream) : (s.modStr c e f).ingest = s.ingest := rfl
@[simp] theorem State.modStr_subs (s : State) (c : CoreId) (e : Strm) (f : Stream → Stream) : (s.modStr c e f).subs = s.subs := rfl
@[simp] theorem State.modStr_groups (s : State) (c : CoreId) (e : Strm) (f : Stream → Stream) : (s.modStr c e f).groups = s.groups := rfl
@[simp] theorem State.modStr_devId (s : State) (c : CoreId) (e : Strm) (f : Stream → Stream) : (s.modStr c e f).devId = s.devId := rfl
@[simp] theorem State.modStr_routes (s : State) (c : CoreId) (e : Strm) (f : Stream → Stream) : (s.modStr c e f).routes = s.routes := rfl
@[simp] theorem State.modStr_recvs (s : State) (c : CoreId) (e : Strm) (f : Stream → Stream) : (s.modStr c e f).recvs = s.recvs := rfl
@[simp] theorem State.modStr_outPkts (s : State) (c : CoreId) (e : Strm) (f : Stream → Stream) : (s.modStr c e f).outPkts = s.outPkts := rfl
@[simp] theorem State.modStr_staged (s : State) (c : CoreId) (e : Strm) (f : Stream → Stream) : (s.modStr c e f).staged = s.staged := rfl
@[simp] theorem State.modStr_seenPkts (s : State) (c : CoreId) (e : Strm) (f : Stream → Stream) : (s.modStr c e f).seenPkts = s.seenPkts := rfl
@[simp] theorem State.modStr_doneSends (s : State) (c : CoreId) (e : Strm) (f : Stream → Stream) : (s.modStr c e f).doneSends = s.doneSends := rfl
@[simp] theorem State.modStr_collFails (s : State) (c : CoreId) (e : Strm) (f : Stream → Stream) : (s.modStr c e f).collFails = s.collFails := rfl
@[simp] theorem State.modStr_forwarded (s : State) (c : CoreId) (e : Strm) (f : Stream → Stream) : (s.modStr c e f).forwarded = s.forwarded := rfl
@[simp] theorem State.modStr_pktId (s : State) (c : CoreId) (e : Strm) (f : Stream → Stream) : (s.modStr c e f).pktId = s.pktId := rfl
@[simp] theorem State.modStr_acks (s : State) (c : CoreId) (e : Strm) (f : Stream → Stream) : (s.modStr c e f).acks = s.acks := rfl
@[simp] theorem State.modStr_sessions (s : State) (c : CoreId) (e : Strm) (f : Stream → Stream) : (s.modStr c e f).sessions = s.sessions := rfl
@[simp] theorem State.modStr_ctlSeq (s : State) (c : CoreId) (e : Strm) (f : Stream → Stream) : (s.modStr c e f).ctlSeq = s.ctlSeq := rfl
@[simp] theorem State.modStr_layers (s : State) (c : CoreId) (e : Strm) (f : Stream → Stream) : (s.modStr c e f).layers = s.layers := rfl
@[simp] theorem State.modStr_deadBanks (s : State) (c : CoreId) (e : Strm) (f : Stream → Stream) : (s.modStr c e f).deadBanks = s.deadBanks := rfl
@[simp] theorem State.modStr_failing (s : State) (c : CoreId) (e : Strm) (f : Stream → Stream) : (s.modStr c e f).failing = s.failing := rfl
@[simp] theorem State.modStr_sparedGroups (s : State) (c : CoreId) (e : Strm) (f : Stream → Stream) : (s.modStr c e f).sparedGroups = s.sparedGroups := rfl
@[simp] theorem State.modStr_corrected (s : State) (c : CoreId) (e : Strm) (f : Stream → Stream) : (s.modStr c e f).corrected = s.corrected := rfl
@[simp] theorem State.modStr_lpCorrected (s : State) (c : CoreId) (e : Strm) (f : Stream → Stream) : (s.modStr c e f).lpCorrected = s.lpCorrected := rfl
@[simp] theorem State.modStr_spares (s : State) (c : CoreId) (e : Strm) (f : Stream → Stream) : (s.modStr c e f).spares = s.spares := rfl
@[simp] theorem State.modStr_emergUsed (s : State) (c : CoreId) (e : Strm) (f : Stream → Stream) : (s.modStr c e f).emergUsed = s.emergUsed := rfl
@[simp] theorem State.modStr_trims (s : State) (c : CoreId) (e : Strm) (f : Stream → Stream) : (s.modStr c e f).trims = s.trims := rfl
@[simp] theorem State.modStr_trimGoal (s : State) (c : CoreId) (e : Strm) (f : Stream → Stream) : (s.modStr c e f).trimGoal = s.trimGoal := rfl
@[simp] theorem State.modStr_sampled (s : State) (c : CoreId) (e : Strm) (f : Stream → Stream) : (s.modStr c e f).sampled = s.sampled := rfl
@[simp] theorem State.modStr_arbiter (s : State) (c : CoreId) (e : Strm) (f : Stream → Stream) : (s.modStr c e f).arbiter = s.arbiter := rfl
@[simp] theorem State.modStr_bootFail (s : State) (c : CoreId) (e : Strm) (f : Stream → Stream) : (s.modStr c e f).bootFail = s.bootFail := rfl
@[simp] theorem State.modStr_bootFinds (s : State) (c : CoreId) (e : Strm) (f : Stream → Stream) : (s.modStr c e f).bootFinds = s.bootFinds := rfl
@[simp] theorem State.modStr_flashRecs (s : State) (c : CoreId) (e : Strm) (f : Stream → Stream) : (s.modStr c e f).flashRecs = s.flashRecs := rfl
@[simp] theorem State.modStr_fwSlots (s : State) (c : CoreId) (e : Strm) (f : Stream → Stream) : (s.modStr c e f).fwSlots = s.fwSlots := rfl
@[simp] theorem State.modStr_fwActive (s : State) (c : CoreId) (e : Strm) (f : Stream → Stream) : (s.modStr c e f).fwActive = s.fwActive := rfl
@[simp] theorem State.modStr_fwStage (s : State) (c : CoreId) (e : Strm) (f : Stream → Stream) : (s.modStr c e f).fwStage = s.fwStage := rfl
@[simp] theorem State.modStr_fwMin (s : State) (c : CoreId) (e : Strm) (f : Stream → Stream) : (s.modStr c e f).fwMin = s.fwMin := rfl
@[simp] theorem State.modStr_attLog (s : State) (c : CoreId) (e : Strm) (f : Stream → Stream) : (s.modStr c e f).attLog = s.attLog := rfl
@[simp] theorem State.modStr_frozen (s : State) (c : CoreId) (e : Strm) (f : Stream → Stream) : (s.modStr c e f).frozen = s.frozen := rfl
@[simp] theorem State.modStr_tocHeld (s : State) (c : CoreId) (e : Strm) (f : Stream → Stream) : (s.modStr c e f).tocHeld = s.tocHeld := rfl
@[simp] theorem State.modStr_agenda (s : State) (c : CoreId) (e : Strm) (f : Stream → Stream) : (s.modStr c e f).agenda = s.agenda := rfl
@[simp] theorem State.modStr_sched (s : State) (c : CoreId) (e : Strm) (f : Stream → Stream) : (s.modStr c e f).sched = s.sched := rfl
@[simp] theorem State.modStr_cur (s : State) (c : CoreId) (e : Strm) (f : Stream → Stream) : (s.modStr c e f).cur = s.cur := rfl
@[simp] theorem State.modStr_memHold (s : State) (c : CoreId) (e : Strm) (f : Stream → Stream) : (s.modStr c e f).memHold = s.memHold := rfl
@[simp] theorem State.modStr_freeCtr (s : State) (c : CoreId) (e : Strm) (f : Stream → Stream) : (s.modStr c e f).freeCtr = s.freeCtr := rfl

/-! ### Cores, contexts, streams -/

@[simp] theorem State.core_setCore (s : State) (c : CoreId) (k : Core) : (s.setCore c k).core c = k := by
  simp [State.core, State.setCore]

theorem State.core_setCore_other (s : State) (c d : CoreId) (k : Core) (h : d ≠ c) : (s.setCore c k).core d = s.core d := by
  have : d.toNat ≠ c.toNat := fun q => h (BitVec.eq_of_toNat_eq q)
  simp [State.core, State.setCore, FMap.get?_set_other _ _ _ _ this]

@[simp] theorem State.setCore_setCore (s : State) (c : CoreId) (k q : Core) : (s.setCore c k).setCore c q = s.setCore c q := by
  simp [State.setCore]

@[simp] theorem State.core_modCore (s : State) (c : CoreId) (f : Core → Core) : (s.modCore c f).core c = f (s.core c) := by
  simp [State.modCore]

theorem State.core_modCore_other (s : State) (c d : CoreId) (f : Core → Core) (h : d ≠ c) :
    (s.modCore c f).core d = s.core d := by
  simp [State.modCore, State.core_setCore_other _ _ _ _ h]

@[simp] theorem State.modCore_modCore (s : State) (c : CoreId) (f g : Core → Core) :
    (s.modCore c f).modCore c g = s.modCore c (fun k => g (f k)) := by
  simp [State.modCore]

@[simp] theorem State.core_modCtx (s : State) (c : CoreId) (f : Ctx → Ctx) :
    (s.modCtx c f).core c = { s.core c with ctx := f (s.core c).ctx } := by
  simp [State.modCtx]

@[simp] theorem State.ctx_modCtx (s : State) (c : CoreId) (f : Ctx → Ctx) : (s.modCtx c f).ctx c = f (s.ctx c) := by
  simp [State.ctx]

theorem State.ctx_modCtx_other (s : State) (c d : CoreId) (f : Ctx → Ctx) (h : d ≠ c) : (s.modCtx c f).ctx d = s.ctx d := by
  simp [State.ctx, State.modCtx, State.core_modCore_other _ _ _ _ h]

@[simp] theorem State.modCtx_modCtx (s : State) (c : CoreId) (f g : Ctx → Ctx) :
    (s.modCtx c f).modCtx c g = s.modCtx c (fun x => g (f x)) := by
  simp [State.modCtx]

@[simp] theorem Ctx.str_setStr (x : Ctx) (e : Strm) (t : Stream) : (x.setStr e t).str e = t := by
  cases e <;> rfl

theorem Ctx.str_setStr_other (x : Ctx) (e d : Strm) (t : Stream) (h : d ≠ e) : (x.setStr e t).str d = x.str d := by
  cases e <;> cases d <;> first | rfl | exact absurd rfl h

@[simp] theorem Ctx.setStr_setStr (x : Ctx) (e : Strm) (t u : Stream) : (x.setStr e t).setStr e u = x.setStr e u := by
  cases e <;> rfl

@[simp] theorem State.ctx_modStr (s : State) (c : CoreId) (e : Strm) (f : Stream → Stream) :
    (s.modStr c e f).ctx c = (s.ctx c).setStr e (f ((s.ctx c).str e)) := by
  simp [State.modStr]

@[simp] theorem State.modStr_modStr (s : State) (c : CoreId) (e : Strm) (f g : Stream → Stream) :
    (s.modStr c e f).modStr c e g = s.modStr c e (fun t => g (f t)) := by
  simp [State.modStr]

/-! ### A context under its updates -/

@[simp] theorem Ctx.setStr_s (x : Ctx) (e : Strm) (t : Stream) : (x.setStr e t).s = x.s := by cases e <;> rfl
@[simp] theorem Ctx.setStr_p (x : Ctx) (e : Strm) (t : Stream) : (x.setStr e t).p = x.p := by cases e <;> rfl
@[simp] theorem Ctx.setStr_k (x : Ctx) (e : Strm) (t : Stream) : (x.setStr e t).k = x.k := by cases e <;> rfl
@[simp] theorem Ctx.setStr_views (x : Ctx) (e : Strm) (t : Stream) : (x.setStr e t).views = x.views := by cases e <;> rfl
@[simp] theorem Ctx.setStr_tv (x : Ctx) (e : Strm) (t : Stream) : (x.setStr e t).tv = x.tv := by cases e <;> rfl
@[simp] theorem Ctx.setStr_av (x : Ctx) (e : Strm) (t : Stream) : (x.setStr e t).av = x.av := by cases e <;> rfl
@[simp] theorem Ctx.setStr_eph (x : Ctx) (e : Strm) (t : Stream) : (x.setStr e t).eph = x.eph := by cases e <;> rfl
@[simp] theorem Ctx.setStr_tok (x : Ctx) (e : Strm) (t : Stream) : (x.setStr e t).tok = x.tok := by cases e <;> rfl
@[simp] theorem Ctx.setStr_fresh (x : Ctx) (e : Strm) (t : Stream) : (x.setStr e t).fresh = x.fresh := by cases e <;> rfl
@[simp] theorem Ctx.setStr_rsv (x : Ctx) (e : Strm) (t : Stream) : (x.setStr e t).rsv = x.rsv := by cases e <;> rfl
@[simp] theorem Ctx.setStr_wdog (x : Ctx) (e : Strm) (t : Stream) : (x.setStr e t).wdog = x.wdog := by cases e <;> rfl
@[simp] theorem Ctx.setStr_oorFlag (x : Ctx) (e : Strm) (t : Stream) : (x.setStr e t).oorFlag = x.oorFlag := by cases e <;> rfl
@[simp] theorem Ctx.setStr_oorFresh (x : Ctx) (e : Strm) (t : Stream) : (x.setStr e t).oorFresh = x.oorFresh := by cases e <;> rfl
@[simp] theorem Ctx.setStr_oorNow (x : Ctx) (e : Strm) (t : Stream) : (x.setStr e t).oorNow = x.oorNow := by cases e <;> rfl
@[simp] theorem Ctx.setStr_oorStream (x : Ctx) (e : Strm) (t : Stream) : (x.setStr e t).oorStream = x.oorStream := by cases e <;> rfl
@[simp] theorem Ctx.setStr_oorSpace (x : Ctx) (e : Strm) (t : Stream) : (x.setStr e t).oorSpace = x.oorSpace := by cases e <;> rfl
@[simp] theorem Ctx.setStr_oorWrite (x : Ctx) (e : Strm) (t : Stream) : (x.setStr e t).oorWrite = x.oorWrite := by cases e <;> rfl
@[simp] theorem Ctx.setStr_oorAddr (x : Ctx) (e : Strm) (t : Stream) : (x.setStr e t).oorAddr = x.oorAddr := by cases e <;> rfl
@[simp] theorem Ctx.setStr_lend (x : Ctx) (e : Strm) (t : Stream) : (x.setStr e t).lend = x.lend := by cases e <;> rfl
@[simp] theorem Ctx.setStr_cause (x : Ctx) (e : Strm) (t : Stream) : (x.setStr e t).cause = x.cause := by cases e <;> rfl
@[simp] theorem Ctx.setStr_trapPc (x : Ctx) (e : Strm) (t : Stream) : (x.setStr e t).trapPc = x.trapPc := by cases e <;> rfl
@[simp] theorem Ctx.setStr_trapAddr (x : Ctx) (e : Strm) (t : Stream) : (x.setStr e t).trapAddr = x.trapAddr := by cases e <;> rfl
@[simp] theorem Ctx.setStr_nestCause (x : Ctx) (e : Strm) (t : Stream) : (x.setStr e t).nestCause = x.nestCause := by cases e <;> rfl
@[simp] theorem Ctx.setStr_nestAddr (x : Ctx) (e : Strm) (t : Stream) : (x.setStr e t).nestAddr = x.nestAddr := by cases e <;> rfl
@[simp] theorem Ctx.setStr_tsp (x : Ctx) (e : Strm) (t : Stream) : (x.setStr e t).tsp = x.tsp := by cases e <;> rfl
@[simp] theorem Ctx.setStr_tnest (x : Ctx) (e : Strm) (t : Stream) : (x.setStr e t).tnest = x.tnest := by cases e <;> rfl
@[simp] theorem Ctx.setStr_tdict (x : Ctx) (e : Strm) (t : Stream) : (x.setStr e t).tdict = x.tdict := by cases e <;> rfl
@[simp] theorem Ctx.setStr_tdefer (x : Ctx) (e : Strm) (t : Stream) : (x.setStr e t).tdefer = x.tdefer := by cases e <;> rfl
@[simp] theorem Ctx.setStr_tstream (x : Ctx) (e : Strm) (t : Stream) : (x.setStr e t).tstream = x.tstream := by cases e <;> rfl
@[simp] theorem Ctx.setStr_te (x : Ctx) (e : Strm) (t : Stream) : (x.setStr e t).te = x.te := by cases e <;> rfl
@[simp] theorem Ctx.setStr_depCount (x : Ctx) (e : Strm) (t : Stream) : (x.setStr e t).depCount = x.depCount := by cases e <;> rfl
@[simp] theorem Ctx.setStr_sat (x : Ctx) (e : Strm) (t : Stream) : (x.setStr e t).sat = x.sat := by cases e <;> rfl
@[simp] theorem Ctx.setStr_daz (x : Ctx) (e : Strm) (t : Stream) : (x.setStr e t).daz = x.daz := by cases e <;> rfl
@[simp] theorem Ctx.setStr_ftz (x : Ctx) (e : Strm) (t : Stream) : (x.setStr e t).ftz = x.ftz := by cases e <;> rfl
@[simp] theorem Ctx.setStr_srk (x : Ctx) (e : Strm) (t : Stream) : (x.setStr e t).srk = x.srk := by cases e <;> rfl
@[simp] theorem Ctx.setStr_crm (x : Ctx) (e : Strm) (t : Stream) : (x.setStr e t).crm = x.crm := by cases e <;> rfl
@[simp] theorem Ctx.setStr_arm (x : Ctx) (e : Strm) (t : Stream) : (x.setStr e t).arm = x.arm := by cases e <;> rfl
@[simp] theorem Ctx.setStr_vflags (x : Ctx) (e : Strm) (t : Stream) : (x.setStr e t).vflags = x.vflags := by cases e <;> rfl
@[simp] theorem Ctx.setStr_vNow (x : Ctx) (e : Strm) (t : Stream) : (x.setStr e t).vNow = x.vNow := by cases e <;> rfl
@[simp] theorem Ctx.setStr_mNow (x : Ctx) (e : Strm) (t : Stream) : (x.setStr e t).mNow = x.mNow := by cases e <;> rfl
@[simp] theorem Ctx.setStr_actm (x : Ctx) (e : Strm) (t : Stream) : (x.setStr e t).actm = x.actm := by cases e <;> rfl
@[simp] theorem Ctx.setStr_mflags (x : Ctx) (e : Strm) (t : Stream) : (x.setStr e t).mflags = x.mflags := by cases e <;> rfl
@[simp] theorem Ctx.setStr_mcrm (x : Ctx) (e : Strm) (t : Stream) : (x.setStr e t).mcrm = x.mcrm := by cases e <;> rfl
@[simp] theorem Ctx.setStr_msnap (x : Ctx) (e : Strm) (t : Stream) : (x.setStr e t).msnap = x.msnap := by cases e <;> rfl
@[simp] theorem Ctx.setStr_wv (x : Ctx) (e : Strm) (t : Stream) : (x.setStr e t).wv = x.wv := by cases e <;> rfl
@[simp] theorem Ctx.setStr_mn (x : Ctx) (e : Strm) (t : Stream) : (x.setStr e t).mn = x.mn := by cases e <;> rfl
@[simp] theorem Ctx.setStr_dict (x : Ctx) (e : Strm) (t : Stream) : (x.setStr e t).dict = x.dict := by cases e <;> rfl
@[simp] theorem Ctx.setStr_regs (x : Ctx) (e : Strm) (t : Stream) : (x.setStr e t).regs = x.regs := by cases e <;> rfl
@[simp] theorem Ctx.setStr_firedNow (x : Ctx) (e : Strm) (t : Stream) : (x.setStr e t).firedNow = x.firedNow := by cases e <;> rfl
@[simp] theorem Ctx.setStr_tags (x : Ctx) (e : Strm) (t : Stream) : (x.setStr e t).tags = x.tags := by cases e <;> rfl
@[simp] theorem Ctx.setStr_tagOps (x : Ctx) (e : Strm) (t : Stream) : (x.setStr e t).tagOps = x.tagOps := by cases e <;> rfl
@[simp] theorem Ctx.setStr_vLanded (x : Ctx) (e : Strm) (t : Stream) : (x.setStr e t).vLanded = x.vLanded := by cases e <;> rfl
@[simp] theorem Ctx.setStr_cmds (x : Ctx) (e : Strm) (t : Stream) : (x.setStr e t).cmds = x.cmds := by cases e <;> rfl
@[simp] theorem Ctx.setStr_mnest (x : Ctx) (e : Strm) (t : Stream) : (x.setStr e t).mnest = x.mnest := by cases e <;> rfl
@[simp] theorem Ctx.setStr_tables (x : Ctx) (e : Strm) (t : Stream) : (x.setStr e t).tables = x.tables := by cases e <;> rfl
@[simp] theorem Ctx.setStr_handle (x : Ctx) (e : Strm) (t : Stream) : (x.setStr e t).handle = x.handle := by cases e <;> rfl
@[simp] theorem Ctx.setStr_est (x : Ctx) (e : Strm) (t : Stream) : (x.setStr e t).est = x.est := by cases e <;> rfl
@[simp] theorem Ctx.setStr_estNs (x : Ctx) (e : Strm) (t : Stream) : (x.setStr e t).estNs = x.estNs := by cases e <;> rfl
@[simp] theorem Ctx.setStr_allot (x : Ctx) (e : Strm) (t : Stream) : (x.setStr e t).allot = x.allot := by cases e <;> rfl
@[simp] theorem Ctx.setStr_shadow (x : Ctx) (e : Strm) (t : Stream) : (x.setStr e t).shadow = x.shadow := by cases e <;> rfl
@[simp] theorem Ctx.setStr_failed (x : Ctx) (e : Strm) (t : Stream) : (x.setStr e t).failed = x.failed := by cases e <;> rfl
@[simp] theorem Ctx.setSr_p (x : Ctx) (r : SReg) (v : Word) : (x.setSr r v).p = x.p := by
  unfold Ctx.setSr; split <;> rfl
@[simp] theorem Ctx.setSr_k (x : Ctx) (r : SReg) (v : Word) : (x.setSr r v).k = x.k := by
  unfold Ctx.setSr; split <;> rfl
@[simp] theorem Ctx.setSr_views (x : Ctx) (r : SReg) (v : Word) : (x.setSr r v).views = x.views := by
  unfold Ctx.setSr; split <;> rfl
@[simp] theorem Ctx.setSr_tv (x : Ctx) (r : SReg) (v : Word) : (x.setSr r v).tv = x.tv := by
  unfold Ctx.setSr; split <;> rfl
@[simp] theorem Ctx.setSr_av (x : Ctx) (r : SReg) (v : Word) : (x.setSr r v).av = x.av := by
  unfold Ctx.setSr; split <;> rfl
@[simp] theorem Ctx.setSr_eph (x : Ctx) (r : SReg) (v : Word) : (x.setSr r v).eph = x.eph := by
  unfold Ctx.setSr; split <;> rfl
@[simp] theorem Ctx.setSr_strC (x : Ctx) (r : SReg) (v : Word) : (x.setSr r v).strC = x.strC := by
  unfold Ctx.setSr; split <;> rfl
@[simp] theorem Ctx.setSr_strV (x : Ctx) (r : SReg) (v : Word) : (x.setSr r v).strV = x.strV := by
  unfold Ctx.setSr; split <;> rfl
@[simp] theorem Ctx.setSr_strM (x : Ctx) (r : SReg) (v : Word) : (x.setSr r v).strM = x.strM := by
  unfold Ctx.setSr; split <;> rfl
@[simp] theorem Ctx.setSr_strX (x : Ctx) (r : SReg) (v : Word) : (x.setSr r v).strX = x.strX := by
  unfold Ctx.setSr; split <;> rfl
@[simp] theorem Ctx.setSr_tok (x : Ctx) (r : SReg) (v : Word) : (x.setSr r v).tok = x.tok := by
  unfold Ctx.setSr; split <;> rfl
@[simp] theorem Ctx.setSr_fresh (x : Ctx) (r : SReg) (v : Word) : (x.setSr r v).fresh = x.fresh := by
  unfold Ctx.setSr; split <;> rfl
@[simp] theorem Ctx.setSr_rsv (x : Ctx) (r : SReg) (v : Word) : (x.setSr r v).rsv = x.rsv := by
  unfold Ctx.setSr; split <;> rfl
@[simp] theorem Ctx.setSr_wdog (x : Ctx) (r : SReg) (v : Word) : (x.setSr r v).wdog = x.wdog := by
  unfold Ctx.setSr; split <;> rfl
@[simp] theorem Ctx.setSr_oorFlag (x : Ctx) (r : SReg) (v : Word) : (x.setSr r v).oorFlag = x.oorFlag := by
  unfold Ctx.setSr; split <;> rfl
@[simp] theorem Ctx.setSr_oorFresh (x : Ctx) (r : SReg) (v : Word) : (x.setSr r v).oorFresh = x.oorFresh := by
  unfold Ctx.setSr; split <;> rfl
@[simp] theorem Ctx.setSr_oorNow (x : Ctx) (r : SReg) (v : Word) : (x.setSr r v).oorNow = x.oorNow := by
  unfold Ctx.setSr; split <;> rfl
@[simp] theorem Ctx.setSr_oorStream (x : Ctx) (r : SReg) (v : Word) : (x.setSr r v).oorStream = x.oorStream := by
  unfold Ctx.setSr; split <;> rfl
@[simp] theorem Ctx.setSr_oorSpace (x : Ctx) (r : SReg) (v : Word) : (x.setSr r v).oorSpace = x.oorSpace := by
  unfold Ctx.setSr; split <;> rfl
@[simp] theorem Ctx.setSr_oorWrite (x : Ctx) (r : SReg) (v : Word) : (x.setSr r v).oorWrite = x.oorWrite := by
  unfold Ctx.setSr; split <;> rfl
@[simp] theorem Ctx.setSr_oorAddr (x : Ctx) (r : SReg) (v : Word) : (x.setSr r v).oorAddr = x.oorAddr := by
  unfold Ctx.setSr; split <;> rfl
@[simp] theorem Ctx.setSr_lend (x : Ctx) (r : SReg) (v : Word) : (x.setSr r v).lend = x.lend := by
  unfold Ctx.setSr; split <;> rfl
@[simp] theorem Ctx.setSr_cause (x : Ctx) (r : SReg) (v : Word) : (x.setSr r v).cause = x.cause := by
  unfold Ctx.setSr; split <;> rfl
@[simp] theorem Ctx.setSr_trapPc (x : Ctx) (r : SReg) (v : Word) : (x.setSr r v).trapPc = x.trapPc := by
  unfold Ctx.setSr; split <;> rfl
@[simp] theorem Ctx.setSr_trapAddr (x : Ctx) (r : SReg) (v : Word) : (x.setSr r v).trapAddr = x.trapAddr := by
  unfold Ctx.setSr; split <;> rfl
@[simp] theorem Ctx.setSr_nestCause (x : Ctx) (r : SReg) (v : Word) : (x.setSr r v).nestCause = x.nestCause := by
  unfold Ctx.setSr; split <;> rfl
@[simp] theorem Ctx.setSr_nestAddr (x : Ctx) (r : SReg) (v : Word) : (x.setSr r v).nestAddr = x.nestAddr := by
  unfold Ctx.setSr; split <;> rfl
@[simp] theorem Ctx.setSr_tsp (x : Ctx) (r : SReg) (v : Word) : (x.setSr r v).tsp = x.tsp := by
  unfold Ctx.setSr; split <;> rfl
@[simp] theorem Ctx.setSr_tnest (x : Ctx) (r : SReg) (v : Word) : (x.setSr r v).tnest = x.tnest := by
  unfold Ctx.setSr; split <;> rfl
@[simp] theorem Ctx.setSr_tdict (x : Ctx) (r : SReg) (v : Word) : (x.setSr r v).tdict = x.tdict := by
  unfold Ctx.setSr; split <;> rfl
@[simp] theorem Ctx.setSr_tdefer (x : Ctx) (r : SReg) (v : Word) : (x.setSr r v).tdefer = x.tdefer := by
  unfold Ctx.setSr; split <;> rfl
@[simp] theorem Ctx.setSr_tstream (x : Ctx) (r : SReg) (v : Word) : (x.setSr r v).tstream = x.tstream := by
  unfold Ctx.setSr; split <;> rfl
@[simp] theorem Ctx.setSr_te (x : Ctx) (r : SReg) (v : Word) : (x.setSr r v).te = x.te := by
  unfold Ctx.setSr; split <;> rfl
@[simp] theorem Ctx.setSr_depCount (x : Ctx) (r : SReg) (v : Word) : (x.setSr r v).depCount = x.depCount := by
  unfold Ctx.setSr; split <;> rfl
@[simp] theorem Ctx.setSr_sat (x : Ctx) (r : SReg) (v : Word) : (x.setSr r v).sat = x.sat := by
  unfold Ctx.setSr; split <;> rfl
@[simp] theorem Ctx.setSr_daz (x : Ctx) (r : SReg) (v : Word) : (x.setSr r v).daz = x.daz := by
  unfold Ctx.setSr; split <;> rfl
@[simp] theorem Ctx.setSr_ftz (x : Ctx) (r : SReg) (v : Word) : (x.setSr r v).ftz = x.ftz := by
  unfold Ctx.setSr; split <;> rfl
@[simp] theorem Ctx.setSr_srk (x : Ctx) (r : SReg) (v : Word) : (x.setSr r v).srk = x.srk := by
  unfold Ctx.setSr; split <;> rfl
@[simp] theorem Ctx.setSr_crm (x : Ctx) (r : SReg) (v : Word) : (x.setSr r v).crm = x.crm := by
  unfold Ctx.setSr; split <;> rfl
@[simp] theorem Ctx.setSr_arm (x : Ctx) (r : SReg) (v : Word) : (x.setSr r v).arm = x.arm := by
  unfold Ctx.setSr; split <;> rfl
@[simp] theorem Ctx.setSr_vflags (x : Ctx) (r : SReg) (v : Word) : (x.setSr r v).vflags = x.vflags := by
  unfold Ctx.setSr; split <;> rfl
@[simp] theorem Ctx.setSr_vNow (x : Ctx) (r : SReg) (v : Word) : (x.setSr r v).vNow = x.vNow := by
  unfold Ctx.setSr; split <;> rfl
@[simp] theorem Ctx.setSr_mNow (x : Ctx) (r : SReg) (v : Word) : (x.setSr r v).mNow = x.mNow := by
  unfold Ctx.setSr; split <;> rfl
@[simp] theorem Ctx.setSr_actm (x : Ctx) (r : SReg) (v : Word) : (x.setSr r v).actm = x.actm := by
  unfold Ctx.setSr; split <;> rfl
@[simp] theorem Ctx.setSr_mflags (x : Ctx) (r : SReg) (v : Word) : (x.setSr r v).mflags = x.mflags := by
  unfold Ctx.setSr; split <;> rfl
@[simp] theorem Ctx.setSr_mcrm (x : Ctx) (r : SReg) (v : Word) : (x.setSr r v).mcrm = x.mcrm := by
  unfold Ctx.setSr; split <;> rfl
@[simp] theorem Ctx.setSr_msnap (x : Ctx) (r : SReg) (v : Word) : (x.setSr r v).msnap = x.msnap := by
  unfold Ctx.setSr; split <;> rfl
@[simp] theorem Ctx.setSr_wv (x : Ctx) (r : SReg) (v : Word) : (x.setSr r v).wv = x.wv := by
  unfold Ctx.setSr; split <;> rfl
@[simp] theorem Ctx.setSr_mn (x : Ctx) (r : SReg) (v : Word) : (x.setSr r v).mn = x.mn := by
  unfold Ctx.setSr; split <;> rfl
@[simp] theorem Ctx.setSr_dict (x : Ctx) (r : SReg) (v : Word) : (x.setSr r v).dict = x.dict := by
  unfold Ctx.setSr; split <;> rfl
@[simp] theorem Ctx.setSr_regs (x : Ctx) (r : SReg) (v : Word) : (x.setSr r v).regs = x.regs := by
  unfold Ctx.setSr; split <;> rfl
@[simp] theorem Ctx.setSr_firedNow (x : Ctx) (r : SReg) (v : Word) : (x.setSr r v).firedNow = x.firedNow := by
  unfold Ctx.setSr; split <;> rfl
@[simp] theorem Ctx.setSr_tags (x : Ctx) (r : SReg) (v : Word) : (x.setSr r v).tags = x.tags := by
  unfold Ctx.setSr; split <;> rfl
@[simp] theorem Ctx.setSr_tagOps (x : Ctx) (r : SReg) (v : Word) : (x.setSr r v).tagOps = x.tagOps := by
  unfold Ctx.setSr; split <;> rfl
@[simp] theorem Ctx.setSr_vLanded (x : Ctx) (r : SReg) (v : Word) : (x.setSr r v).vLanded = x.vLanded := by
  unfold Ctx.setSr; split <;> rfl
@[simp] theorem Ctx.setSr_cmds (x : Ctx) (r : SReg) (v : Word) : (x.setSr r v).cmds = x.cmds := by
  unfold Ctx.setSr; split <;> rfl
@[simp] theorem Ctx.setSr_mnest (x : Ctx) (r : SReg) (v : Word) : (x.setSr r v).mnest = x.mnest := by
  unfold Ctx.setSr; split <;> rfl
@[simp] theorem Ctx.setSr_tables (x : Ctx) (r : SReg) (v : Word) : (x.setSr r v).tables = x.tables := by
  unfold Ctx.setSr; split <;> rfl
@[simp] theorem Ctx.setSr_handle (x : Ctx) (r : SReg) (v : Word) : (x.setSr r v).handle = x.handle := by
  unfold Ctx.setSr; split <;> rfl
@[simp] theorem Ctx.setSr_est (x : Ctx) (r : SReg) (v : Word) : (x.setSr r v).est = x.est := by
  unfold Ctx.setSr; split <;> rfl
@[simp] theorem Ctx.setSr_estNs (x : Ctx) (r : SReg) (v : Word) : (x.setSr r v).estNs = x.estNs := by
  unfold Ctx.setSr; split <;> rfl
@[simp] theorem Ctx.setSr_allot (x : Ctx) (r : SReg) (v : Word) : (x.setSr r v).allot = x.allot := by
  unfold Ctx.setSr; split <;> rfl
@[simp] theorem Ctx.setSr_shadow (x : Ctx) (r : SReg) (v : Word) : (x.setSr r v).shadow = x.shadow := by
  unfold Ctx.setSr; split <;> rfl
@[simp] theorem Ctx.setSr_failed (x : Ctx) (r : SReg) (v : Word) : (x.setSr r v).failed = x.failed := by
  unfold Ctx.setSr; split <;> rfl
@[simp] theorem Ctx.setPr_s (x : Ctx) (r : PReg) (v : Bool) : (x.setPr r v).s = x.s := by
  unfold Ctx.setPr; split <;> rfl
@[simp] theorem Ctx.setPr_k (x : Ctx) (r : PReg) (v : Bool) : (x.setPr r v).k = x.k := by
  unfold Ctx.setPr; split <;> rfl
@[simp] theorem Ctx.setPr_views (x : Ctx) (r : PReg) (v : Bool) : (x.setPr r v).views = x.views := by
  unfold Ctx.setPr; split <;> rfl
@[simp] theorem Ctx.setPr_tv (x : Ctx) (r : PReg) (v : Bool) : (x.setPr r v).tv = x.tv := by
  unfold Ctx.setPr; split <;> rfl
@[simp] theorem Ctx.setPr_av (x : Ctx) (r : PReg) (v : Bool) : (x.setPr r v).av = x.av := by
  unfold Ctx.setPr; split <;> rfl
@[simp] theorem Ctx.setPr_eph (x : Ctx) (r : PReg) (v : Bool) : (x.setPr r v).eph = x.eph := by
  unfold Ctx.setPr; split <;> rfl
@[simp] theorem Ctx.setPr_strC (x : Ctx) (r : PReg) (v : Bool) : (x.setPr r v).strC = x.strC := by
  unfold Ctx.setPr; split <;> rfl
@[simp] theorem Ctx.setPr_strV (x : Ctx) (r : PReg) (v : Bool) : (x.setPr r v).strV = x.strV := by
  unfold Ctx.setPr; split <;> rfl
@[simp] theorem Ctx.setPr_strM (x : Ctx) (r : PReg) (v : Bool) : (x.setPr r v).strM = x.strM := by
  unfold Ctx.setPr; split <;> rfl
@[simp] theorem Ctx.setPr_strX (x : Ctx) (r : PReg) (v : Bool) : (x.setPr r v).strX = x.strX := by
  unfold Ctx.setPr; split <;> rfl
@[simp] theorem Ctx.setPr_tok (x : Ctx) (r : PReg) (v : Bool) : (x.setPr r v).tok = x.tok := by
  unfold Ctx.setPr; split <;> rfl
@[simp] theorem Ctx.setPr_fresh (x : Ctx) (r : PReg) (v : Bool) : (x.setPr r v).fresh = x.fresh := by
  unfold Ctx.setPr; split <;> rfl
@[simp] theorem Ctx.setPr_rsv (x : Ctx) (r : PReg) (v : Bool) : (x.setPr r v).rsv = x.rsv := by
  unfold Ctx.setPr; split <;> rfl
@[simp] theorem Ctx.setPr_wdog (x : Ctx) (r : PReg) (v : Bool) : (x.setPr r v).wdog = x.wdog := by
  unfold Ctx.setPr; split <;> rfl
@[simp] theorem Ctx.setPr_oorFlag (x : Ctx) (r : PReg) (v : Bool) : (x.setPr r v).oorFlag = x.oorFlag := by
  unfold Ctx.setPr; split <;> rfl
@[simp] theorem Ctx.setPr_oorFresh (x : Ctx) (r : PReg) (v : Bool) : (x.setPr r v).oorFresh = x.oorFresh := by
  unfold Ctx.setPr; split <;> rfl
@[simp] theorem Ctx.setPr_oorNow (x : Ctx) (r : PReg) (v : Bool) : (x.setPr r v).oorNow = x.oorNow := by
  unfold Ctx.setPr; split <;> rfl
@[simp] theorem Ctx.setPr_oorStream (x : Ctx) (r : PReg) (v : Bool) : (x.setPr r v).oorStream = x.oorStream := by
  unfold Ctx.setPr; split <;> rfl
@[simp] theorem Ctx.setPr_oorSpace (x : Ctx) (r : PReg) (v : Bool) : (x.setPr r v).oorSpace = x.oorSpace := by
  unfold Ctx.setPr; split <;> rfl
@[simp] theorem Ctx.setPr_oorWrite (x : Ctx) (r : PReg) (v : Bool) : (x.setPr r v).oorWrite = x.oorWrite := by
  unfold Ctx.setPr; split <;> rfl
@[simp] theorem Ctx.setPr_oorAddr (x : Ctx) (r : PReg) (v : Bool) : (x.setPr r v).oorAddr = x.oorAddr := by
  unfold Ctx.setPr; split <;> rfl
@[simp] theorem Ctx.setPr_lend (x : Ctx) (r : PReg) (v : Bool) : (x.setPr r v).lend = x.lend := by
  unfold Ctx.setPr; split <;> rfl
@[simp] theorem Ctx.setPr_cause (x : Ctx) (r : PReg) (v : Bool) : (x.setPr r v).cause = x.cause := by
  unfold Ctx.setPr; split <;> rfl
@[simp] theorem Ctx.setPr_trapPc (x : Ctx) (r : PReg) (v : Bool) : (x.setPr r v).trapPc = x.trapPc := by
  unfold Ctx.setPr; split <;> rfl
@[simp] theorem Ctx.setPr_trapAddr (x : Ctx) (r : PReg) (v : Bool) : (x.setPr r v).trapAddr = x.trapAddr := by
  unfold Ctx.setPr; split <;> rfl
@[simp] theorem Ctx.setPr_nestCause (x : Ctx) (r : PReg) (v : Bool) : (x.setPr r v).nestCause = x.nestCause := by
  unfold Ctx.setPr; split <;> rfl
@[simp] theorem Ctx.setPr_nestAddr (x : Ctx) (r : PReg) (v : Bool) : (x.setPr r v).nestAddr = x.nestAddr := by
  unfold Ctx.setPr; split <;> rfl
@[simp] theorem Ctx.setPr_tsp (x : Ctx) (r : PReg) (v : Bool) : (x.setPr r v).tsp = x.tsp := by
  unfold Ctx.setPr; split <;> rfl
@[simp] theorem Ctx.setPr_tnest (x : Ctx) (r : PReg) (v : Bool) : (x.setPr r v).tnest = x.tnest := by
  unfold Ctx.setPr; split <;> rfl
@[simp] theorem Ctx.setPr_tdict (x : Ctx) (r : PReg) (v : Bool) : (x.setPr r v).tdict = x.tdict := by
  unfold Ctx.setPr; split <;> rfl
@[simp] theorem Ctx.setPr_tdefer (x : Ctx) (r : PReg) (v : Bool) : (x.setPr r v).tdefer = x.tdefer := by
  unfold Ctx.setPr; split <;> rfl
@[simp] theorem Ctx.setPr_tstream (x : Ctx) (r : PReg) (v : Bool) : (x.setPr r v).tstream = x.tstream := by
  unfold Ctx.setPr; split <;> rfl
@[simp] theorem Ctx.setPr_te (x : Ctx) (r : PReg) (v : Bool) : (x.setPr r v).te = x.te := by
  unfold Ctx.setPr; split <;> rfl
@[simp] theorem Ctx.setPr_depCount (x : Ctx) (r : PReg) (v : Bool) : (x.setPr r v).depCount = x.depCount := by
  unfold Ctx.setPr; split <;> rfl
@[simp] theorem Ctx.setPr_sat (x : Ctx) (r : PReg) (v : Bool) : (x.setPr r v).sat = x.sat := by
  unfold Ctx.setPr; split <;> rfl
@[simp] theorem Ctx.setPr_daz (x : Ctx) (r : PReg) (v : Bool) : (x.setPr r v).daz = x.daz := by
  unfold Ctx.setPr; split <;> rfl
@[simp] theorem Ctx.setPr_ftz (x : Ctx) (r : PReg) (v : Bool) : (x.setPr r v).ftz = x.ftz := by
  unfold Ctx.setPr; split <;> rfl
@[simp] theorem Ctx.setPr_srk (x : Ctx) (r : PReg) (v : Bool) : (x.setPr r v).srk = x.srk := by
  unfold Ctx.setPr; split <;> rfl
@[simp] theorem Ctx.setPr_crm (x : Ctx) (r : PReg) (v : Bool) : (x.setPr r v).crm = x.crm := by
  unfold Ctx.setPr; split <;> rfl
@[simp] theorem Ctx.setPr_arm (x : Ctx) (r : PReg) (v : Bool) : (x.setPr r v).arm = x.arm := by
  unfold Ctx.setPr; split <;> rfl
@[simp] theorem Ctx.setPr_vflags (x : Ctx) (r : PReg) (v : Bool) : (x.setPr r v).vflags = x.vflags := by
  unfold Ctx.setPr; split <;> rfl
@[simp] theorem Ctx.setPr_vNow (x : Ctx) (r : PReg) (v : Bool) : (x.setPr r v).vNow = x.vNow := by
  unfold Ctx.setPr; split <;> rfl
@[simp] theorem Ctx.setPr_mNow (x : Ctx) (r : PReg) (v : Bool) : (x.setPr r v).mNow = x.mNow := by
  unfold Ctx.setPr; split <;> rfl
@[simp] theorem Ctx.setPr_actm (x : Ctx) (r : PReg) (v : Bool) : (x.setPr r v).actm = x.actm := by
  unfold Ctx.setPr; split <;> rfl
@[simp] theorem Ctx.setPr_mflags (x : Ctx) (r : PReg) (v : Bool) : (x.setPr r v).mflags = x.mflags := by
  unfold Ctx.setPr; split <;> rfl
@[simp] theorem Ctx.setPr_mcrm (x : Ctx) (r : PReg) (v : Bool) : (x.setPr r v).mcrm = x.mcrm := by
  unfold Ctx.setPr; split <;> rfl
@[simp] theorem Ctx.setPr_msnap (x : Ctx) (r : PReg) (v : Bool) : (x.setPr r v).msnap = x.msnap := by
  unfold Ctx.setPr; split <;> rfl
@[simp] theorem Ctx.setPr_wv (x : Ctx) (r : PReg) (v : Bool) : (x.setPr r v).wv = x.wv := by
  unfold Ctx.setPr; split <;> rfl
@[simp] theorem Ctx.setPr_mn (x : Ctx) (r : PReg) (v : Bool) : (x.setPr r v).mn = x.mn := by
  unfold Ctx.setPr; split <;> rfl
@[simp] theorem Ctx.setPr_dict (x : Ctx) (r : PReg) (v : Bool) : (x.setPr r v).dict = x.dict := by
  unfold Ctx.setPr; split <;> rfl
@[simp] theorem Ctx.setPr_regs (x : Ctx) (r : PReg) (v : Bool) : (x.setPr r v).regs = x.regs := by
  unfold Ctx.setPr; split <;> rfl
@[simp] theorem Ctx.setPr_firedNow (x : Ctx) (r : PReg) (v : Bool) : (x.setPr r v).firedNow = x.firedNow := by
  unfold Ctx.setPr; split <;> rfl
@[simp] theorem Ctx.setPr_tags (x : Ctx) (r : PReg) (v : Bool) : (x.setPr r v).tags = x.tags := by
  unfold Ctx.setPr; split <;> rfl
@[simp] theorem Ctx.setPr_tagOps (x : Ctx) (r : PReg) (v : Bool) : (x.setPr r v).tagOps = x.tagOps := by
  unfold Ctx.setPr; split <;> rfl
@[simp] theorem Ctx.setPr_vLanded (x : Ctx) (r : PReg) (v : Bool) : (x.setPr r v).vLanded = x.vLanded := by
  unfold Ctx.setPr; split <;> rfl
@[simp] theorem Ctx.setPr_cmds (x : Ctx) (r : PReg) (v : Bool) : (x.setPr r v).cmds = x.cmds := by
  unfold Ctx.setPr; split <;> rfl
@[simp] theorem Ctx.setPr_mnest (x : Ctx) (r : PReg) (v : Bool) : (x.setPr r v).mnest = x.mnest := by
  unfold Ctx.setPr; split <;> rfl
@[simp] theorem Ctx.setPr_tables (x : Ctx) (r : PReg) (v : Bool) : (x.setPr r v).tables = x.tables := by
  unfold Ctx.setPr; split <;> rfl
@[simp] theorem Ctx.setPr_handle (x : Ctx) (r : PReg) (v : Bool) : (x.setPr r v).handle = x.handle := by
  unfold Ctx.setPr; split <;> rfl
@[simp] theorem Ctx.setPr_est (x : Ctx) (r : PReg) (v : Bool) : (x.setPr r v).est = x.est := by
  unfold Ctx.setPr; split <;> rfl
@[simp] theorem Ctx.setPr_estNs (x : Ctx) (r : PReg) (v : Bool) : (x.setPr r v).estNs = x.estNs := by
  unfold Ctx.setPr; split <;> rfl
@[simp] theorem Ctx.setPr_allot (x : Ctx) (r : PReg) (v : Bool) : (x.setPr r v).allot = x.allot := by
  unfold Ctx.setPr; split <;> rfl
@[simp] theorem Ctx.setPr_shadow (x : Ctx) (r : PReg) (v : Bool) : (x.setPr r v).shadow = x.shadow := by
  unfold Ctx.setPr; split <;> rfl
@[simp] theorem Ctx.setPr_failed (x : Ctx) (r : PReg) (v : Bool) : (x.setPr r v).failed = x.failed := by
  unfold Ctx.setPr; split <;> rfl
@[simp] theorem Ctx.setKr_s (x : Ctx) (r : KReg) (v : BitVec 128) : (x.setKr r v).s = x.s := by
  unfold Ctx.setKr; split <;> rfl
@[simp] theorem Ctx.setKr_p (x : Ctx) (r : KReg) (v : BitVec 128) : (x.setKr r v).p = x.p := by
  unfold Ctx.setKr; split <;> rfl
@[simp] theorem Ctx.setKr_views (x : Ctx) (r : KReg) (v : BitVec 128) : (x.setKr r v).views = x.views := by
  unfold Ctx.setKr; split <;> rfl
@[simp] theorem Ctx.setKr_tv (x : Ctx) (r : KReg) (v : BitVec 128) : (x.setKr r v).tv = x.tv := by
  unfold Ctx.setKr; split <;> rfl
@[simp] theorem Ctx.setKr_av (x : Ctx) (r : KReg) (v : BitVec 128) : (x.setKr r v).av = x.av := by
  unfold Ctx.setKr; split <;> rfl
@[simp] theorem Ctx.setKr_eph (x : Ctx) (r : KReg) (v : BitVec 128) : (x.setKr r v).eph = x.eph := by
  unfold Ctx.setKr; split <;> rfl
@[simp] theorem Ctx.setKr_strC (x : Ctx) (r : KReg) (v : BitVec 128) : (x.setKr r v).strC = x.strC := by
  unfold Ctx.setKr; split <;> rfl
@[simp] theorem Ctx.setKr_strV (x : Ctx) (r : KReg) (v : BitVec 128) : (x.setKr r v).strV = x.strV := by
  unfold Ctx.setKr; split <;> rfl
@[simp] theorem Ctx.setKr_strM (x : Ctx) (r : KReg) (v : BitVec 128) : (x.setKr r v).strM = x.strM := by
  unfold Ctx.setKr; split <;> rfl
@[simp] theorem Ctx.setKr_strX (x : Ctx) (r : KReg) (v : BitVec 128) : (x.setKr r v).strX = x.strX := by
  unfold Ctx.setKr; split <;> rfl
@[simp] theorem Ctx.setKr_tok (x : Ctx) (r : KReg) (v : BitVec 128) : (x.setKr r v).tok = x.tok := by
  unfold Ctx.setKr; split <;> rfl
@[simp] theorem Ctx.setKr_fresh (x : Ctx) (r : KReg) (v : BitVec 128) : (x.setKr r v).fresh = x.fresh := by
  unfold Ctx.setKr; split <;> rfl
@[simp] theorem Ctx.setKr_rsv (x : Ctx) (r : KReg) (v : BitVec 128) : (x.setKr r v).rsv = x.rsv := by
  unfold Ctx.setKr; split <;> rfl
@[simp] theorem Ctx.setKr_wdog (x : Ctx) (r : KReg) (v : BitVec 128) : (x.setKr r v).wdog = x.wdog := by
  unfold Ctx.setKr; split <;> rfl
@[simp] theorem Ctx.setKr_oorFlag (x : Ctx) (r : KReg) (v : BitVec 128) : (x.setKr r v).oorFlag = x.oorFlag := by
  unfold Ctx.setKr; split <;> rfl
@[simp] theorem Ctx.setKr_oorFresh (x : Ctx) (r : KReg) (v : BitVec 128) : (x.setKr r v).oorFresh = x.oorFresh := by
  unfold Ctx.setKr; split <;> rfl
@[simp] theorem Ctx.setKr_oorNow (x : Ctx) (r : KReg) (v : BitVec 128) : (x.setKr r v).oorNow = x.oorNow := by
  unfold Ctx.setKr; split <;> rfl
@[simp] theorem Ctx.setKr_oorStream (x : Ctx) (r : KReg) (v : BitVec 128) : (x.setKr r v).oorStream = x.oorStream := by
  unfold Ctx.setKr; split <;> rfl
@[simp] theorem Ctx.setKr_oorSpace (x : Ctx) (r : KReg) (v : BitVec 128) : (x.setKr r v).oorSpace = x.oorSpace := by
  unfold Ctx.setKr; split <;> rfl
@[simp] theorem Ctx.setKr_oorWrite (x : Ctx) (r : KReg) (v : BitVec 128) : (x.setKr r v).oorWrite = x.oorWrite := by
  unfold Ctx.setKr; split <;> rfl
@[simp] theorem Ctx.setKr_oorAddr (x : Ctx) (r : KReg) (v : BitVec 128) : (x.setKr r v).oorAddr = x.oorAddr := by
  unfold Ctx.setKr; split <;> rfl
@[simp] theorem Ctx.setKr_lend (x : Ctx) (r : KReg) (v : BitVec 128) : (x.setKr r v).lend = x.lend := by
  unfold Ctx.setKr; split <;> rfl
@[simp] theorem Ctx.setKr_cause (x : Ctx) (r : KReg) (v : BitVec 128) : (x.setKr r v).cause = x.cause := by
  unfold Ctx.setKr; split <;> rfl
@[simp] theorem Ctx.setKr_trapPc (x : Ctx) (r : KReg) (v : BitVec 128) : (x.setKr r v).trapPc = x.trapPc := by
  unfold Ctx.setKr; split <;> rfl
@[simp] theorem Ctx.setKr_trapAddr (x : Ctx) (r : KReg) (v : BitVec 128) : (x.setKr r v).trapAddr = x.trapAddr := by
  unfold Ctx.setKr; split <;> rfl
@[simp] theorem Ctx.setKr_nestCause (x : Ctx) (r : KReg) (v : BitVec 128) : (x.setKr r v).nestCause = x.nestCause := by
  unfold Ctx.setKr; split <;> rfl
@[simp] theorem Ctx.setKr_nestAddr (x : Ctx) (r : KReg) (v : BitVec 128) : (x.setKr r v).nestAddr = x.nestAddr := by
  unfold Ctx.setKr; split <;> rfl
@[simp] theorem Ctx.setKr_tsp (x : Ctx) (r : KReg) (v : BitVec 128) : (x.setKr r v).tsp = x.tsp := by
  unfold Ctx.setKr; split <;> rfl
@[simp] theorem Ctx.setKr_tnest (x : Ctx) (r : KReg) (v : BitVec 128) : (x.setKr r v).tnest = x.tnest := by
  unfold Ctx.setKr; split <;> rfl
@[simp] theorem Ctx.setKr_tdict (x : Ctx) (r : KReg) (v : BitVec 128) : (x.setKr r v).tdict = x.tdict := by
  unfold Ctx.setKr; split <;> rfl
@[simp] theorem Ctx.setKr_tdefer (x : Ctx) (r : KReg) (v : BitVec 128) : (x.setKr r v).tdefer = x.tdefer := by
  unfold Ctx.setKr; split <;> rfl
@[simp] theorem Ctx.setKr_tstream (x : Ctx) (r : KReg) (v : BitVec 128) : (x.setKr r v).tstream = x.tstream := by
  unfold Ctx.setKr; split <;> rfl
@[simp] theorem Ctx.setKr_te (x : Ctx) (r : KReg) (v : BitVec 128) : (x.setKr r v).te = x.te := by
  unfold Ctx.setKr; split <;> rfl
@[simp] theorem Ctx.setKr_depCount (x : Ctx) (r : KReg) (v : BitVec 128) : (x.setKr r v).depCount = x.depCount := by
  unfold Ctx.setKr; split <;> rfl
@[simp] theorem Ctx.setKr_sat (x : Ctx) (r : KReg) (v : BitVec 128) : (x.setKr r v).sat = x.sat := by
  unfold Ctx.setKr; split <;> rfl
@[simp] theorem Ctx.setKr_daz (x : Ctx) (r : KReg) (v : BitVec 128) : (x.setKr r v).daz = x.daz := by
  unfold Ctx.setKr; split <;> rfl
@[simp] theorem Ctx.setKr_ftz (x : Ctx) (r : KReg) (v : BitVec 128) : (x.setKr r v).ftz = x.ftz := by
  unfold Ctx.setKr; split <;> rfl
@[simp] theorem Ctx.setKr_srk (x : Ctx) (r : KReg) (v : BitVec 128) : (x.setKr r v).srk = x.srk := by
  unfold Ctx.setKr; split <;> rfl
@[simp] theorem Ctx.setKr_crm (x : Ctx) (r : KReg) (v : BitVec 128) : (x.setKr r v).crm = x.crm := by
  unfold Ctx.setKr; split <;> rfl
@[simp] theorem Ctx.setKr_arm (x : Ctx) (r : KReg) (v : BitVec 128) : (x.setKr r v).arm = x.arm := by
  unfold Ctx.setKr; split <;> rfl
@[simp] theorem Ctx.setKr_vflags (x : Ctx) (r : KReg) (v : BitVec 128) : (x.setKr r v).vflags = x.vflags := by
  unfold Ctx.setKr; split <;> rfl
@[simp] theorem Ctx.setKr_vNow (x : Ctx) (r : KReg) (v : BitVec 128) : (x.setKr r v).vNow = x.vNow := by
  unfold Ctx.setKr; split <;> rfl
@[simp] theorem Ctx.setKr_mNow (x : Ctx) (r : KReg) (v : BitVec 128) : (x.setKr r v).mNow = x.mNow := by
  unfold Ctx.setKr; split <;> rfl
@[simp] theorem Ctx.setKr_actm (x : Ctx) (r : KReg) (v : BitVec 128) : (x.setKr r v).actm = x.actm := by
  unfold Ctx.setKr; split <;> rfl
@[simp] theorem Ctx.setKr_mflags (x : Ctx) (r : KReg) (v : BitVec 128) : (x.setKr r v).mflags = x.mflags := by
  unfold Ctx.setKr; split <;> rfl
@[simp] theorem Ctx.setKr_mcrm (x : Ctx) (r : KReg) (v : BitVec 128) : (x.setKr r v).mcrm = x.mcrm := by
  unfold Ctx.setKr; split <;> rfl
@[simp] theorem Ctx.setKr_msnap (x : Ctx) (r : KReg) (v : BitVec 128) : (x.setKr r v).msnap = x.msnap := by
  unfold Ctx.setKr; split <;> rfl
@[simp] theorem Ctx.setKr_wv (x : Ctx) (r : KReg) (v : BitVec 128) : (x.setKr r v).wv = x.wv := by
  unfold Ctx.setKr; split <;> rfl
@[simp] theorem Ctx.setKr_mn (x : Ctx) (r : KReg) (v : BitVec 128) : (x.setKr r v).mn = x.mn := by
  unfold Ctx.setKr; split <;> rfl
@[simp] theorem Ctx.setKr_dict (x : Ctx) (r : KReg) (v : BitVec 128) : (x.setKr r v).dict = x.dict := by
  unfold Ctx.setKr; split <;> rfl
@[simp] theorem Ctx.setKr_regs (x : Ctx) (r : KReg) (v : BitVec 128) : (x.setKr r v).regs = x.regs := by
  unfold Ctx.setKr; split <;> rfl
@[simp] theorem Ctx.setKr_firedNow (x : Ctx) (r : KReg) (v : BitVec 128) : (x.setKr r v).firedNow = x.firedNow := by
  unfold Ctx.setKr; split <;> rfl
@[simp] theorem Ctx.setKr_tags (x : Ctx) (r : KReg) (v : BitVec 128) : (x.setKr r v).tags = x.tags := by
  unfold Ctx.setKr; split <;> rfl
@[simp] theorem Ctx.setKr_tagOps (x : Ctx) (r : KReg) (v : BitVec 128) : (x.setKr r v).tagOps = x.tagOps := by
  unfold Ctx.setKr; split <;> rfl
@[simp] theorem Ctx.setKr_vLanded (x : Ctx) (r : KReg) (v : BitVec 128) : (x.setKr r v).vLanded = x.vLanded := by
  unfold Ctx.setKr; split <;> rfl
@[simp] theorem Ctx.setKr_cmds (x : Ctx) (r : KReg) (v : BitVec 128) : (x.setKr r v).cmds = x.cmds := by
  unfold Ctx.setKr; split <;> rfl
@[simp] theorem Ctx.setKr_mnest (x : Ctx) (r : KReg) (v : BitVec 128) : (x.setKr r v).mnest = x.mnest := by
  unfold Ctx.setKr; split <;> rfl
@[simp] theorem Ctx.setKr_tables (x : Ctx) (r : KReg) (v : BitVec 128) : (x.setKr r v).tables = x.tables := by
  unfold Ctx.setKr; split <;> rfl
@[simp] theorem Ctx.setKr_handle (x : Ctx) (r : KReg) (v : BitVec 128) : (x.setKr r v).handle = x.handle := by
  unfold Ctx.setKr; split <;> rfl
@[simp] theorem Ctx.setKr_est (x : Ctx) (r : KReg) (v : BitVec 128) : (x.setKr r v).est = x.est := by
  unfold Ctx.setKr; split <;> rfl
@[simp] theorem Ctx.setKr_estNs (x : Ctx) (r : KReg) (v : BitVec 128) : (x.setKr r v).estNs = x.estNs := by
  unfold Ctx.setKr; split <;> rfl
@[simp] theorem Ctx.setKr_allot (x : Ctx) (r : KReg) (v : BitVec 128) : (x.setKr r v).allot = x.allot := by
  unfold Ctx.setKr; split <;> rfl
@[simp] theorem Ctx.setKr_shadow (x : Ctx) (r : KReg) (v : BitVec 128) : (x.setKr r v).shadow = x.shadow := by
  unfold Ctx.setKr; split <;> rfl
@[simp] theorem Ctx.setKr_failed (x : Ctx) (r : KReg) (v : BitVec 128) : (x.setKr r v).failed = x.failed := by
  unfold Ctx.setKr; split <;> rfl
@[simp] theorem Ctx.consume_s (x : Ctx) (q n : Nat) : (x.consume q n).s = x.s := rfl
@[simp] theorem Ctx.consume_p (x : Ctx) (q n : Nat) : (x.consume q n).p = x.p := rfl
@[simp] theorem Ctx.consume_k (x : Ctx) (q n : Nat) : (x.consume q n).k = x.k := rfl
@[simp] theorem Ctx.consume_views (x : Ctx) (q n : Nat) : (x.consume q n).views = x.views := rfl
@[simp] theorem Ctx.consume_tv (x : Ctx) (q n : Nat) : (x.consume q n).tv = x.tv := rfl
@[simp] theorem Ctx.consume_av (x : Ctx) (q n : Nat) : (x.consume q n).av = x.av := rfl
@[simp] theorem Ctx.consume_eph (x : Ctx) (q n : Nat) : (x.consume q n).eph = x.eph := rfl
@[simp] theorem Ctx.consume_strC (x : Ctx) (q n : Nat) : (x.consume q n).strC = x.strC := rfl
@[simp] theorem Ctx.consume_strV (x : Ctx) (q n : Nat) : (x.consume q n).strV = x.strV := rfl
@[simp] theorem Ctx.consume_strM (x : Ctx) (q n : Nat) : (x.consume q n).strM = x.strM := rfl
@[simp] theorem Ctx.consume_strX (x : Ctx) (q n : Nat) : (x.consume q n).strX = x.strX := rfl
@[simp] theorem Ctx.consume_fresh (x : Ctx) (q n : Nat) : (x.consume q n).fresh = x.fresh := rfl
@[simp] theorem Ctx.consume_rsv (x : Ctx) (q n : Nat) : (x.consume q n).rsv = x.rsv := rfl
@[simp] theorem Ctx.consume_wdog (x : Ctx) (q n : Nat) : (x.consume q n).wdog = x.wdog := rfl
@[simp] theorem Ctx.consume_oorFlag (x : Ctx) (q n : Nat) : (x.consume q n).oorFlag = x.oorFlag := rfl
@[simp] theorem Ctx.consume_oorFresh (x : Ctx) (q n : Nat) : (x.consume q n).oorFresh = x.oorFresh := rfl
@[simp] theorem Ctx.consume_oorNow (x : Ctx) (q n : Nat) : (x.consume q n).oorNow = x.oorNow := rfl
@[simp] theorem Ctx.consume_oorStream (x : Ctx) (q n : Nat) : (x.consume q n).oorStream = x.oorStream := rfl
@[simp] theorem Ctx.consume_oorSpace (x : Ctx) (q n : Nat) : (x.consume q n).oorSpace = x.oorSpace := rfl
@[simp] theorem Ctx.consume_oorWrite (x : Ctx) (q n : Nat) : (x.consume q n).oorWrite = x.oorWrite := rfl
@[simp] theorem Ctx.consume_oorAddr (x : Ctx) (q n : Nat) : (x.consume q n).oorAddr = x.oorAddr := rfl
@[simp] theorem Ctx.consume_lend (x : Ctx) (q n : Nat) : (x.consume q n).lend = x.lend := rfl
@[simp] theorem Ctx.consume_cause (x : Ctx) (q n : Nat) : (x.consume q n).cause = x.cause := rfl
@[simp] theorem Ctx.consume_trapPc (x : Ctx) (q n : Nat) : (x.consume q n).trapPc = x.trapPc := rfl
@[simp] theorem Ctx.consume_trapAddr (x : Ctx) (q n : Nat) : (x.consume q n).trapAddr = x.trapAddr := rfl
@[simp] theorem Ctx.consume_nestCause (x : Ctx) (q n : Nat) : (x.consume q n).nestCause = x.nestCause := rfl
@[simp] theorem Ctx.consume_nestAddr (x : Ctx) (q n : Nat) : (x.consume q n).nestAddr = x.nestAddr := rfl
@[simp] theorem Ctx.consume_tsp (x : Ctx) (q n : Nat) : (x.consume q n).tsp = x.tsp := rfl
@[simp] theorem Ctx.consume_tnest (x : Ctx) (q n : Nat) : (x.consume q n).tnest = x.tnest := rfl
@[simp] theorem Ctx.consume_tdict (x : Ctx) (q n : Nat) : (x.consume q n).tdict = x.tdict := rfl
@[simp] theorem Ctx.consume_tdefer (x : Ctx) (q n : Nat) : (x.consume q n).tdefer = x.tdefer := rfl
@[simp] theorem Ctx.consume_tstream (x : Ctx) (q n : Nat) : (x.consume q n).tstream = x.tstream := rfl
@[simp] theorem Ctx.consume_te (x : Ctx) (q n : Nat) : (x.consume q n).te = x.te := rfl
@[simp] theorem Ctx.consume_depCount (x : Ctx) (q n : Nat) : (x.consume q n).depCount = x.depCount := rfl
@[simp] theorem Ctx.consume_sat (x : Ctx) (q n : Nat) : (x.consume q n).sat = x.sat := rfl
@[simp] theorem Ctx.consume_daz (x : Ctx) (q n : Nat) : (x.consume q n).daz = x.daz := rfl
@[simp] theorem Ctx.consume_ftz (x : Ctx) (q n : Nat) : (x.consume q n).ftz = x.ftz := rfl
@[simp] theorem Ctx.consume_srk (x : Ctx) (q n : Nat) : (x.consume q n).srk = x.srk := rfl
@[simp] theorem Ctx.consume_crm (x : Ctx) (q n : Nat) : (x.consume q n).crm = x.crm := rfl
@[simp] theorem Ctx.consume_arm (x : Ctx) (q n : Nat) : (x.consume q n).arm = x.arm := rfl
@[simp] theorem Ctx.consume_vflags (x : Ctx) (q n : Nat) : (x.consume q n).vflags = x.vflags := rfl
@[simp] theorem Ctx.consume_vNow (x : Ctx) (q n : Nat) : (x.consume q n).vNow = x.vNow := rfl
@[simp] theorem Ctx.consume_mNow (x : Ctx) (q n : Nat) : (x.consume q n).mNow = x.mNow := rfl
@[simp] theorem Ctx.consume_actm (x : Ctx) (q n : Nat) : (x.consume q n).actm = x.actm := rfl
@[simp] theorem Ctx.consume_mflags (x : Ctx) (q n : Nat) : (x.consume q n).mflags = x.mflags := rfl
@[simp] theorem Ctx.consume_mcrm (x : Ctx) (q n : Nat) : (x.consume q n).mcrm = x.mcrm := rfl
@[simp] theorem Ctx.consume_msnap (x : Ctx) (q n : Nat) : (x.consume q n).msnap = x.msnap := rfl
@[simp] theorem Ctx.consume_wv (x : Ctx) (q n : Nat) : (x.consume q n).wv = x.wv := rfl
@[simp] theorem Ctx.consume_mn (x : Ctx) (q n : Nat) : (x.consume q n).mn = x.mn := rfl
@[simp] theorem Ctx.consume_dict (x : Ctx) (q n : Nat) : (x.consume q n).dict = x.dict := rfl
@[simp] theorem Ctx.consume_regs (x : Ctx) (q n : Nat) : (x.consume q n).regs = x.regs := rfl
@[simp] theorem Ctx.consume_firedNow (x : Ctx) (q n : Nat) : (x.consume q n).firedNow = x.firedNow := rfl
@[simp] theorem Ctx.consume_tags (x : Ctx) (q n : Nat) : (x.consume q n).tags = x.tags := rfl
@[simp] theorem Ctx.consume_tagOps (x : Ctx) (q n : Nat) : (x.consume q n).tagOps = x.tagOps := rfl
@[simp] theorem Ctx.consume_vLanded (x : Ctx) (q n : Nat) : (x.consume q n).vLanded = x.vLanded := rfl
@[simp] theorem Ctx.consume_cmds (x : Ctx) (q n : Nat) : (x.consume q n).cmds = x.cmds := rfl
@[simp] theorem Ctx.consume_mnest (x : Ctx) (q n : Nat) : (x.consume q n).mnest = x.mnest := rfl
@[simp] theorem Ctx.consume_tables (x : Ctx) (q n : Nat) : (x.consume q n).tables = x.tables := rfl
@[simp] theorem Ctx.consume_handle (x : Ctx) (q n : Nat) : (x.consume q n).handle = x.handle := rfl
@[simp] theorem Ctx.consume_est (x : Ctx) (q n : Nat) : (x.consume q n).est = x.est := rfl
@[simp] theorem Ctx.consume_estNs (x : Ctx) (q n : Nat) : (x.consume q n).estNs = x.estNs := rfl
@[simp] theorem Ctx.consume_allot (x : Ctx) (q n : Nat) : (x.consume q n).allot = x.allot := rfl
@[simp] theorem Ctx.consume_shadow (x : Ctx) (q n : Nat) : (x.consume q n).shadow = x.shadow := rfl
@[simp] theorem Ctx.consume_failed (x : Ctx) (q n : Nat) : (x.consume q n).failed = x.failed := rfl
@[simp] theorem Ctx.giveBack_s (x : Ctx) (q n : Nat) : (x.giveBack q n).s = x.s := rfl
@[simp] theorem Ctx.giveBack_p (x : Ctx) (q n : Nat) : (x.giveBack q n).p = x.p := rfl
@[simp] theorem Ctx.giveBack_k (x : Ctx) (q n : Nat) : (x.giveBack q n).k = x.k := rfl
@[simp] theorem Ctx.giveBack_views (x : Ctx) (q n : Nat) : (x.giveBack q n).views = x.views := rfl
@[simp] theorem Ctx.giveBack_tv (x : Ctx) (q n : Nat) : (x.giveBack q n).tv = x.tv := rfl
@[simp] theorem Ctx.giveBack_av (x : Ctx) (q n : Nat) : (x.giveBack q n).av = x.av := rfl
@[simp] theorem Ctx.giveBack_eph (x : Ctx) (q n : Nat) : (x.giveBack q n).eph = x.eph := rfl
@[simp] theorem Ctx.giveBack_strC (x : Ctx) (q n : Nat) : (x.giveBack q n).strC = x.strC := rfl
@[simp] theorem Ctx.giveBack_strV (x : Ctx) (q n : Nat) : (x.giveBack q n).strV = x.strV := rfl
@[simp] theorem Ctx.giveBack_strM (x : Ctx) (q n : Nat) : (x.giveBack q n).strM = x.strM := rfl
@[simp] theorem Ctx.giveBack_strX (x : Ctx) (q n : Nat) : (x.giveBack q n).strX = x.strX := rfl
@[simp] theorem Ctx.giveBack_fresh (x : Ctx) (q n : Nat) : (x.giveBack q n).fresh = x.fresh := rfl
@[simp] theorem Ctx.giveBack_rsv (x : Ctx) (q n : Nat) : (x.giveBack q n).rsv = x.rsv := rfl
@[simp] theorem Ctx.giveBack_wdog (x : Ctx) (q n : Nat) : (x.giveBack q n).wdog = x.wdog := rfl
@[simp] theorem Ctx.giveBack_oorFlag (x : Ctx) (q n : Nat) : (x.giveBack q n).oorFlag = x.oorFlag := rfl
@[simp] theorem Ctx.giveBack_oorFresh (x : Ctx) (q n : Nat) : (x.giveBack q n).oorFresh = x.oorFresh := rfl
@[simp] theorem Ctx.giveBack_oorNow (x : Ctx) (q n : Nat) : (x.giveBack q n).oorNow = x.oorNow := rfl
@[simp] theorem Ctx.giveBack_oorStream (x : Ctx) (q n : Nat) : (x.giveBack q n).oorStream = x.oorStream := rfl
@[simp] theorem Ctx.giveBack_oorSpace (x : Ctx) (q n : Nat) : (x.giveBack q n).oorSpace = x.oorSpace := rfl
@[simp] theorem Ctx.giveBack_oorWrite (x : Ctx) (q n : Nat) : (x.giveBack q n).oorWrite = x.oorWrite := rfl
@[simp] theorem Ctx.giveBack_oorAddr (x : Ctx) (q n : Nat) : (x.giveBack q n).oorAddr = x.oorAddr := rfl
@[simp] theorem Ctx.giveBack_lend (x : Ctx) (q n : Nat) : (x.giveBack q n).lend = x.lend := rfl
@[simp] theorem Ctx.giveBack_cause (x : Ctx) (q n : Nat) : (x.giveBack q n).cause = x.cause := rfl
@[simp] theorem Ctx.giveBack_trapPc (x : Ctx) (q n : Nat) : (x.giveBack q n).trapPc = x.trapPc := rfl
@[simp] theorem Ctx.giveBack_trapAddr (x : Ctx) (q n : Nat) : (x.giveBack q n).trapAddr = x.trapAddr := rfl
@[simp] theorem Ctx.giveBack_nestCause (x : Ctx) (q n : Nat) : (x.giveBack q n).nestCause = x.nestCause := rfl
@[simp] theorem Ctx.giveBack_nestAddr (x : Ctx) (q n : Nat) : (x.giveBack q n).nestAddr = x.nestAddr := rfl
@[simp] theorem Ctx.giveBack_tsp (x : Ctx) (q n : Nat) : (x.giveBack q n).tsp = x.tsp := rfl
@[simp] theorem Ctx.giveBack_tnest (x : Ctx) (q n : Nat) : (x.giveBack q n).tnest = x.tnest := rfl
@[simp] theorem Ctx.giveBack_tdict (x : Ctx) (q n : Nat) : (x.giveBack q n).tdict = x.tdict := rfl
@[simp] theorem Ctx.giveBack_tdefer (x : Ctx) (q n : Nat) : (x.giveBack q n).tdefer = x.tdefer := rfl
@[simp] theorem Ctx.giveBack_tstream (x : Ctx) (q n : Nat) : (x.giveBack q n).tstream = x.tstream := rfl
@[simp] theorem Ctx.giveBack_te (x : Ctx) (q n : Nat) : (x.giveBack q n).te = x.te := rfl
@[simp] theorem Ctx.giveBack_depCount (x : Ctx) (q n : Nat) : (x.giveBack q n).depCount = x.depCount := rfl
@[simp] theorem Ctx.giveBack_sat (x : Ctx) (q n : Nat) : (x.giveBack q n).sat = x.sat := rfl
@[simp] theorem Ctx.giveBack_daz (x : Ctx) (q n : Nat) : (x.giveBack q n).daz = x.daz := rfl
@[simp] theorem Ctx.giveBack_ftz (x : Ctx) (q n : Nat) : (x.giveBack q n).ftz = x.ftz := rfl
@[simp] theorem Ctx.giveBack_srk (x : Ctx) (q n : Nat) : (x.giveBack q n).srk = x.srk := rfl
@[simp] theorem Ctx.giveBack_crm (x : Ctx) (q n : Nat) : (x.giveBack q n).crm = x.crm := rfl
@[simp] theorem Ctx.giveBack_arm (x : Ctx) (q n : Nat) : (x.giveBack q n).arm = x.arm := rfl
@[simp] theorem Ctx.giveBack_vflags (x : Ctx) (q n : Nat) : (x.giveBack q n).vflags = x.vflags := rfl
@[simp] theorem Ctx.giveBack_vNow (x : Ctx) (q n : Nat) : (x.giveBack q n).vNow = x.vNow := rfl
@[simp] theorem Ctx.giveBack_mNow (x : Ctx) (q n : Nat) : (x.giveBack q n).mNow = x.mNow := rfl
@[simp] theorem Ctx.giveBack_actm (x : Ctx) (q n : Nat) : (x.giveBack q n).actm = x.actm := rfl
@[simp] theorem Ctx.giveBack_mflags (x : Ctx) (q n : Nat) : (x.giveBack q n).mflags = x.mflags := rfl
@[simp] theorem Ctx.giveBack_mcrm (x : Ctx) (q n : Nat) : (x.giveBack q n).mcrm = x.mcrm := rfl
@[simp] theorem Ctx.giveBack_msnap (x : Ctx) (q n : Nat) : (x.giveBack q n).msnap = x.msnap := rfl
@[simp] theorem Ctx.giveBack_wv (x : Ctx) (q n : Nat) : (x.giveBack q n).wv = x.wv := rfl
@[simp] theorem Ctx.giveBack_mn (x : Ctx) (q n : Nat) : (x.giveBack q n).mn = x.mn := rfl
@[simp] theorem Ctx.giveBack_dict (x : Ctx) (q n : Nat) : (x.giveBack q n).dict = x.dict := rfl
@[simp] theorem Ctx.giveBack_regs (x : Ctx) (q n : Nat) : (x.giveBack q n).regs = x.regs := rfl
@[simp] theorem Ctx.giveBack_firedNow (x : Ctx) (q n : Nat) : (x.giveBack q n).firedNow = x.firedNow := rfl
@[simp] theorem Ctx.giveBack_tags (x : Ctx) (q n : Nat) : (x.giveBack q n).tags = x.tags := rfl
@[simp] theorem Ctx.giveBack_tagOps (x : Ctx) (q n : Nat) : (x.giveBack q n).tagOps = x.tagOps := rfl
@[simp] theorem Ctx.giveBack_vLanded (x : Ctx) (q n : Nat) : (x.giveBack q n).vLanded = x.vLanded := rfl
@[simp] theorem Ctx.giveBack_cmds (x : Ctx) (q n : Nat) : (x.giveBack q n).cmds = x.cmds := rfl
@[simp] theorem Ctx.giveBack_mnest (x : Ctx) (q n : Nat) : (x.giveBack q n).mnest = x.mnest := rfl
@[simp] theorem Ctx.giveBack_tables (x : Ctx) (q n : Nat) : (x.giveBack q n).tables = x.tables := rfl
@[simp] theorem Ctx.giveBack_handle (x : Ctx) (q n : Nat) : (x.giveBack q n).handle = x.handle := rfl
@[simp] theorem Ctx.giveBack_est (x : Ctx) (q n : Nat) : (x.giveBack q n).est = x.est := rfl
@[simp] theorem Ctx.giveBack_estNs (x : Ctx) (q n : Nat) : (x.giveBack q n).estNs = x.estNs := rfl
@[simp] theorem Ctx.giveBack_allot (x : Ctx) (q n : Nat) : (x.giveBack q n).allot = x.allot := rfl
@[simp] theorem Ctx.giveBack_shadow (x : Ctx) (q n : Nat) : (x.giveBack q n).shadow = x.shadow := rfl
@[simp] theorem Ctx.giveBack_failed (x : Ctx) (q n : Nat) : (x.giveBack q n).failed = x.failed := rfl
@[simp] theorem Ctx.deposit_s (x : Ctx) (q n : Nat) : (x.deposit q n).s = x.s := rfl
@[simp] theorem Ctx.deposit_p (x : Ctx) (q n : Nat) : (x.deposit q n).p = x.p := rfl
@[simp] theorem Ctx.deposit_k (x : Ctx) (q n : Nat) : (x.deposit q n).k = x.k := rfl
@[simp] theorem Ctx.deposit_views (x : Ctx) (q n : Nat) : (x.deposit q n).views = x.views := rfl
@[simp] theorem Ctx.deposit_tv (x : Ctx) (q n : Nat) : (x.deposit q n).tv = x.tv := rfl
@[simp] theorem Ctx.deposit_av (x : Ctx) (q n : Nat) : (x.deposit q n).av = x.av := rfl
@[simp] theorem Ctx.deposit_eph (x : Ctx) (q n : Nat) : (x.deposit q n).eph = x.eph := rfl
@[simp] theorem Ctx.deposit_strC (x : Ctx) (q n : Nat) : (x.deposit q n).strC = x.strC := rfl
@[simp] theorem Ctx.deposit_strV (x : Ctx) (q n : Nat) : (x.deposit q n).strV = x.strV := rfl
@[simp] theorem Ctx.deposit_strM (x : Ctx) (q n : Nat) : (x.deposit q n).strM = x.strM := rfl
@[simp] theorem Ctx.deposit_strX (x : Ctx) (q n : Nat) : (x.deposit q n).strX = x.strX := rfl
@[simp] theorem Ctx.deposit_tok (x : Ctx) (q n : Nat) : (x.deposit q n).tok = x.tok := rfl
@[simp] theorem Ctx.deposit_rsv (x : Ctx) (q n : Nat) : (x.deposit q n).rsv = x.rsv := rfl
@[simp] theorem Ctx.deposit_wdog (x : Ctx) (q n : Nat) : (x.deposit q n).wdog = x.wdog := rfl
@[simp] theorem Ctx.deposit_oorFlag (x : Ctx) (q n : Nat) : (x.deposit q n).oorFlag = x.oorFlag := rfl
@[simp] theorem Ctx.deposit_oorFresh (x : Ctx) (q n : Nat) : (x.deposit q n).oorFresh = x.oorFresh := rfl
@[simp] theorem Ctx.deposit_oorNow (x : Ctx) (q n : Nat) : (x.deposit q n).oorNow = x.oorNow := rfl
@[simp] theorem Ctx.deposit_oorStream (x : Ctx) (q n : Nat) : (x.deposit q n).oorStream = x.oorStream := rfl
@[simp] theorem Ctx.deposit_oorSpace (x : Ctx) (q n : Nat) : (x.deposit q n).oorSpace = x.oorSpace := rfl
@[simp] theorem Ctx.deposit_oorWrite (x : Ctx) (q n : Nat) : (x.deposit q n).oorWrite = x.oorWrite := rfl
@[simp] theorem Ctx.deposit_oorAddr (x : Ctx) (q n : Nat) : (x.deposit q n).oorAddr = x.oorAddr := rfl
@[simp] theorem Ctx.deposit_lend (x : Ctx) (q n : Nat) : (x.deposit q n).lend = x.lend := rfl
@[simp] theorem Ctx.deposit_cause (x : Ctx) (q n : Nat) : (x.deposit q n).cause = x.cause := rfl
@[simp] theorem Ctx.deposit_trapPc (x : Ctx) (q n : Nat) : (x.deposit q n).trapPc = x.trapPc := rfl
@[simp] theorem Ctx.deposit_trapAddr (x : Ctx) (q n : Nat) : (x.deposit q n).trapAddr = x.trapAddr := rfl
@[simp] theorem Ctx.deposit_nestCause (x : Ctx) (q n : Nat) : (x.deposit q n).nestCause = x.nestCause := rfl
@[simp] theorem Ctx.deposit_nestAddr (x : Ctx) (q n : Nat) : (x.deposit q n).nestAddr = x.nestAddr := rfl
@[simp] theorem Ctx.deposit_tsp (x : Ctx) (q n : Nat) : (x.deposit q n).tsp = x.tsp := rfl
@[simp] theorem Ctx.deposit_tnest (x : Ctx) (q n : Nat) : (x.deposit q n).tnest = x.tnest := rfl
@[simp] theorem Ctx.deposit_tdict (x : Ctx) (q n : Nat) : (x.deposit q n).tdict = x.tdict := rfl
@[simp] theorem Ctx.deposit_tdefer (x : Ctx) (q n : Nat) : (x.deposit q n).tdefer = x.tdefer := rfl
@[simp] theorem Ctx.deposit_tstream (x : Ctx) (q n : Nat) : (x.deposit q n).tstream = x.tstream := rfl
@[simp] theorem Ctx.deposit_te (x : Ctx) (q n : Nat) : (x.deposit q n).te = x.te := rfl
@[simp] theorem Ctx.deposit_depCount (x : Ctx) (q n : Nat) : (x.deposit q n).depCount = x.depCount := rfl
@[simp] theorem Ctx.deposit_sat (x : Ctx) (q n : Nat) : (x.deposit q n).sat = x.sat := rfl
@[simp] theorem Ctx.deposit_daz (x : Ctx) (q n : Nat) : (x.deposit q n).daz = x.daz := rfl
@[simp] theorem Ctx.deposit_ftz (x : Ctx) (q n : Nat) : (x.deposit q n).ftz = x.ftz := rfl
@[simp] theorem Ctx.deposit_srk (x : Ctx) (q n : Nat) : (x.deposit q n).srk = x.srk := rfl
@[simp] theorem Ctx.deposit_crm (x : Ctx) (q n : Nat) : (x.deposit q n).crm = x.crm := rfl
@[simp] theorem Ctx.deposit_arm (x : Ctx) (q n : Nat) : (x.deposit q n).arm = x.arm := rfl
@[simp] theorem Ctx.deposit_vflags (x : Ctx) (q n : Nat) : (x.deposit q n).vflags = x.vflags := rfl
@[simp] theorem Ctx.deposit_vNow (x : Ctx) (q n : Nat) : (x.deposit q n).vNow = x.vNow := rfl
@[simp] theorem Ctx.deposit_mNow (x : Ctx) (q n : Nat) : (x.deposit q n).mNow = x.mNow := rfl
@[simp] theorem Ctx.deposit_actm (x : Ctx) (q n : Nat) : (x.deposit q n).actm = x.actm := rfl
@[simp] theorem Ctx.deposit_mflags (x : Ctx) (q n : Nat) : (x.deposit q n).mflags = x.mflags := rfl
@[simp] theorem Ctx.deposit_mcrm (x : Ctx) (q n : Nat) : (x.deposit q n).mcrm = x.mcrm := rfl
@[simp] theorem Ctx.deposit_msnap (x : Ctx) (q n : Nat) : (x.deposit q n).msnap = x.msnap := rfl
@[simp] theorem Ctx.deposit_wv (x : Ctx) (q n : Nat) : (x.deposit q n).wv = x.wv := rfl
@[simp] theorem Ctx.deposit_mn (x : Ctx) (q n : Nat) : (x.deposit q n).mn = x.mn := rfl
@[simp] theorem Ctx.deposit_dict (x : Ctx) (q n : Nat) : (x.deposit q n).dict = x.dict := rfl
@[simp] theorem Ctx.deposit_regs (x : Ctx) (q n : Nat) : (x.deposit q n).regs = x.regs := rfl
@[simp] theorem Ctx.deposit_firedNow (x : Ctx) (q n : Nat) : (x.deposit q n).firedNow = x.firedNow := rfl
@[simp] theorem Ctx.deposit_tags (x : Ctx) (q n : Nat) : (x.deposit q n).tags = x.tags := rfl
@[simp] theorem Ctx.deposit_tagOps (x : Ctx) (q n : Nat) : (x.deposit q n).tagOps = x.tagOps := rfl
@[simp] theorem Ctx.deposit_vLanded (x : Ctx) (q n : Nat) : (x.deposit q n).vLanded = x.vLanded := rfl
@[simp] theorem Ctx.deposit_cmds (x : Ctx) (q n : Nat) : (x.deposit q n).cmds = x.cmds := rfl
@[simp] theorem Ctx.deposit_mnest (x : Ctx) (q n : Nat) : (x.deposit q n).mnest = x.mnest := rfl
@[simp] theorem Ctx.deposit_tables (x : Ctx) (q n : Nat) : (x.deposit q n).tables = x.tables := rfl
@[simp] theorem Ctx.deposit_handle (x : Ctx) (q n : Nat) : (x.deposit q n).handle = x.handle := rfl
@[simp] theorem Ctx.deposit_est (x : Ctx) (q n : Nat) : (x.deposit q n).est = x.est := rfl
@[simp] theorem Ctx.deposit_estNs (x : Ctx) (q n : Nat) : (x.deposit q n).estNs = x.estNs := rfl
@[simp] theorem Ctx.deposit_allot (x : Ctx) (q n : Nat) : (x.deposit q n).allot = x.allot := rfl
@[simp] theorem Ctx.deposit_shadow (x : Ctx) (q n : Nat) : (x.deposit q n).shadow = x.shadow := rfl
@[simp] theorem Ctx.deposit_failed (x : Ctx) (q n : Nat) : (x.deposit q n).failed = x.failed := rfl
@[simp] theorem Ctx.reserve_s (x : Ctx) (q : Nat) : (x.reserve q).s = x.s := rfl
@[simp] theorem Ctx.reserve_p (x : Ctx) (q : Nat) : (x.reserve q).p = x.p := rfl
@[simp] theorem Ctx.reserve_k (x : Ctx) (q : Nat) : (x.reserve q).k = x.k := rfl
@[simp] theorem Ctx.reserve_views (x : Ctx) (q : Nat) : (x.reserve q).views = x.views := rfl
@[simp] theorem Ctx.reserve_tv (x : Ctx) (q : Nat) : (x.reserve q).tv = x.tv := rfl
@[simp] theorem Ctx.reserve_av (x : Ctx) (q : Nat) : (x.reserve q).av = x.av := rfl
@[simp] theorem Ctx.reserve_eph (x : Ctx) (q : Nat) : (x.reserve q).eph = x.eph := rfl
@[simp] theorem Ctx.reserve_strC (x : Ctx) (q : Nat) : (x.reserve q).strC = x.strC := rfl
@[simp] theorem Ctx.reserve_strV (x : Ctx) (q : Nat) : (x.reserve q).strV = x.strV := rfl
@[simp] theorem Ctx.reserve_strM (x : Ctx) (q : Nat) : (x.reserve q).strM = x.strM := rfl
@[simp] theorem Ctx.reserve_strX (x : Ctx) (q : Nat) : (x.reserve q).strX = x.strX := rfl
@[simp] theorem Ctx.reserve_tok (x : Ctx) (q : Nat) : (x.reserve q).tok = x.tok := rfl
@[simp] theorem Ctx.reserve_fresh (x : Ctx) (q : Nat) : (x.reserve q).fresh = x.fresh := rfl
@[simp] theorem Ctx.reserve_wdog (x : Ctx) (q : Nat) : (x.reserve q).wdog = x.wdog := rfl
@[simp] theorem Ctx.reserve_oorFlag (x : Ctx) (q : Nat) : (x.reserve q).oorFlag = x.oorFlag := rfl
@[simp] theorem Ctx.reserve_oorFresh (x : Ctx) (q : Nat) : (x.reserve q).oorFresh = x.oorFresh := rfl
@[simp] theorem Ctx.reserve_oorNow (x : Ctx) (q : Nat) : (x.reserve q).oorNow = x.oorNow := rfl
@[simp] theorem Ctx.reserve_oorStream (x : Ctx) (q : Nat) : (x.reserve q).oorStream = x.oorStream := rfl
@[simp] theorem Ctx.reserve_oorSpace (x : Ctx) (q : Nat) : (x.reserve q).oorSpace = x.oorSpace := rfl
@[simp] theorem Ctx.reserve_oorWrite (x : Ctx) (q : Nat) : (x.reserve q).oorWrite = x.oorWrite := rfl
@[simp] theorem Ctx.reserve_oorAddr (x : Ctx) (q : Nat) : (x.reserve q).oorAddr = x.oorAddr := rfl
@[simp] theorem Ctx.reserve_lend (x : Ctx) (q : Nat) : (x.reserve q).lend = x.lend := rfl
@[simp] theorem Ctx.reserve_cause (x : Ctx) (q : Nat) : (x.reserve q).cause = x.cause := rfl
@[simp] theorem Ctx.reserve_trapPc (x : Ctx) (q : Nat) : (x.reserve q).trapPc = x.trapPc := rfl
@[simp] theorem Ctx.reserve_trapAddr (x : Ctx) (q : Nat) : (x.reserve q).trapAddr = x.trapAddr := rfl
@[simp] theorem Ctx.reserve_nestCause (x : Ctx) (q : Nat) : (x.reserve q).nestCause = x.nestCause := rfl
@[simp] theorem Ctx.reserve_nestAddr (x : Ctx) (q : Nat) : (x.reserve q).nestAddr = x.nestAddr := rfl
@[simp] theorem Ctx.reserve_tsp (x : Ctx) (q : Nat) : (x.reserve q).tsp = x.tsp := rfl
@[simp] theorem Ctx.reserve_tnest (x : Ctx) (q : Nat) : (x.reserve q).tnest = x.tnest := rfl
@[simp] theorem Ctx.reserve_tdict (x : Ctx) (q : Nat) : (x.reserve q).tdict = x.tdict := rfl
@[simp] theorem Ctx.reserve_tdefer (x : Ctx) (q : Nat) : (x.reserve q).tdefer = x.tdefer := rfl
@[simp] theorem Ctx.reserve_tstream (x : Ctx) (q : Nat) : (x.reserve q).tstream = x.tstream := rfl
@[simp] theorem Ctx.reserve_te (x : Ctx) (q : Nat) : (x.reserve q).te = x.te := rfl
@[simp] theorem Ctx.reserve_depCount (x : Ctx) (q : Nat) : (x.reserve q).depCount = x.depCount := rfl
@[simp] theorem Ctx.reserve_sat (x : Ctx) (q : Nat) : (x.reserve q).sat = x.sat := rfl
@[simp] theorem Ctx.reserve_daz (x : Ctx) (q : Nat) : (x.reserve q).daz = x.daz := rfl
@[simp] theorem Ctx.reserve_ftz (x : Ctx) (q : Nat) : (x.reserve q).ftz = x.ftz := rfl
@[simp] theorem Ctx.reserve_srk (x : Ctx) (q : Nat) : (x.reserve q).srk = x.srk := rfl
@[simp] theorem Ctx.reserve_crm (x : Ctx) (q : Nat) : (x.reserve q).crm = x.crm := rfl
@[simp] theorem Ctx.reserve_arm (x : Ctx) (q : Nat) : (x.reserve q).arm = x.arm := rfl
@[simp] theorem Ctx.reserve_vflags (x : Ctx) (q : Nat) : (x.reserve q).vflags = x.vflags := rfl
@[simp] theorem Ctx.reserve_vNow (x : Ctx) (q : Nat) : (x.reserve q).vNow = x.vNow := rfl
@[simp] theorem Ctx.reserve_mNow (x : Ctx) (q : Nat) : (x.reserve q).mNow = x.mNow := rfl
@[simp] theorem Ctx.reserve_actm (x : Ctx) (q : Nat) : (x.reserve q).actm = x.actm := rfl
@[simp] theorem Ctx.reserve_mflags (x : Ctx) (q : Nat) : (x.reserve q).mflags = x.mflags := rfl
@[simp] theorem Ctx.reserve_mcrm (x : Ctx) (q : Nat) : (x.reserve q).mcrm = x.mcrm := rfl
@[simp] theorem Ctx.reserve_msnap (x : Ctx) (q : Nat) : (x.reserve q).msnap = x.msnap := rfl
@[simp] theorem Ctx.reserve_wv (x : Ctx) (q : Nat) : (x.reserve q).wv = x.wv := rfl
@[simp] theorem Ctx.reserve_mn (x : Ctx) (q : Nat) : (x.reserve q).mn = x.mn := rfl
@[simp] theorem Ctx.reserve_dict (x : Ctx) (q : Nat) : (x.reserve q).dict = x.dict := rfl
@[simp] theorem Ctx.reserve_regs (x : Ctx) (q : Nat) : (x.reserve q).regs = x.regs := rfl
@[simp] theorem Ctx.reserve_firedNow (x : Ctx) (q : Nat) : (x.reserve q).firedNow = x.firedNow := rfl
@[simp] theorem Ctx.reserve_tags (x : Ctx) (q : Nat) : (x.reserve q).tags = x.tags := rfl
@[simp] theorem Ctx.reserve_tagOps (x : Ctx) (q : Nat) : (x.reserve q).tagOps = x.tagOps := rfl
@[simp] theorem Ctx.reserve_vLanded (x : Ctx) (q : Nat) : (x.reserve q).vLanded = x.vLanded := rfl
@[simp] theorem Ctx.reserve_cmds (x : Ctx) (q : Nat) : (x.reserve q).cmds = x.cmds := rfl
@[simp] theorem Ctx.reserve_mnest (x : Ctx) (q : Nat) : (x.reserve q).mnest = x.mnest := rfl
@[simp] theorem Ctx.reserve_tables (x : Ctx) (q : Nat) : (x.reserve q).tables = x.tables := rfl
@[simp] theorem Ctx.reserve_handle (x : Ctx) (q : Nat) : (x.reserve q).handle = x.handle := rfl
@[simp] theorem Ctx.reserve_est (x : Ctx) (q : Nat) : (x.reserve q).est = x.est := rfl
@[simp] theorem Ctx.reserve_estNs (x : Ctx) (q : Nat) : (x.reserve q).estNs = x.estNs := rfl
@[simp] theorem Ctx.reserve_allot (x : Ctx) (q : Nat) : (x.reserve q).allot = x.allot := rfl
@[simp] theorem Ctx.reserve_shadow (x : Ctx) (q : Nat) : (x.reserve q).shadow = x.shadow := rfl
@[simp] theorem Ctx.reserve_failed (x : Ctx) (q : Nat) : (x.reserve q).failed = x.failed := rfl
@[simp] theorem Ctx.release_s (x : Ctx) (q : Nat) : (x.release q).s = x.s := rfl
@[simp] theorem Ctx.release_p (x : Ctx) (q : Nat) : (x.release q).p = x.p := rfl
@[simp] theorem Ctx.release_k (x : Ctx) (q : Nat) : (x.release q).k = x.k := rfl
@[simp] theorem Ctx.release_views (x : Ctx) (q : Nat) : (x.release q).views = x.views := rfl
@[simp] theorem Ctx.release_tv (x : Ctx) (q : Nat) : (x.release q).tv = x.tv := rfl
@[simp] theorem Ctx.release_av (x : Ctx) (q : Nat) : (x.release q).av = x.av := rfl
@[simp] theorem Ctx.release_eph (x : Ctx) (q : Nat) : (x.release q).eph = x.eph := rfl
@[simp] theorem Ctx.release_strC (x : Ctx) (q : Nat) : (x.release q).strC = x.strC := rfl
@[simp] theorem Ctx.release_strV (x : Ctx) (q : Nat) : (x.release q).strV = x.strV := rfl
@[simp] theorem Ctx.release_strM (x : Ctx) (q : Nat) : (x.release q).strM = x.strM := rfl
@[simp] theorem Ctx.release_strX (x : Ctx) (q : Nat) : (x.release q).strX = x.strX := rfl
@[simp] theorem Ctx.release_tok (x : Ctx) (q : Nat) : (x.release q).tok = x.tok := rfl
@[simp] theorem Ctx.release_fresh (x : Ctx) (q : Nat) : (x.release q).fresh = x.fresh := rfl
@[simp] theorem Ctx.release_wdog (x : Ctx) (q : Nat) : (x.release q).wdog = x.wdog := rfl
@[simp] theorem Ctx.release_oorFlag (x : Ctx) (q : Nat) : (x.release q).oorFlag = x.oorFlag := rfl
@[simp] theorem Ctx.release_oorFresh (x : Ctx) (q : Nat) : (x.release q).oorFresh = x.oorFresh := rfl
@[simp] theorem Ctx.release_oorNow (x : Ctx) (q : Nat) : (x.release q).oorNow = x.oorNow := rfl
@[simp] theorem Ctx.release_oorStream (x : Ctx) (q : Nat) : (x.release q).oorStream = x.oorStream := rfl
@[simp] theorem Ctx.release_oorSpace (x : Ctx) (q : Nat) : (x.release q).oorSpace = x.oorSpace := rfl
@[simp] theorem Ctx.release_oorWrite (x : Ctx) (q : Nat) : (x.release q).oorWrite = x.oorWrite := rfl
@[simp] theorem Ctx.release_oorAddr (x : Ctx) (q : Nat) : (x.release q).oorAddr = x.oorAddr := rfl
@[simp] theorem Ctx.release_lend (x : Ctx) (q : Nat) : (x.release q).lend = x.lend := rfl
@[simp] theorem Ctx.release_cause (x : Ctx) (q : Nat) : (x.release q).cause = x.cause := rfl
@[simp] theorem Ctx.release_trapPc (x : Ctx) (q : Nat) : (x.release q).trapPc = x.trapPc := rfl
@[simp] theorem Ctx.release_trapAddr (x : Ctx) (q : Nat) : (x.release q).trapAddr = x.trapAddr := rfl
@[simp] theorem Ctx.release_nestCause (x : Ctx) (q : Nat) : (x.release q).nestCause = x.nestCause := rfl
@[simp] theorem Ctx.release_nestAddr (x : Ctx) (q : Nat) : (x.release q).nestAddr = x.nestAddr := rfl
@[simp] theorem Ctx.release_tsp (x : Ctx) (q : Nat) : (x.release q).tsp = x.tsp := rfl
@[simp] theorem Ctx.release_tnest (x : Ctx) (q : Nat) : (x.release q).tnest = x.tnest := rfl
@[simp] theorem Ctx.release_tdict (x : Ctx) (q : Nat) : (x.release q).tdict = x.tdict := rfl
@[simp] theorem Ctx.release_tdefer (x : Ctx) (q : Nat) : (x.release q).tdefer = x.tdefer := rfl
@[simp] theorem Ctx.release_tstream (x : Ctx) (q : Nat) : (x.release q).tstream = x.tstream := rfl
@[simp] theorem Ctx.release_te (x : Ctx) (q : Nat) : (x.release q).te = x.te := rfl
@[simp] theorem Ctx.release_depCount (x : Ctx) (q : Nat) : (x.release q).depCount = x.depCount := rfl
@[simp] theorem Ctx.release_sat (x : Ctx) (q : Nat) : (x.release q).sat = x.sat := rfl
@[simp] theorem Ctx.release_daz (x : Ctx) (q : Nat) : (x.release q).daz = x.daz := rfl
@[simp] theorem Ctx.release_ftz (x : Ctx) (q : Nat) : (x.release q).ftz = x.ftz := rfl
@[simp] theorem Ctx.release_srk (x : Ctx) (q : Nat) : (x.release q).srk = x.srk := rfl
@[simp] theorem Ctx.release_crm (x : Ctx) (q : Nat) : (x.release q).crm = x.crm := rfl
@[simp] theorem Ctx.release_arm (x : Ctx) (q : Nat) : (x.release q).arm = x.arm := rfl
@[simp] theorem Ctx.release_vflags (x : Ctx) (q : Nat) : (x.release q).vflags = x.vflags := rfl
@[simp] theorem Ctx.release_vNow (x : Ctx) (q : Nat) : (x.release q).vNow = x.vNow := rfl
@[simp] theorem Ctx.release_mNow (x : Ctx) (q : Nat) : (x.release q).mNow = x.mNow := rfl
@[simp] theorem Ctx.release_actm (x : Ctx) (q : Nat) : (x.release q).actm = x.actm := rfl
@[simp] theorem Ctx.release_mflags (x : Ctx) (q : Nat) : (x.release q).mflags = x.mflags := rfl
@[simp] theorem Ctx.release_mcrm (x : Ctx) (q : Nat) : (x.release q).mcrm = x.mcrm := rfl
@[simp] theorem Ctx.release_msnap (x : Ctx) (q : Nat) : (x.release q).msnap = x.msnap := rfl
@[simp] theorem Ctx.release_wv (x : Ctx) (q : Nat) : (x.release q).wv = x.wv := rfl
@[simp] theorem Ctx.release_mn (x : Ctx) (q : Nat) : (x.release q).mn = x.mn := rfl
@[simp] theorem Ctx.release_dict (x : Ctx) (q : Nat) : (x.release q).dict = x.dict := rfl
@[simp] theorem Ctx.release_regs (x : Ctx) (q : Nat) : (x.release q).regs = x.regs := rfl
@[simp] theorem Ctx.release_firedNow (x : Ctx) (q : Nat) : (x.release q).firedNow = x.firedNow := rfl
@[simp] theorem Ctx.release_tags (x : Ctx) (q : Nat) : (x.release q).tags = x.tags := rfl
@[simp] theorem Ctx.release_tagOps (x : Ctx) (q : Nat) : (x.release q).tagOps = x.tagOps := rfl
@[simp] theorem Ctx.release_vLanded (x : Ctx) (q : Nat) : (x.release q).vLanded = x.vLanded := rfl
@[simp] theorem Ctx.release_cmds (x : Ctx) (q : Nat) : (x.release q).cmds = x.cmds := rfl
@[simp] theorem Ctx.release_mnest (x : Ctx) (q : Nat) : (x.release q).mnest = x.mnest := rfl
@[simp] theorem Ctx.release_tables (x : Ctx) (q : Nat) : (x.release q).tables = x.tables := rfl
@[simp] theorem Ctx.release_handle (x : Ctx) (q : Nat) : (x.release q).handle = x.handle := rfl
@[simp] theorem Ctx.release_est (x : Ctx) (q : Nat) : (x.release q).est = x.est := rfl
@[simp] theorem Ctx.release_estNs (x : Ctx) (q : Nat) : (x.release q).estNs = x.estNs := rfl
@[simp] theorem Ctx.release_allot (x : Ctx) (q : Nat) : (x.release q).allot = x.allot := rfl
@[simp] theorem Ctx.release_shadow (x : Ctx) (q : Nat) : (x.release q).shadow = x.shadow := rfl
@[simp] theorem Ctx.release_failed (x : Ctx) (q : Nat) : (x.release q).failed = x.failed := rfl

/-! ### Registers (R34) -/

@[simp] theorem Ctx.sr_zero (x : Ctx) : x.sr 0 = 0 := rfl
@[simp] theorem Ctx.pr_zero (x : Ctx) : x.pr 0 = true := rfl
@[simp] theorem Ctx.kr_zero (x : Ctx) : x.kr 0 = BitVec.allOnes 128 := rfl
@[simp] theorem Ctx.setSr_zero (x : Ctx) (v : Word) : x.setSr 0 v = x := rfl
@[simp] theorem Ctx.setPr_zero (x : Ctx) (v : Bool) : x.setPr 0 v = x := rfl
@[simp] theorem Ctx.setKr_zero (x : Ctx) (v : BitVec 128) : x.setKr 0 v = x := rfl

theorem Ctx.sr_setSr (x : Ctx) (r : SReg) (v : Word) (h : r ≠ 0) : (x.setSr r v).sr r = v := by
  unfold Ctx.sr Ctx.setSr
  rw [if_neg h, if_neg h]
  exact FMap.getD_put_same _ _ _ _

theorem Ctx.sr_setSr_other (x : Ctx) (r q : SReg) (v : Word) (h : q ≠ r) : (x.setSr r v).sr q = x.sr q := by
  have : q.toNat ≠ r.toNat := fun k => h (BitVec.eq_of_toNat_eq k)
  by_cases hr : r = 0
  · subst hr; rfl
  · simp only [Ctx.sr, Ctx.setSr, hr, if_false]
    split
    · rfl
    · exact FMap.getD_put_other _ _ _ _ _ _ this

theorem Ctx.pr_setPr (x : Ctx) (r : PReg) (v : Bool) (h : r ≠ 0) : (x.setPr r v).pr r = v := by
  unfold Ctx.pr Ctx.setPr
  rw [if_neg h, if_neg h]
  exact FMap.getD_put_same _ _ _ _

theorem Ctx.pr_setPr_other (x : Ctx) (r q : PReg) (v : Bool) (h : q ≠ r) : (x.setPr r v).pr q = x.pr q := by
  have : q.toNat ≠ r.toNat := fun k => h (BitVec.eq_of_toNat_eq k)
  by_cases hr : r = 0
  · subst hr; rfl
  · simp only [Ctx.pr, Ctx.setPr, hr, if_false]
    split
    · rfl
    · exact FMap.getD_put_other _ _ _ _ _ _ this

theorem Ctx.kr_setKr (x : Ctx) (r : KReg) (v : BitVec 128) (h : r ≠ 0) : (x.setKr r v).kr r = v := by
  unfold Ctx.kr Ctx.setKr
  rw [if_neg h, if_neg h]
  exact FMap.getD_put_same _ _ _ _

theorem Ctx.kr_setKr_other (x : Ctx) (r q : KReg) (v : BitVec 128) (h : q ≠ r) : (x.setKr r v).kr q = x.kr q := by
  have : q.toNat ≠ r.toNat := fun k => h (BitVec.eq_of_toNat_eq k)
  by_cases hr : r = 0
  · subst hr; rfl
  · simp only [Ctx.kr, Ctx.setKr, hr, if_false]
    split
    · rfl
    · exact FMap.getD_put_other _ _ _ _ _ _ this

end Machine
end Sys2Proof
end

