-- ==== Sys2Proof/Laws/Issue.lean ====
section
/-!
SUPPORT. Laws/Issue.lean: what an attempt to issue can do, the issue slot, and landings, each said once.
-/
namespace Sys2Proof.Machine

/-! ### Ring conditions -/

theorem RingOpen.block {x : Ctx} {e : Strm} {r : Ring} (h : RingOpen x e r) : x.ringBlock e r = none := by
  obtain ⟨a, b, c, d⟩ := h
  have ha : (r.wp && x.ready (inQueue e true) == 0) = false := by
    cases hr : r.wp
    · rfl
    · have := a hr; simp; omega
  have hb : (r.wn && x.ready (inQueue e false) == 0) = false := by
    cases hr : r.wn
    · rfl
    · have := b hr; simp; omega
  have hc : (r.sp && decide (15 ≤ x.taken (outQueue e true))) = false := by
    cases hr : r.sp
    · rfl
    · have := c hr; simp; omega
  have hd : (r.sn && decide (15 ≤ x.taken (outQueue e false))) = false := by
    cases hr : r.sn
    · rfl
    · have := d hr; simp; omega
  simp [Ctx.ringBlock, ha, hb, hc, hd]

theorem ringOpen_of_block {x : Ctx} {e : Strm} {r : Ring} (h : x.ringBlock e r = none) : RingOpen x e r := by
  unfold Ctx.ringBlock at h
  split at h
  · simp at h
  · split at h
    · simp at h
    · split at h
      · simp at h
      · split at h
        · simp at h
        · rename_i h1 h2 h3 h4
          constructor
          · intro hr; simp only [hr, Bool.true_and, beq_iff_eq] at h1; omega
          · intro hr; simp only [hr, Bool.true_and, beq_iff_eq] at h2; omega
          · intro hr; simp only [hr, Bool.true_and, decide_eq_true_eq] at h3; omega
          · intro hr; simp only [hr, Bool.true_and, decide_eq_true_eq] at h4; omega

theorem ringBlock_none_iff (x : Ctx) (e : Strm) (r : Ring) : x.ringBlock e r = none ↔ RingOpen x e r :=
  ⟨ringOpen_of_block, RingOpen.block⟩

/-- Only M reads operands of earlier instructions in a slot. -/
theorem State.beginSlot_snd (s : State) (c : CoreId) (e : Strm) (h : e ≠ .m) : (s.beginSlot c e).2 = none := by
  cases e <;> first | rfl | exact absurd rfl h

/-! ### An attempt to issue -/

@[simp] theorem State.refreshHit_nil (s : State) : s.refreshHit [] = false := rfl

/-- An attempt in an open slot, by what the instruction's body says there. -/
theorem State.attempt_open (s : State) (e : Strm) (r : Ring) (body : CoreId → State → Res) (h : s.Opens e r) :
    s.attempt e r body =
      match body s.cur (s.slot e) with
      | .wait key left => (left s).waitCycle s.cur e key
      | .fault k a reads => if s.refreshHit reads then s else s.traps e k a
      | .faultIn s2 k a reads =>
        if s.refreshHit reads then s else s2.takeFault s.cur e k a false
      | .final s2 => s2
      | .ok d =>
        if s.refreshHit d.reads then s else State.complete s.cur e r d := by
  have hb := h.ring.block
  have hr := h.reads
  unfold State.attempt State.traps State.slot
  dsimp only
  rw [hb]
  generalize hg : s.beginSlot s.cur e = g at hr
  obtain ⟨s1, rf⟩ := g
  simp only at hr
  subst hr
  rfl

/-- An instruction whose body issues in an open slot, reading no OF byte that a refresh touches, completes. -/
theorem issue_ok {e : Strm} {r : Ring} {body : CoreId → State → Res} {s : State} {d : Done} (h : s.Opens e r)
    (hb : body s.cur (s.slot e) = .ok d) (hr : s.refreshHit d.reads = false) :
    issue e r body s = .next (State.complete s.cur e r d) := by
  simp [issue, s.attempt_open e r body h, hb, hr]

/-- An instruction whose body faults in an open slot traps. -/
theorem issue_fault {e : Strm} {r : Ring} {body : CoreId → State → Res} {s : State} {k : Cause} {a : Word} {reads : List Nat}
    (h : s.Opens e r) (hb : body s.cur (s.slot e) = .fault k a reads) (hr : s.refreshHit reads = false) :
    issue e r body s = .next (s.traps e k a) := by
  simp [issue, s.attempt_open e r body h, hb, hr]

/-- An instruction whose body faults and leaves a mark traps from that state. -/
theorem issue_faultIn {e : Strm} {r : Ring} {body : CoreId → State → Res} {s s2 : State} {k : Cause} {a : Word}
    {reads : List Nat} (h : s.Opens e r) (hb : body s.cur (s.slot e) = .faultIn s2 k a reads)
    (hr : s.refreshHit reads = false) : issue e r body s = .next (s2.takeFault s.cur e k a false) := by
  simp [issue, s.attempt_open e r body h, hb, hr]

/-- An instruction whose body waits leaves its results in flight where they were. -/
theorem issue_wait {e : Strm} {r : Ring} {body : CoreId → State → Res} {s : State} {key : Nat} {left : State → State}
    (h : s.Opens e r) (hb : body s.cur (s.slot e) = .wait key left) :
    issue e r body s = .next ((left s).waitCycle s.cur e key) := by
  simp [issue, s.attempt_open e r body h, hb]

/-- An instruction that replaces its stream's state. -/
theorem issue_final {e : Strm} {r : Ring} {body : CoreId → State → Res} {s s2 : State}
    (h : s.Opens e r) (hb : body s.cur (s.slot e) = .final s2) : issue e r body s = .next s2 := by
  simp [issue, s.attempt_open e r body h, hb]

/-- An instruction whose ring conditions do not hold waits for the first of them. -/
theorem issue_blocked {e : Strm} {r : Ring} {body : CoreId → State → Res} {s : State} {q : Nat}
    (h : (s.ctx s.cur).ringBlock e r = some q) : issue e r body s = .next (s.waitCycle s.cur e q) := by
  simp [issue, State.attempt, h]

/-- A stream instruction always answers a next state. -/
theorem issue_next (e : Strm) (r : Ring) (body : CoreId → State → Res) (s : State) :
    ∃ t, issue e r body s = .next t := ⟨_, rfl⟩

/-! ### The issue slot -/

/-- What the ring bits of an instruction that issues do to a context (R26, R28). -/
def Ctx.ringStep (x : Ctx) (e : Strm) (r : Ring) (now : Bool) : Ctx :=
  let x := (x.iff r.wp fun x => x.consume (inQueue e true) 1).iff r.wn fun x => x.consume (inQueue e false) 1
  let x := (x.iff r.sp fun x => x.reserve (outQueue e true)).iff r.sn fun x => x.reserve (outQueue e false)
  if now then x.signal e r.sp r.sn else x

/-- A stream after an instruction has issued in it (R45, R47, R65). -/
def Stream.issued (t : Stream) (r : Ring) (d : Done) : Stream :=
  { t with
    queue := (t.queue ++ entries d.lands r (r.sp && !d.lands.isEmpty && !d.cmd) (r.sn && !d.lands.isEmpty && !d.cmd) t.pc
      t.fromDict).map Landing.tick
    pc := match d.npc with
      | some a => a
      | none => nextPc t
    occ := d.occ - 1, wait := none, held := none, sent := none, join := none, bar := none }

/-- The ephemeral windows after a slot (R51), and what an MNEST still waits for (R318). -/
def Ctx.ageStep (x : Ctx) (e : Strm) : Ctx :=
  match e with
  | .v => { x with eph := x.eph.map fun p => (p.1, (p.2.1, min 4 (p.2.2 + 1))) }
  | .m => x.nestSlot
  | _ => x

/-- An issue slot changes only the context of its core. -/
theorem State.complete_eq (c : CoreId) (e : Strm) (r : Ring) (d : Done) :
    State.complete c e r d = d.s.modCtx c fun x =>
      let y := x.ringStep e r (d.lands.isEmpty && !d.cmd)
      (y.setStr e ((y.str e).issued r d)).ageStep e := by
  cases e <;>
    simp only [State.complete, State.endSlot, State.modStr, State.modCtx_modCtx, Ctx.str_setStr, Ctx.setStr_setStr] <;> rfl

theorem Ctx.iff_str (x : Ctx) (b : Bool) (f : Ctx → Ctx) (e : Strm) (h : ∀ x, (f x).str e = x.str e) :
    (x.iff b f).str e = x.str e := by
  cases b
  · rfl
  · exact h x

theorem Ctx.consume_str (x : Ctx) (q n : Nat) (e : Strm) : (x.consume q n).str e = x.str e := by cases e <;> rfl
theorem Ctx.reserve_str (x : Ctx) (q : Nat) (e : Strm) : (x.reserve q).str e = x.str e := by cases e <;> rfl
theorem Ctx.release_str (x : Ctx) (q : Nat) (e : Strm) : (x.release q).str e = x.str e := by cases e <;> rfl
theorem Ctx.deposit_str (x : Ctx) (q n : Nat) (e : Strm) : (x.deposit q n).str e = x.str e := by cases e <;> rfl

theorem Ctx.signal_str (x : Ctx) (e f : Strm) (sp sn : Bool) : (x.signal e sp sn).str f = x.str f := by
  unfold Ctx.signal
  rw [Ctx.iff_str, Ctx.iff_str] <;> intro y <;> rw [Ctx.deposit_str, Ctx.release_str]

/-- A context with other tokens, deposits and reservations. -/
def Ctx.withRing (x y : Ctx) : Ctx := { x with tok := y.tok, fresh := y.fresh, rsv := y.rsv }

/-- A context in which only tokens, deposits and reservations may differ from those of x. -/
def Ctx.RingOnly (x z : Ctx) : Prop := x.withRing z = z

theorem Ctx.ringOnly_self (x : Ctx) : Ctx.RingOnly x x := rfl

theorem Ctx.RingOnly.consume {x z : Ctx} (h : Ctx.RingOnly x z) (q n : Nat) : Ctx.RingOnly x (z.consume q n) :=
  (show x.withRing (z.consume q n) = (x.withRing z).consume q n from rfl).trans (congrArg (fun y => y.consume q n) h)

theorem Ctx.RingOnly.reserve {x z : Ctx} (h : Ctx.RingOnly x z) (q : Nat) : Ctx.RingOnly x (z.reserve q) :=
  (show x.withRing (z.reserve q) = (x.withRing z).reserve q from rfl).trans (congrArg (fun y => y.reserve q) h)

theorem Ctx.RingOnly.release {x z : Ctx} (h : Ctx.RingOnly x z) (q : Nat) : Ctx.RingOnly x (z.release q) :=
  (show x.withRing (z.release q) = (x.withRing z).release q from rfl).trans (congrArg (fun y => y.release q) h)

theorem Ctx.RingOnly.deposit {x z : Ctx} (h : Ctx.RingOnly x z) (q n : Nat) : Ctx.RingOnly x (z.deposit q n) :=
  (show x.withRing (z.deposit q n) = (x.withRing z).deposit q n from rfl).trans (congrArg (fun y => y.deposit q n) h)

theorem Ctx.RingOnly.iff {x z : Ctx} (h : Ctx.RingOnly x z) (b : Bool) {f : Ctx → Ctx}
    (hf : ∀ y, Ctx.RingOnly x y → Ctx.RingOnly x (f y)) : Ctx.RingOnly x (z.iff b f) := by
  cases b
  · exact h
  · exact hf z h

theorem Ctx.RingOnly.signal {x z : Ctx} (h : Ctx.RingOnly x z) (e : Strm) (sp sn : Bool) :
    Ctx.RingOnly x (z.signal e sp sn) :=
  (h.iff sp fun _ hy => (hy.release _).deposit _ _).iff sn fun _ hy => (hy.release _).deposit _ _

/-- The ring bits change nothing but tokens, deposits and reservations. -/
theorem Ctx.ringStep_but (x : Ctx) (e : Strm) (r : Ring) (now : Bool) : Ctx.RingOnly x (x.ringStep e r now) := by
  unfold Ctx.ringStep
  have h := ((((Ctx.ringOnly_self x).iff r.wp fun _ hy => hy.consume (inQueue e true) 1).iff r.wn
    fun _ hy => hy.consume (inQueue e false) 1).iff r.sp fun _ hy => hy.reserve (outQueue e true)).iff r.sn
    fun _ hy => hy.reserve (outQueue e false)
  dsimp only
  split
  · exact h.signal e r.sp r.sn
  · exact h

/-- The ring bits leave the streams alone. -/
theorem Ctx.ringStep_str (x : Ctx) (e f : Strm) (r : Ring) (now : Bool) : (x.ringStep e r now).str f = x.str f := by
  rw [← Ctx.ringStep_but x e r now]
  cases f <;> rfl

/-- A C instruction that computes a scalar issues in an open slot. -/
theorem scalarOp_open {lat : Nat} {r : Ring} {d : SReg} {f : Ctx → Word} {s : State} (h : s.Opens .c r) :
    scalarOp lat r d f s = .next (s.yields .c r lat (.scalar d (f (s.slotCtx .c)))) :=
  issue_ok h rfl rfl

/-- A C instruction that computes a predicate issues in an open slot. -/
theorem predOp_open {r : Ring} {pd : PReg} {f : Ctx → Bool} {s : State} (h : s.Opens .c r) :
    predOp r pd f s = .next (s.yields .c r 1 (.pred pd (f (s.slotCtx .c)))) :=
  issue_ok h rfl rfl

/-- An instruction without an effect of its own issues in an open slot. -/
theorem idleOp_open {e : Strm} {r : Ring} {s : State} (h : s.Opens e r) : idleOp e r s = .next (s.passes e r id) :=
  issue_ok h rfl rfl

end Sys2Proof.Machine
end

