-- ==== Sys2Proof/Laws/Memory.lean ====
section
/-!
SUPPORT. Laws/Memory.lean: the canonical form of memory under every memory operation, and what a byte reads as after them.
-/
namespace Sys2Proof

theorem FMap.wfFrom_mono {α : Type} [DecidableEq α] (m : FMap α) (d : α) (lo hi : Nat) (h : lo ≤ hi)
    (w : m.wfFrom hi d = true) : m.wfFrom lo d = true := by
  cases m with
  | nil => rfl
  | cons p t =>
    obtain ⟨a, b⟩ := p
    simp only [FMap.wfFrom, Bool.and_eq_true, decide_eq_true_eq] at w ⊢
    exact ⟨⟨by omega, w.1.2⟩, w.2⟩

/-- Deletion keeps the canonical form. -/
theorem FMap.wfFrom_del {α : Type} [DecidableEq α] (m : FMap α) (d : α) (k lo : Nat) (w : m.wfFrom lo d = true) :
    (m.del k).wfFrom lo d = true := by
  induction m generalizing lo with
  | nil => rfl
  | cons p t ih =>
    obtain ⟨a, b⟩ := p
    simp only [FMap.wfFrom, Bool.and_eq_true, decide_eq_true_eq] at w
    by_cases ha : a = k
    · simp only [FMap.del, ha, if_true]
      exact FMap.wfFrom_mono _ _ lo (a + 1) (by omega) (ih (a + 1) w.2)
    · simp only [FMap.del, ha, if_false, FMap.wfFrom, Bool.and_eq_true, decide_eq_true_eq]
      exact ⟨w.1, ih (a + 1) w.2⟩

/-- A key that a canonical map does not hold may be put in with a value that is not the default. -/
theorem FMap.wfFrom_ins {α : Type} [DecidableEq α] (m : FMap α) (d v : α) (k lo : Nat) (w : m.wfFrom lo d = true)
    (hl : lo ≤ k) (hv : v ≠ d) (hn : m.get? k = none) : (m.ins k v).wfFrom lo d = true := by
  induction m generalizing lo with
  | nil => simp [FMap.ins, FMap.wfFrom, hl, hv]
  | cons p t ih =>
    obtain ⟨a, b⟩ := p
    simp only [FMap.wfFrom, Bool.and_eq_true, decide_eq_true_eq] at w
    have hak : a ≠ k := by
      intro h; simp [FMap.get?, h] at hn
    have hn' : FMap.get? t k = none := by simpa [FMap.get?, hak] using hn
    by_cases h : k < a
    · simp only [FMap.ins, h, if_true, FMap.wfFrom, Bool.and_eq_true, decide_eq_true_eq]
      exact ⟨⟨hl, hv⟩, ⟨by omega, w.1.2⟩, w.2⟩
    · simp only [FMap.ins, h, if_false, FMap.wfFrom, Bool.and_eq_true, decide_eq_true_eq]
      exact ⟨w.1, ih (a + 1) w.2 (by omega) hn'⟩

/-- Storing a value keeps the canonical form. -/
theorem FMap.wf_put {α : Type} [DecidableEq α] (m : FMap α) (d v : α) (k : Nat) (w : m.wf d = true) :
    (m.put k v d).wf d = true := by
  unfold FMap.put
  split
  · exact FMap.wfFrom_del _ _ _ _ w
  · exact FMap.wfFrom_ins _ _ _ _ _ (FMap.wfFrom_del _ _ _ _ w) (Nat.zero_le _) ‹_› (FMap.get?_del_same m k)

namespace Machine

/-! ### The canonical form -/

theorem State.memPut_wf (s : State) (a : Nat) (b : Byte) (w : Memory.wf s.mem = true) : Memory.wf (s.memPut a b).mem = true :=
  FMap.wf_put _ _ _ _ w

theorem memPuts_wf (l : List (Byte × Nat)) (pa : Nat) (s : State) (w : Memory.wf s.mem = true) :
    Memory.wf (l.foldl (fun s p => s.memPut (pa + p.2) p.1) s).mem = true := by
  induction l generalizing s with
  | nil => exact w
  | cons p t ih => exact ih _ (s.memPut_wf _ _ w)

theorem State.memWrite_wf (s : State) (pa : Nat) (bs : List Byte) (w : Memory.wf s.mem = true) :
    Memory.wf (s.memWrite pa bs).mem = true := by
  unfold State.memWrite
  dsimp only
  split
  · exact memPuts_wf _ _ _ w
  · exact memPuts_wf _ _ _ w

theorem State.writePieces_wf (l : List (Nat × Nat)) (s : State) (bs : List Byte) (w : Memory.wf s.mem = true) :
    Memory.wf (s.writePieces l bs).mem = true := by
  induction l generalizing s bs with
  | nil => exact w
  | cons p t ih => exact ih _ _ (s.memWrite_wf _ _ w)

theorem State.reset_wf : Memory.wf State.reset.mem = true := rfl

/-! ### Bytes -/

@[simp] theorem State.memByte_memPut (s : State) (a : Nat) (b : Byte) : (s.memPut a b).memByte a = b :=
  FMap.getD_put_same _ _ _ _

theorem State.memByte_memPut_other (s : State) (a c : Nat) (b : Byte) (h : c ≠ a) : (s.memPut a b).memByte c = s.memByte c :=
  FMap.getD_put_other _ _ _ _ _ _ h

theorem memPuts_other (l : List (Byte × Nat)) (pa c : Nat) (s : State) (h : ∀ p ∈ l, c ≠ pa + p.2) :
    (l.foldl (fun s p => s.memPut (pa + p.2) p.1) s).memByte c = s.memByte c := by
  induction l generalizing s with
  | nil => rfl
  | cons p t ih =>
    simp only [List.foldl_cons]
    rw [ih _ (fun q hq => h q (List.mem_cons_of_mem _ hq)), State.memByte_memPut_other _ _ _ _ (h p List.mem_cons_self)]

theorem State.memByte_bad (s : State) (l : List Nat) (a : Nat) : ({ s with bad := l } : State).memByte a = s.memByte a := rfl

/-- A byte outside the bytes stored reads as before. -/
theorem State.memByte_memWrite_other (s : State) (pa c : Nat) (bs : List Byte) (h : c < pa ∨ pa + bs.length ≤ c) :
    (s.memWrite pa bs).memByte c = s.memByte c := by
  have key : (bs.zipIdx.foldl (fun s p => s.memPut (pa + p.2) p.1) s).memByte c = s.memByte c := by
    apply memPuts_other
    intro p hp
    obtain ⟨b, i⟩ := p
    have hi : i < 0 + bs.length := (List.mem_zipIdx hp).2.1
    simp only
    omega
  unfold State.memWrite
  dsimp only
  split
  · exact key
  · rw [State.memByte_bad]; exact key

theorem memPuts_at (bs : List Byte) (pa i k : Nat) (s : State) (h : i < bs.length) :
    ((bs.zipIdx k).foldl (fun s p => s.memPut (pa + p.2) p.1) s).memByte (pa + (k + i)) = bs[i] := by
  induction bs generalizing i k s with
  | nil => simp at h
  | cons b t ih =>
    simp only [List.zipIdx_cons, List.foldl_cons]
    cases i with
    | zero =>
      rw [memPuts_other]
      · simp
      · intro p hp
        obtain ⟨c, j⟩ := p
        have hj : k + 1 ≤ j := (List.mem_zipIdx hp).1
        simp only
        omega
    | succ i =>
      have := ih i (k + 1) (s.memPut (pa + k) b) (by simpa using h)
      rw [show pa + (k + (i + 1)) = pa + (k + 1 + i) by omega]
      simpa using this

/-- A byte that has been stored reads as stored. -/
theorem State.memByte_memWrite (s : State) (pa i : Nat) (bs : List Byte) (h : i < bs.length) :
    (s.memWrite pa bs).memByte (pa + i) = bs[i] := by
  have key := memPuts_at bs pa i 0 s h
  simp only [Nat.zero_add] at key
  unfold State.memWrite
  dsimp only
  split
  · exact key
  · rw [State.memByte_bad]; exact key

/-- What has been stored reads back. -/
theorem State.memRead_memWrite (s : State) (pa : Nat) (bs : List Byte) : (s.memWrite pa bs).memRead pa bs.length = bs := by
  apply List.ext_getElem
  · simp [State.memRead, span]
  · intro i h1 h2
    simp [State.memRead, span, State.memByte_memWrite _ _ _ _ h2]

end Machine
end Sys2Proof
end

