-- ==== Sys2Proof/Laws/Canonical.lean ====
section
/-!
SUPPORT. Memory's canonical form (`State.MemoryCanonical`) is kept: the general lemmas (records, conditionals, folds, options, results), and
one lemma `f_canon` for every shared operation f over State and for the issue of an instruction. A proof over a step cites these and
unfolds none of the operations.
-/

namespace Sys2Proof.Machine

/-- A state that has the memory of a canonical one is canonical. -/
theorem State.canon_mk (u : State) (w : u.MemoryCanonical) {x0 x1 x2 x3 x4 x5 x7 x8 x9 x10 x11 x12 x13 x14 x15 x16 x17 x18 x19 x20 x21 x22 x23 x24 x25 x26 x27 x28 x29 x30 x31 x32 x33 x34 x35 x36 x37 x38 x39 x40 x41 x42 x43 x44 x45 x46 x47 x48 x49 x50 x51 x52 x53 x54 x55 x56 x57 x58 x59 x60 x61 x62 x63 x64 x65 x66 x67 x68 x69 x70 x71 x72 x73} : (State.mk x0 x1 x2 x3 x4 x5 u.mem x7 x8 x9 x10 x11 x12 x13 x14 x15 x16 x17 x18 x19 x20 x21 x22 x23 x24 x25 x26 x27 x28 x29 x30 x31 x32 x33 x34 x35 x36 x37 x38 x39 x40 x41 x42 x43 x44 x45 x46 x47 x48 x49 x50 x51 x52 x53 x54 x55 x56 x57 x58 x59 x60 x61 x62 x63 x64 x65 x66 x67 x68 x69 x70 x71 x72 x73).MemoryCanonical := w

theorem State.canon_ite {c : Prop} [Decidable c] {a b : State} (ha : a.MemoryCanonical) (hb : b.MemoryCanonical) :
    (if c then a else b).MemoryCanonical := by
  split
  · exact ha
  · exact hb

theorem canon_foldl {α : Type} (f : State → α → State) (h : ∀ s a, s.MemoryCanonical → (f s a).MemoryCanonical) (l : List α)
    (s : State) (w : s.MemoryCanonical) : (l.foldl f s).MemoryCanonical := by
  induction l generalizing s with
  | nil => exact w
  | cons a t ih => exact ih _ (h s a w)

theorem State.reset_canon : State.reset.MemoryCanonical := rfl

theorem State.setCore_canon (s : State) (c : CoreId) (k : Core) (w : s.MemoryCanonical) : (s.setCore c k).MemoryCanonical := w
theorem State.modCore_canon (s : State) (c : CoreId) (f : Core → Core) (w : s.MemoryCanonical) : (s.modCore c f).MemoryCanonical := w
theorem State.modCtx_canon (s : State) (c : CoreId) (f : Ctx → Ctx) (w : s.MemoryCanonical) : (s.modCtx c f).MemoryCanonical := w
theorem State.modStr_canon (s : State) (c : CoreId) (e : Strm) (f : Stream → Stream) (w : s.MemoryCanonical) :
    (s.modStr c e f).MemoryCanonical := w
theorem State.memPut_canon (s : State) (a : Nat) (b : Byte) (w : s.MemoryCanonical) : (s.memPut a b).MemoryCanonical :=
  s.memPut_wf a b w
theorem State.memWrite_canon (s : State) (pa : Nat) (bs : List Byte) (w : s.MemoryCanonical) : (s.memWrite pa bs).MemoryCanonical :=
  s.memWrite_wf pa bs w
theorem State.writePieces_canon (l : List (Nat × Nat)) (s : State) (bs : List Byte) (w : s.MemoryCanonical) :
    (s.writePieces l bs).MemoryCanonical :=
  State.writePieces_wf l s bs w

/-- What an instruction's body answers keeps memory canonical. -/
def Res.Canon (r : Res) : Prop :=
  match r with
  | .ok d => d.s.MemoryCanonical
  | .fault _ _ _ => True
  | .faultIn s _ _ _ => s.MemoryCanonical
  | .final s => s.MemoryCanonical
  | .wait _ f => ∀ s, s.MemoryCanonical → (f s).MemoryCanonical

theorem Res.canon_ok {d : Done} (w : d.s.MemoryCanonical) : (Res.ok d).Canon := w
theorem Res.canon_fault {k : Cause} {a : Word} {l : List Nat} : (Res.fault k a l).Canon := trivial
theorem Res.canon_faultIn {s : State} {k : Cause} {a : Word} {l : List Nat} (w : s.MemoryCanonical) : (Res.faultIn s k a l).Canon := w
theorem Res.canon_final {s : State} (w : s.MemoryCanonical) : (Res.final s).Canon := w
theorem Res.canon_wait {k : Nat} {f : State → State} (w : ∀ s, s.MemoryCanonical → (f s).MemoryCanonical) : (Res.wait k f).Canon := w

theorem Done.plain_canon (s : State) (w : s.MemoryCanonical) : (Done.plain s).s.MemoryCanonical := w
theorem Done.one_canon (s : State) (n : New) (w : s.MemoryCanonical) : (Done.one s n).s.MemoryCanonical := w

/-- An outcome after which memory is canonical. -/
def CanonNext (o : Host.Outcome State Fault Refusal) : Prop := ∀ t, o = .next t → t.MemoryCanonical

theorem Res.canon_ite {c : Prop} [Decidable c] {a b : Res} (ha : a.Canon) (hb : b.Canon) : (if c then a else b).Canon := by
  split
  · exact ha
  · exact hb

/-! ### States in pairs, options, results and runs of the copy engine -/

theorem canon_fst {α : Type} {s : State} {a : α} (w : s.MemoryCanonical) : (s, a).1.MemoryCanonical := w

theorem canon_of_fst {α : Type} {p : State × α} {s : State} {a : α} (h : p = (s, a)) (w : p.1.MemoryCanonical) :
    s.MemoryCanonical := by
  rw [h] at w
  exact w

/-- A state in an option, if there is one, is canonical. -/
def OptCanon (o : Option State) : Prop := ∀ t, o = some t → t.MemoryCanonical

/-- The same of a state paired with something in an option. -/
def OptFstCanon {α : Type} (o : Option (State × α)) : Prop := ∀ t, o = some t → t.1.MemoryCanonical

/-- The same of a result. -/
def ExcCanon {α : Type} (o : Except α State) : Prop := ∀ t, o = .ok t → t.MemoryCanonical

theorem OptCanon.at_none : OptCanon none := fun _ h => nomatch h
theorem OptCanon.at_some {s : State} (w : s.MemoryCanonical) : OptCanon (some s) := by
  intro t h
  injection h with h
  exact h ▸ w
theorem OptCanon.at_ite {c : Prop} [Decidable c] {a b : Option State} (ha : OptCanon a) (hb : OptCanon b) :
    OptCanon (if c then a else b) := by
  split
  · exact ha
  · exact hb
theorem OptFstCanon.at_none {α : Type} : OptFstCanon (none : Option (State × α)) := fun _ h => nomatch h
theorem OptFstCanon.at_some {α : Type} {p : State × α} (w : p.1.MemoryCanonical) : OptFstCanon (some p) := by
  intro t h
  injection h with h
  exact h ▸ w
theorem OptFstCanon.at_ite {α : Type} {c : Prop} [Decidable c] {a b : Option (State × α)} (ha : OptFstCanon a) (hb : OptFstCanon b) :
    OptFstCanon (if c then a else b) := by
  split
  · exact ha
  · exact hb
theorem ExcCanon.at_error {α : Type} {e : α} : ExcCanon (.error e) := fun _ h => nomatch h
theorem ExcCanon.at_ok {α : Type} {s : State} (w : s.MemoryCanonical) : ExcCanon (.ok s : Except α State) := by
  intro t h
  injection h with h
  exact h ▸ w
theorem ExcCanon.at_ite {α : Type} {c : Prop} [Decidable c] {a b : Except α State} (ha : ExcCanon a) (hb : ExcCanon b) :
    ExcCanon (if c then a else b) := by
  split
  · exact ha
  · exact hb

/-- A result of a write: whether it is refused or not, the state it leaves is canonical. -/
def ExcBoth (o : Except State State) : Prop := (∀ t, o = .ok t → t.MemoryCanonical) ∧ (∀ t, o = .error t → t.MemoryCanonical)

theorem ExcBoth.at_error {s : State} (w : s.MemoryCanonical) : ExcBoth (.error s) := by
  refine ⟨(fun _ h => nomatch h), fun t h => ?_⟩
  injection h with h
  exact h ▸ w
theorem ExcBoth.at_ok {s : State} (w : s.MemoryCanonical) : ExcBoth (.ok s) := by
  refine ⟨fun t h => ?_, (fun _ h => nomatch h)⟩
  injection h with h
  exact h ▸ w
theorem ExcBoth.at_ite {c : Prop} [Decidable c] {a b : Except State State} (ha : ExcBoth a) (hb : ExcBoth b) :
    ExcBoth (if c then a else b) := by
  split
  · exact ha
  · exact hb

theorem canon_of_okBoth {o : Except State State} {s : State} (h : o = .ok s) (w : ExcBoth o) : s.MemoryCanonical := w.1 s h

theorem canon_of_errorBoth {o : Except State State} {s : State} (h : o = .error s) (w : ExcBoth o) : s.MemoryCanonical := w.2 s h

theorem canon_of_some {o : Option State} {s : State} (h : o = some s) (w : OptCanon o) : s.MemoryCanonical := w s h

theorem canon_of_someFst {α : Type} {o : Option (State × α)} {p : State × α} (h : o = some p) (w : OptFstCanon o) :
    p.1.MemoryCanonical := w p h

theorem canon_of_somePair {α : Type} {o : Option (State × α)} {s : State} {a : α} (h : o = some (s, a)) (w : OptFstCanon o) :
    s.MemoryCanonical := w (s, a) h

theorem canon_of_ok {α : Type} {o : Except α State} {s : State} (h : o = .ok s) (w : ExcCanon o) : s.MemoryCanonical := w s h

theorem canon_of_next {o : Host.Outcome State Fault Refusal} {s : State} (h : o = .next s) (w : CanonNext o) :
    s.MemoryCanonical := w s h

theorem OptCanon.foldStep {α : Type} (f : State → α → Option State) (h : ∀ s a, s.MemoryCanonical → OptCanon (f s a)) (l : List α)
    (s : State) (w : s.MemoryCanonical) : OptCanon (l.foldlM f s) := by
  induction l generalizing s with
  | nil => exact OptCanon.at_some w
  | cons a t ih =>
    intro u hu
    rw [List.foldlM_cons] at hu
    cases hf : f s a with
    | none => rw [hf] at hu; exact nomatch hu
    | some s1 => rw [hf] at hu; exact ih s1 (h s a w s1 hf) u hu

theorem ERun.mkRun {s : State} {f : Option (Cause × Nat)} {l : List (CoreId × Space × Nat)} {p : List (Nat × Nat)} {g : Nat}
    (w : s.MemoryCanonical) : (ERun.mk s f l p g).s.MemoryCanonical := w

theorem ERun.fstRun {α : Type} {r : ERun} {a : α} (w : r.s.MemoryCanonical) : (r, a).1.s.MemoryCanonical := w

theorem ERun.of_fstRun {α : Type} {p : ERun × α} {r : ERun} {a : α} (h : p = (r, a)) (w : p.1.s.MemoryCanonical) :
    r.s.MemoryCanonical := by
  rw [h] at w
  exact w

theorem ERun.iteRun {c : Prop} [Decidable c] {a b : ERun} (ha : a.s.MemoryCanonical) (hb : b.s.MemoryCanonical) :
    (if c then a else b).s.MemoryCanonical := by
  split
  · exact ha
  · exact hb

theorem ERun.foldRun {α : Type} (f : ERun → α → ERun) (h : ∀ r a, r.s.MemoryCanonical → (f r a).s.MemoryCanonical) (l : List α)
    (r : ERun) (w : r.s.MemoryCanonical) : (l.foldl f r).s.MemoryCanonical := by
  induction l generalizing r with
  | nil => exact w
  | cons a t ih => exact ih _ (h r a w)

/-- A fold over a run paired with something keeps the run's state canonical. -/
theorem ERun.foldPair {α β : Type} (f : ERun × β → α → ERun × β)
    (h : ∀ r a, r.1.s.MemoryCanonical → (f r a).1.s.MemoryCanonical) (l : List α) (r : ERun × β) (w : r.1.s.MemoryCanonical) :
    (l.foldl f r).1.s.MemoryCanonical := by
  induction l generalizing r with
  | nil => exact w
  | cons a t ih => exact ih _ (h r a w)

/-- The same of a state paired with something. -/
theorem canon_foldPair {α β : Type} (f : State × β → α → State × β)
    (h : ∀ r a, r.1.MemoryCanonical → (f r a).1.MemoryCanonical) (l : List α) (r : State × β) (w : r.1.MemoryCanonical) :
    (l.foldl f r).1.MemoryCanonical := by
  induction l generalizing r with
  | nil => exact w
  | cons a t ih => exact ih _ (h r a w)

theorem id_canon (s : State) (w : s.MemoryCanonical) : (id s).MemoryCanonical := w

theorem Res.canon_okOf {r : Res} {d : Done} (h : r = .ok d) (w : r.Canon) : d.s.MemoryCanonical := by
  rw [h] at w
  exact w

theorem Res.canon_finalOf {r : Res} {s : State} (h : r = .final s) (w : r.Canon) : s.MemoryCanonical := by
  rw [h] at w
  exact w

theorem Res.canon_faultInOf {r : Res} {s : State} {k : Cause} {a : Word} {l : List Nat} (h : r = .faultIn s k a l) (w : r.Canon) :
    s.MemoryCanonical := by
  rw [h] at w
  exact w

theorem Res.canon_waitOf {r : Res} {k : Nat} {f : State → State} (h : r = .wait k f) (w : r.Canon) (s : State)
    (ws : s.MemoryCanonical) : (f s).MemoryCanonical := by
  rw [h] at w
  exact w s ws

theorem Done.canon_mk {s : State} {l : List New} {o : Nat} {n : Option VAddr} {q : List Nat} {b : Bool} (w : s.MemoryCanonical) :
    (Done.mk s l o n q b).s.MemoryCanonical := w

theorem Done.canon_ite {c : Prop} [Decidable c] {a b : Done} (ha : a.s.MemoryCanonical) (hb : b.s.MemoryCanonical) :
    (if c then a else b).s.MemoryCanonical := by
  split
  · exact ha
  · exact hb

theorem canonNext_ite {c : Prop} [Decidable c] {a b : Host.Outcome State Fault Refusal} (ha : CanonNext a) (hb : CanonNext b) :
    CanonNext (if c then a else b) := by
  split
  · exact ha
  · exact hb

theorem canonNext_fault {f : Fault} : CanonNext (.fault f) := fun _ h => nomatch h

theorem canonNext_refused {r : Refusal} : CanonNext (.refused r) := fun _ h => nomatch h

theorem canonNext_next {t : State} (w : t.MemoryCanonical) : CanonNext (.next t) := by
  intro u h
  injection h with h
  exact h ▸ w

/-! ### What Machine/Ops.lean defines -/

theorem State.modTask_canon (s : State) (lid : Nat) (i : Nat) (f : Task → Task) (ws : s.MemoryCanonical) : (State.modTask s lid i f).MemoryCanonical := by
  unfold State.modTask
  split
  · with_reducible assumption
  · with_reducible apply State.canon_mk
    with_reducible assumption

theorem State.modLaunch_canon (s : State) (lid : Nat) (f : Launch → Launch) (ws : s.MemoryCanonical) : (State.modLaunch s lid f).MemoryCanonical := by
  unfold State.modLaunch
  split
  · with_reducible assumption
  · with_reducible apply State.canon_mk
    with_reducible assumption

theorem State.oorNote_canon (s : State) (c : CoreId) (e : Strm) (sp : Space) (write : Bool) (low : Option Nat) (ws : s.MemoryCanonical) : (State.oorNote s c e sp write low).MemoryCanonical := by
  unfold State.oorNote
  split
  · with_reducible assumption
  · with_reducible apply State.modCtx_canon
    with_reducible assumption

theorem State.putBits_canon (s : State) (agent : Nat) (o : CoreId × Space × Nat) (b : Byte) (m : Byte) (ws : s.MemoryCanonical) : (State.putBits s agent o b m).MemoryCanonical := by
  unfold State.putBits
  split
  · with_reducible apply State.canon_mk
    with_reducible assumption
  · with_reducible apply State.modCore_canon
    with_reducible assumption

theorem State.repair_canon (s : State) (agent : Nat) (owner : CoreId) (sp : Space) (as : List Nat) (ws : s.MemoryCanonical) : (State.repair s agent owner sp as).MemoryCanonical := by
  unfold State.repair
  split
  · with_reducible apply State.canon_ite
    · with_reducible assumption
    · with_reducible apply State.canon_mk
      with_reducible assumption
  · with_reducible apply State.canon_ite
    · with_reducible assumption
    · with_reducible apply State.modCore_canon
      with_reducible assumption

theorem State.localPut_canon (s : State) (c : CoreId) (agent : Nat) (sp : Space) (cells : List (Nat × Byte × Byte)) (ws : s.MemoryCanonical) : (State.localPut s c agent sp cells).MemoryCanonical := by
  unfold State.localPut
  extract_lets -underBinder +onlyGivenNames s1
  have ws1 : s1.MemoryCanonical := by
    unfold s1
    refine canon_foldl _ (fun _ _ _ => ?_) _ _ ?_
    · split
      · with_reducible apply State.putBits_canon
        with_reducible assumption
      · with_reducible assumption
    · with_reducible assumption
  clear_value s1
  extract_lets -underBinder +onlyGivenNames s2
  have ws2 : s2.MemoryCanonical := by
    unfold s2
    split
    · with_reducible apply State.modCtx_canon
      with_reducible assumption
    · with_reducible assumption
  clear_value s2
  refine canon_foldl _ (fun _ _ _ => ?_) _ _ ?_
  · with_reducible apply State.repair_canon
    with_reducible assumption
  · with_reducible assumption

theorem State.localWrite_canon (s : State) (c : CoreId) (agent : Nat) (sp : Space) (cells : List (Nat × Byte)) (ws : s.MemoryCanonical) : (State.localWrite s c agent sp cells).MemoryCanonical := by
  unfold State.localWrite
  with_reducible apply State.localPut_canon
  with_reducible assumption

theorem State.prefetch_canon (s : State) (c : CoreId) (va : Nat) (eng : Nat) (ws : s.MemoryCanonical) : (State.prefetch s c va eng).MemoryCanonical := by
  unfold State.prefetch
  extract_lets -underBinder +onlyGivenNames asid
  split
  · with_reducible assumption
  · split
    · with_reducible assumption
    · extract_lets -underBinder +onlyGivenNames t
      with_reducible apply State.canon_ite
      · with_reducible apply State.modCore_canon
        with_reducible assumption
      · with_reducible apply State.canon_mk
        with_reducible assumption

theorem State.cached_canon (s : State) (c : CoreId) (va : Nat) (eng : Nat) (ws : s.MemoryCanonical) : (State.cached s c va eng).MemoryCanonical := by
  unfold State.cached
  split
  · with_reducible assumption
  · split
    · with_reducible assumption
    · with_reducible apply State.prefetch_canon
      with_reducible assumption

theorem State.leaveFrozen_canon (s : State) (c : CoreId) (ws : s.MemoryCanonical) : (State.leaveFrozen s c).MemoryCanonical := by
  unfold State.leaveFrozen
  extract_lets -underBinder +onlyGivenNames s1
  have ws1 : s1.MemoryCanonical := by
    unfold s1
    with_reducible apply State.modCore_canon
    with_reducible assumption
  clear_value s1
  split
  · with_reducible apply State.modTask_canon
    with_reducible assumption
  · with_reducible assumption

theorem State.escalate_canon (s : State) (c : CoreId) (cause : Cause) (addr : Word) (ws : s.MemoryCanonical) : (State.escalate s c cause addr).MemoryCanonical := by
  unfold State.escalate
  extract_lets -underBinder +onlyGivenNames s1
  have ws1 : s1.MemoryCanonical := by
    unfold s1
    with_reducible apply State.modCtx_canon
    with_reducible assumption
  clear_value s1
  with_reducible apply State.leaveFrozen_canon
  with_reducible assumption

theorem State.enterHandler_canon (s : State) (c : CoreId) (ws : s.MemoryCanonical) : (State.enterHandler s c).MemoryCanonical := by
  unfold State.enterHandler
  split
  · with_reducible assumption
  · extract_lets -underBinder +onlyGivenNames pkt
    with_reducible apply State.canon_ite
    · with_reducible apply State.leaveFrozen_canon
      with_reducible assumption
    · split
      · with_reducible apply State.escalate_canon
        with_reducible assumption
      · extract_lets -underBinder +onlyGivenNames entry
        with_reducible apply State.canon_ite
        · with_reducible apply State.leaveFrozen_canon
          with_reducible assumption
        · extract_lets -underBinder +onlyGivenNames x
          extract_lets -underBinder +onlyGivenNames top
          extract_lets -underBinder +onlyGivenNames fr
          extract_lets -underBinder +onlyGivenNames s1
          have ws1 : s1.MemoryCanonical := by
            unfold s1
            with_reducible apply State.modCtx_canon
            with_reducible assumption
          clear_value s1
          with_reducible apply State.canon_ite
          · with_reducible apply State.escalate_canon
            with_reducible assumption
          · split
            · with_reducible apply State.escalate_canon
              with_reducible assumption
            · extract_lets -underBinder +onlyGivenNames cells
              extract_lets -underBinder +onlyGivenNames s2
              have ws2 : s2.MemoryCanonical := by
                unfold s2
                with_reducible apply State.localWrite_canon
                with_reducible assumption
              clear_value s2
              extract_lets -underBinder +onlyGivenNames odd
              extract_lets -underBinder +onlyGivenNames pc
              extract_lets -underBinder +onlyGivenNames s3
              have ws3 : s3.MemoryCanonical := by
                unfold s3
                with_reducible apply State.modCtx_canon
                with_reducible assumption
              clear_value s3
              with_reducible apply State.canon_ite
              · with_reducible apply State.escalate_canon
                with_reducible assumption
              · with_reducible apply State.modCore_canon
                with_reducible assumption

theorem State.freezeNow_canon (s : State) (c : CoreId) (cause : Cause) (ws : s.MemoryCanonical) : (State.freezeNow s c cause).MemoryCanonical := by
  unfold State.freezeNow
  extract_lets -underBinder +onlyGivenNames s1
  have ws1 : s1.MemoryCanonical := by
    unfold s1
    with_reducible apply State.modCtx_canon
    with_reducible assumption
  clear_value s1
  extract_lets -underBinder +onlyGivenNames pending
  extract_lets -underBinder +onlyGivenNames s2
  have ws2 : s2.MemoryCanonical := by
    unfold s2
    with_reducible apply State.modCore_canon
    with_reducible assumption
  clear_value s2
  with_reducible apply State.canon_ite
  · with_reducible assumption
  · with_reducible apply State.leaveFrozen_canon
    with_reducible assumption

theorem State.freezeCore_canon (s : State) (c : CoreId) (cause : Cause) (ws : s.MemoryCanonical) : (State.freezeCore s c cause).MemoryCanonical := by
  unfold State.freezeCore
  split
  · with_reducible apply State.freezeNow_canon
    with_reducible assumption
  · with_reducible apply State.canon_ite
    · with_reducible assumption
    · with_reducible apply State.modCore_canon
      with_reducible apply State.modStr_canon
      with_reducible assumption

theorem State.windowTouch_canon (s : State) (c : CoreId) (sp : Space) (as : List Nat) (ws : s.MemoryCanonical) : (State.windowTouch s c sp as).MemoryCanonical := by
  unfold State.windowTouch
  with_reducible apply State.canon_ite
  · with_reducible apply State.freezeCore_canon
    with_reducible assumption
  · with_reducible assumption

theorem State.takeFault_canon (s : State) (c : CoreId) (e : Strm) (cause : Cause) (addr : Word) (defer : Bool) (ws : s.MemoryCanonical) : (State.takeFault s c e cause addr defer).MemoryCanonical := by
  unfold State.takeFault
  with_reducible apply State.canon_ite
  · with_reducible apply State.freezeCore_canon
    with_reducible assumption
  · with_reducible apply State.canon_ite
    · with_reducible apply State.modStr_canon
      with_reducible assumption
    · extract_lets -underBinder +onlyGivenNames x
      extract_lets -underBinder +onlyGivenNames t
      extract_lets -underBinder +onlyGivenNames dict
      extract_lets -underBinder +onlyGivenNames frz
      extract_lets -underBinder +onlyGivenNames s1
      have ws1 : s1.MemoryCanonical := by
        unfold s1
        with_reducible apply State.modCtx_canon
        with_reducible assumption
      clear_value s1
      with_reducible apply State.canon_ite
      · with_reducible apply State.escalate_canon
        with_reducible apply State.modCore_canon
        with_reducible assumption
      · extract_lets -underBinder +onlyGivenNames s2
        have ws2 : s2.MemoryCanonical := by
          unfold s2
          with_reducible apply State.modCtx_canon
          with_reducible assumption
        clear_value s2
        extract_lets -underBinder +onlyGivenNames pending
        extract_lets -underBinder +onlyGivenNames s3
        have ws3 : s3.MemoryCanonical := by
          unfold s3
          with_reducible apply State.modCore_canon
          with_reducible assumption
        clear_value s3
        with_reducible apply State.canon_ite
        · with_reducible assumption
        · with_reducible apply State.enterHandler_canon
          with_reducible assumption

theorem State.returnFromTrap_canon (s : State) (c : CoreId) (ws : s.MemoryCanonical) : (State.returnFromTrap s c).MemoryCanonical := by
  unfold State.returnFromTrap
  extract_lets -underBinder +onlyGivenNames x
  extract_lets -underBinder +onlyGivenNames hi
  extract_lets -underBinder +onlyGivenNames fr
  extract_lets -underBinder +onlyGivenNames bs
  extract_lets -underBinder +onlyGivenNames dw
  with_reducible apply State.modCtx_canon
  with_reducible assumption

/-! ### What Machine/Flags.lean defines -/

theorem State.csrWrite_canon (s : State) (c : CoreId) (n : Nat) (op : CsrOp) (g : Word) (ws : s.MemoryCanonical) : (State.csrWrite s c n op g).MemoryCanonical := by
  unfold State.csrWrite
  extract_lets -underBinder +onlyGivenNames old
  extract_lets -underBinder +onlyGivenNames v
  extract_lets -underBinder +onlyGivenNames clr
  extract_lets -underBinder +onlyGivenNames wb
  with_reducible apply State.modCtx_canon
  with_reducible assumption

theorem State.countDeprecated_canon (s : State) (c : CoreId) (ws : s.MemoryCanonical) : (State.countDeprecated s c).MemoryCanonical := by
  unfold State.countDeprecated
  extract_lets -underBinder +onlyGivenNames n
  with_reducible apply State.canon_ite
  · with_reducible assumption
  · extract_lets -underBinder +onlyGivenNames s1
    have ws1 : s1.MemoryCanonical := by
      unfold s1
      with_reducible apply State.modCtx_canon
      with_reducible assumption
    clear_value s1
    with_reducible apply State.canon_ite
    · split
      · with_reducible apply State.canon_mk
        with_reducible assumption
      · with_reducible apply State.canon_mk
        with_reducible assumption
    · with_reducible assumption

/-! ### What Machine/Regions.lean defines -/

theorem State.setFlt_canon (s : State) (l : List (Nat × Nat)) (ws : s.MemoryCanonical) : (State.setFlt s l).MemoryCanonical := by
  unfold State.setFlt
  with_reducible apply State.canon_mk
  with_reducible assumption

theorem State.fltVirt_canon (s : State) (asid : BitVec 16) (va : Nat) (n : Nat) (ws : s.MemoryCanonical) : (State.fltVirt s asid va n).MemoryCanonical := by
  unfold State.fltVirt
  extract_lets -underBinder +onlyGivenNames s1
  have ws1 : s1.MemoryCanonical := by
    unfold s1
    with_reducible apply State.setFlt_canon
    with_reducible assumption
  clear_value s1
  with_reducible apply State.canon_mk
  with_reducible assumption

theorem State.setOvf_canon (s : State) (ids : List Nat) (ws : s.MemoryCanonical) : (State.setOvf s ids).MemoryCanonical := by
  unfold State.setOvf
  with_reducible apply State.canon_mk
  with_reducible assumption

theorem State.countPhys_canon (s : State) (src : WSrc) (addr : Nat) (pa : Nat) (n : Nat) (ws : s.MemoryCanonical) : (State.countPhys s src addr pa n).MemoryCanonical := by
  unfold State.countPhys
  with_reducible apply State.canon_ite
  · with_reducible assumption
  · extract_lets -underBinder +onlyGivenNames msgs
    with_reducible apply State.canon_mk
    with_reducible assumption

theorem State.writtenOver_canon (s : State) (l : List (Nat × Nat)) (ws : s.MemoryCanonical) : (State.writtenOver s l).MemoryCanonical := by
  unfold State.writtenOver
  with_reducible apply State.canon_mk
  with_reducible assumption

theorem State.performWrite_canon (s : State) (src : WSrc) (via : Option (BitVec 16)) (addr : Nat) (l : List (Nat × Nat)) (bs : List Byte) (ws : s.MemoryCanonical) : (State.performWrite s src via addr l bs).MemoryCanonical := by
  unfold State.performWrite
  extract_lets -underBinder +onlyGivenNames s1
  have ws1 : s1.MemoryCanonical := by
    unfold s1
    with_reducible apply State.writtenOver_canon
    refine canon_foldl _ (fun _ _ _ => ?_) _ _ ?_
    · with_reducible apply State.countPhys_canon
      with_reducible assumption
    · with_reducible apply State.writePieces_canon
      with_reducible assumption
  clear_value s1
  with_reducible apply State.canon_mk
  with_reducible assumption

theorem State.writeAgain_canon (s : State) (w : Written) (ws : s.MemoryCanonical) : (State.writeAgain s w).MemoryCanonical := by
  unfold State.writeAgain
  refine canon_foldl _ (fun _ _ _ => ?_) _ _ ?_
  · split
    · with_reducible apply State.memWrite_canon
      with_reducible assumption
    · with_reducible assumption
  · with_reducible assumption

theorem State.replayWrites_canon (s : State) (c : CoreId) (e : Strm) (ws : s.MemoryCanonical) : (State.replayWrites s c e).MemoryCanonical := by
  unfold State.replayWrites
  refine canon_foldl _ (fun _ _ _ => ?_) _ _ ?_
  · with_reducible apply State.writeAgain_canon
    with_reducible assumption
  · with_reducible assumption

theorem State.retireAcks_canon (s : State) (ws : s.MemoryCanonical) : (State.retireAcks s).MemoryCanonical := by
  unfold State.retireAcks
  with_reducible apply State.canon_mk
  with_reducible assumption

theorem State.performStore_canon (s : State) (c : CoreId) (p : PStore) (ws : s.MemoryCanonical) : (State.performStore s c p).MemoryCanonical := by
  unfold State.performStore
  with_reducible apply State.performWrite_canon
  with_reducible assumption

theorem State.performStores_canon (s : State) (c : CoreId) (ws : s.MemoryCanonical) : (State.performStores s c).MemoryCanonical := by
  unfold State.performStores
  extract_lets -underBinder +onlyGivenNames l
  refine canon_foldl _ (fun _ _ _ => ?_) _ _ ?_
  · with_reducible apply State.performStore_canon
    with_reducible assumption
  · with_reducible apply State.modCore_canon
    with_reducible assumption

theorem State.devWrite_canon (s : State) (src : WSrc) (asid : BitVec 16) (va : Nat) (bs : List Byte) (ws : s.MemoryCanonical) : ExcBoth (State.devWrite s src asid va bs) := by
  unfold State.devWrite
  split
  · with_reducible apply ExcBoth.at_error
    with_reducible apply State.fltVirt_canon
    with_reducible assumption
  · with_reducible apply ExcBoth.at_ite
    · with_reducible apply ExcBoth.at_error
      with_reducible apply State.fltVirt_canon
      with_reducible assumption
    · with_reducible apply ExcBoth.at_ok
      with_reducible apply State.performWrite_canon
      with_reducible assumption

theorem State.drainRecs_canon (s : State) (q : Nat) (l : List (BitVec 512)) (ws : s.MemoryCanonical) :
    (s.drainRecs q l).MemoryCanonical := by
  induction l generalizing s with
  | nil => exact ws
  | cons r t ih =>
    unfold State.drainRecs
    split
    · exact ws
    · split
      · exact ws
      · with_reducible apply State.canon_ite
        · split
          · refine canon_of_errorBoth (by assumption) ?_
            exact State.devWrite_canon _ _ _ _ _ ws
          · with_reducible apply ih
            with_reducible apply State.canon_mk
            refine canon_of_okBoth (by assumption) ?_
            exact State.devWrite_canon _ _ _ _ _ ws
        · exact ws


theorem State.report_canon (s : State) (q : Nat) (r : Rec) (ws : s.MemoryCanonical) : (State.report s q r).MemoryCanonical := by
  unfold State.report
  split
  · with_reducible assumption
  · extract_lets -underBinder +onlyGivenNames u1
    with_reducible apply State.drainRecs_canon
    with_reducible apply State.canon_mk
    with_reducible assumption

theorem State.reportTask_canon (s : State) (lid : Nat) (tidx : Nat) (r : Rec) (ws : s.MemoryCanonical) : (State.reportTask s lid tidx r).MemoryCanonical := by
  unfold State.reportTask
  split
  · with_reducible assumption
  · with_reducible apply State.report_canon
    with_reducible assumption

theorem State.reportAction_canon (s : State) (asid : BitVec 16) (r : Rec) (ws : s.MemoryCanonical) : (State.reportAction s asid r).MemoryCanonical := by
  unfold State.reportAction
  split
  · with_reducible apply State.report_canon
    with_reducible assumption
  · with_reducible apply State.canon_mk
    with_reducible assumption

theorem State.homeSend_canon (s : State) (l : List HomeMsg) (ws : s.MemoryCanonical) : (s.homeSend l).1.MemoryCanonical := by
  induction l generalizing s with
  | nil => exact ws
  | cons m t ih =>
    cases m with
    | notify w =>
      unfold State.homeSend
      exact ih _ ws
    | action asid r =>
      have w1 : (s.reportAction asid r).MemoryCanonical := State.reportAction_canon _ _ _ ws
      unfold State.homeSend
      extract_lets s1
      split
      · exact ih _ w1
      · split
        · exact ih _ w1
        · split
          · exact w1
          · exact ih _ w1
    | handed q bits =>
      unfold State.homeSend
      split
      · exact ws
      · exact ih _ ws


theorem State.drainHome_canon (s : State) (h : Nat) (ws : s.MemoryCanonical) : (State.drainHome s h).MemoryCanonical := by
  unfold State.drainHome
  split
  · with_reducible assumption
  · split
    · with_reducible apply State.canon_mk
      refine canon_of_fst (by assumption) ?_
      with_reducible apply State.homeSend_canon
      with_reducible assumption
    · with_reducible apply State.canon_mk
      refine canon_of_fst (by assumption) ?_
      with_reducible apply State.homeSend_canon
      with_reducible assumption

theorem State.homePost_canon (s : State) (h : Nat) (m : HomeMsg) (ws : s.MemoryCanonical) : (State.homePost s h m).MemoryCanonical := by
  unfold State.homePost
  with_reducible apply State.drainHome_canon
  with_reducible apply State.canon_mk
  with_reducible assumption

theorem State.gateSees_canon (s : State) (id : Nat) (ws : s.MemoryCanonical) : (State.gateSees s id).MemoryCanonical := by
  unfold State.gateSees
  extract_lets -underBinder +onlyGivenNames hit
  extract_lets -underBinder +onlyGivenNames seq
  with_reducible apply State.canon_mk
  with_reducible assumption

theorem State.barNotice_canon (s : State) (t : State) (pa : Nat) (ws : s.MemoryCanonical) (wt : t.MemoryCanonical) : (State.barNotice s t pa).MemoryCanonical := by
  unfold State.barNotice
  with_reducible apply State.canon_ite
  · with_reducible assumption
  · with_reducible apply State.canon_mk
    with_reducible assumption

theorem State.fireBarrier_canon (s : State) (r : Region) (home : Nat) (aux : Nat) (ws : s.MemoryCanonical) : (State.fireBarrier s r home aux).MemoryCanonical := by
  unfold State.fireBarrier
  extract_lets -underBinder +onlyGivenNames va
  extract_lets -underBinder +onlyGivenNames bad
  split
  · unfold bad
    with_reducible apply State.homePost_canon
    with_reducible apply State.fltVirt_canon
    with_reducible assumption
  · with_reducible apply State.canon_ite
    · unfold bad
      with_reducible apply State.homePost_canon
      with_reducible apply State.setFlt_canon
      with_reducible assumption
    · split
      · unfold bad
        with_reducible apply State.homePost_canon
        with_reducible apply State.setOvf_canon
        with_reducible assumption
      · split
        · unfold bad
          with_reducible apply State.homePost_canon
          with_reducible assumption
        · extract_lets -underBinder +onlyGivenNames o
          extract_lets -underBinder +onlyGivenNames s1
          have ws1 : s1.MemoryCanonical := by
            unfold s1
            with_reducible apply State.barNotice_canon
            · with_reducible assumption
            · with_reducible apply State.performWrite_canon
              with_reducible assumption
          clear_value s1
          with_reducible apply State.canon_ite
          · unfold bad
            with_reducible apply State.homePost_canon
            with_reducible assumption
          · with_reducible assumption

theorem State.fireStart_canon (s : State) (r : Region) (die : Nat) (home : Nat) (aux : Nat) (ws : s.MemoryCanonical) : (State.fireStart s r die home aux).MemoryCanonical := by
  unfold State.fireStart
  extract_lets -underBinder +onlyGivenNames key
  split
  · with_reducible assumption
  · extract_lets -underBinder +onlyGivenNames own
    with_reducible apply State.canon_ite
    · with_reducible apply State.homePost_canon
      with_reducible assumption
    · with_reducible apply State.canon_mk
      with_reducible assumption

theorem State.fireAct_canon (s : State) (r : Region) (die : Nat) (idx : Nat) (home : Nat) (ws : s.MemoryCanonical) : (State.fireAct s r die idx home).MemoryCanonical := by
  unfold State.fireAct
  split
  · with_reducible apply State.fireBarrier_canon
    with_reducible assumption
  · with_reducible apply State.fireStart_canon
    with_reducible assumption
  · with_reducible apply State.homePost_canon
    with_reducible assumption
  · with_reducible assumption

theorem State.dieFired_canon (s : State) (id : Nat) (r : Region) (ws : s.MemoryCanonical) : (State.dieFired s id r).MemoryCanonical := by
  unfold State.dieFired
  with_reducible apply State.gateSees_canon
  with_reducible apply State.fireAct_canon
  with_reducible apply State.canon_mk
  with_reducible assumption

theorem State.coreFired_canon (s : State) (c : CoreId) (slot : Nat) (r : Region) (ws : s.MemoryCanonical) : (State.coreFired s c slot r).MemoryCanonical := by
  unfold State.coreFired
  with_reducible apply State.fireAct_canon
  with_reducible apply State.modCtx_canon
  with_reducible apply State.canon_mk
  with_reducible assumption

theorem State.setCoreEntry_canon (s : State) (c : CoreId) (slot : Nat) (r : Region) (ws : s.MemoryCanonical) : (State.setCoreEntry s c slot r).MemoryCanonical := by
  unfold State.setCoreEntry
  with_reducible apply State.modCtx_canon
  with_reducible assumption

theorem State.reportOverflow_canon (s : State) (src : WSrc) (addr : Nat) (aux : Nat) (ws : s.MemoryCanonical) : (State.reportOverflow s src addr aux).MemoryCanonical := by
  unfold State.reportOverflow
  split
  · with_reducible assumption
  · with_reducible apply State.reportAction_canon
    with_reducible assumption
  · with_reducible apply State.reportTask_canon
    with_reducible assumption

theorem State.countMsg_canon (s : State) (m : CountMsg) (ws : s.MemoryCanonical) : (State.countMsg s m).MemoryCanonical := by
  unfold State.countMsg
  split
  · with_reducible assumption
  · with_reducible apply State.canon_ite
    · extract_lets -underBinder +onlyGivenNames k
      extract_lets -underBinder +onlyGivenNames s1
      have ws1 : s1.MemoryCanonical := by
        unfold s1
        with_reducible apply State.canon_mk
        with_reducible assumption
      clear_value s1
      extract_lets -underBinder +onlyGivenNames s2
      have ws2 : s2.MemoryCanonical := by
        unfold s2
        with_reducible apply State.canon_ite
        · with_reducible apply State.dieFired_canon
          with_reducible assumption
        · with_reducible assumption
      clear_value s2
      with_reducible apply State.canon_ite
      · with_reducible apply State.reportOverflow_canon
        with_reducible assumption
      · with_reducible assumption
    · with_reducible assumption

theorem State.keepPromises_canon (s : State) (id : Nat) (r : Region) (ws : s.MemoryCanonical) : (State.keepPromises s id r).MemoryCanonical := by
  unfold State.keepPromises
  extract_lets -underBinder +onlyGivenNames s1
  have ws1 : s1.MemoryCanonical := by
    unfold s1
    refine canon_foldl _ (fun _ _ _ => ?_) _ _ ?_
    · with_reducible apply State.canon_ite
      · with_reducible apply State.performStores_canon
        with_reducible assumption
      · with_reducible assumption
    · with_reducible assumption
  clear_value s1
  extract_lets -underBinder +onlyGivenNames mine
  refine canon_foldl _ (fun _ _ _ => ?_) _ _ ?_
  · with_reducible apply State.countMsg_canon
    with_reducible assumption
  · with_reducible apply State.canon_mk
    with_reducible assumption

theorem State.countDie_canon (s : State) (m : CountMsg) (ws : s.MemoryCanonical) : (State.countDie s m).MemoryCanonical := by
  unfold State.countDie
  split
  · with_reducible assumption
  · with_reducible apply State.canon_ite
    · with_reducible apply State.countMsg_canon
      with_reducible assumption
    · with_reducible apply State.countMsg_canon
      with_reducible apply State.keepPromises_canon
      with_reducible assumption

theorem State.countLocal_canon (s : State) (owner : CoreId) (sp : Space) (as : List Nat) (src : WSrc) (ws : s.MemoryCanonical) : (State.countLocal s owner sp as src).MemoryCanonical := by
  unfold State.countLocal
  refine canon_foldl _ (fun _ _ _ => ?_) _ _ ?_
  · refine canon_foldl _ (fun _ _ _ => ?_) _ _ ?_
    · extract_lets -underBinder +onlyGivenNames hit
      with_reducible apply State.canon_ite
      · extract_lets -underBinder +onlyGivenNames k
        extract_lets -underBinder +onlyGivenNames s1
        have ws1 : s1.MemoryCanonical := by
          unfold s1
          with_reducible apply State.setCoreEntry_canon
          with_reducible assumption
        clear_value s1
        extract_lets -underBinder +onlyGivenNames s2
        have ws2 : s2.MemoryCanonical := by
          unfold s2
          with_reducible apply State.canon_ite
          · with_reducible apply State.coreFired_canon
            with_reducible assumption
          · with_reducible assumption
        clear_value s2
        with_reducible apply State.canon_ite
        · with_reducible apply State.reportOverflow_canon
          with_reducible assumption
        · with_reducible assumption
      · with_reducible assumption
    · with_reducible assumption
  · with_reducible assumption

theorem State.localStoreBits_canon (s : State) (c : CoreId) (agent : Nat) (sp : Space) (cells : List (Nat × Byte × Byte)) (kind : Nat) (ws : s.MemoryCanonical) : (State.localStoreBits s c agent sp cells kind).MemoryCanonical := by
  unfold State.localStoreBits
  extract_lets -underBinder +onlyGivenNames s1
  have ws1 : s1.MemoryCanonical := by
    unfold s1
    with_reducible apply State.localPut_canon
    with_reducible assumption
  clear_value s1
  refine canon_foldl _ (fun _ _ _ => ?_) _ _ ?_
  · with_reducible apply State.countLocal_canon
    with_reducible assumption
  · with_reducible assumption

theorem State.localStore_canon (s : State) (c : CoreId) (agent : Nat) (sp : Space) (cells : List (Nat × Byte)) (kind : Nat) (ws : s.MemoryCanonical) : (State.localStore s c agent sp cells kind).MemoryCanonical := by
  unfold State.localStore
  with_reducible apply State.localStoreBits_canon
  with_reducible assumption

theorem State.setLocalOvf_canon (s : State) (l : List (CoreId × Nat × Region × CoreId)) (ws : s.MemoryCanonical) : (State.setLocalOvf s l).MemoryCanonical := by
  unfold State.setLocalOvf
  refine canon_foldl _ (fun _ _ _ => ?_) _ _ ?_
  · with_reducible apply State.setCoreEntry_canon
    with_reducible assumption
  · with_reducible assumption

/-! ### What Machine/MatCore.lean defines -/

theorem State.mmaNote_canon (s : State) (c : CoreId) (j : MmaJob) (ws : s.MemoryCanonical) : (State.mmaNote s c j).MemoryCanonical := by
  unfold State.mmaNote
  refine canon_foldl _ (fun _ _ _ => ?_) _ _ ?_
  · with_reducible apply State.oorNote_canon
    with_reducible assumption
  · with_reducible assumption

/-! ### What Machine/Issue.lean defines -/

theorem State.landBits_canon (s : State) (c : CoreId) (e : Strm) (sp : Space) (cells : List (Nat × Byte × Byte)) (ws : s.MemoryCanonical) : (State.landBits s c e sp cells).MemoryCanonical := by
  unfold State.landBits
  with_reducible apply State.localStoreBits_canon
  with_reducible apply State.oorNote_canon
  with_reducible assumption

theorem State.landCells_canon (s : State) (c : CoreId) (e : Strm) (sp : Space) (cells : List (Nat × Byte)) (ws : s.MemoryCanonical) : (State.landCells s c e sp cells).MemoryCanonical := by
  unfold State.landCells
  with_reducible apply State.landBits_canon
  with_reducible assumption

theorem State.applyDest_canon (s : State) (c : CoreId) (e : Strm) (d : Dest) (ws : s.MemoryCanonical) : (State.applyDest s c e d).MemoryCanonical := by
  unfold State.applyDest
  split
  · with_reducible assumption
  · with_reducible apply State.modCtx_canon
    with_reducible assumption
  · with_reducible apply State.modCtx_canon
    with_reducible assumption
  · with_reducible apply State.modCtx_canon
    with_reducible assumption
  · with_reducible apply State.modCtx_canon
    with_reducible apply State.landBits_canon
    with_reducible assumption
  · with_reducible apply State.modCtx_canon
    with_reducible assumption
  · with_reducible apply State.landCells_canon
    with_reducible assumption
  · with_reducible apply State.csrWrite_canon
    with_reducible assumption
  · with_reducible apply State.modCtx_canon
    with_reducible assumption
  · with_reducible apply State.modCtx_canon
    with_reducible assumption
  · with_reducible apply State.modCtx_canon
    with_reducible assumption
  · with_reducible apply State.modCtx_canon
    with_reducible apply State.landCells_canon
    with_reducible assumption
  · with_reducible apply State.modCtx_canon
    with_reducible apply State.landCells_canon
    with_reducible assumption
  · with_reducible apply State.modCtx_canon
    with_reducible assumption

theorem State.landEntry_canon (s : State) (c : CoreId) (e : Strm) (l : Landing) (ws : s.MemoryCanonical) : (State.landEntry s c e l).MemoryCanonical := by
  unfold State.landEntry
  with_reducible apply State.modCtx_canon
  with_reducible apply State.applyDest_canon
  with_reducible assumption

theorem State.land_canon (s : State) (c : CoreId) (e : Strm) (ws : s.MemoryCanonical) : (State.land s c e).MemoryCanonical := by
  unfold State.land
  extract_lets -underBinder +onlyGivenNames q
  extract_lets -underBinder +onlyGivenNames s1
  have ws1 : s1.MemoryCanonical := by
    unfold s1
    with_reducible apply State.modStr_canon
    with_reducible assumption
  clear_value s1
  refine canon_foldl _ (fun _ _ _ => ?_) _ _ ?_
  · with_reducible apply State.landEntry_canon
    with_reducible assumption
  · with_reducible assumption

theorem State.endSlot_canon (s : State) (c : CoreId) (e : Strm) (ws : s.MemoryCanonical) : (State.endSlot s c e).MemoryCanonical := by
  unfold State.endSlot
  extract_lets -underBinder +onlyGivenNames s1
  have ws1 : s1.MemoryCanonical := by
    unfold s1
    with_reducible apply State.modStr_canon
    with_reducible assumption
  clear_value s1
  split
  · with_reducible apply State.modCtx_canon
    with_reducible assumption
  · with_reducible apply State.modCtx_canon
    with_reducible assumption
  · with_reducible assumption

theorem State.slotReads_canon (s : State) (c : CoreId) (q : List Landing) (ws : s.MemoryCanonical) :
    (s.slotReads c q).1.MemoryCanonical := by
  induction q generalizing s with
  | nil => exact ws
  | cons l t ih =>
    unfold State.slotReads
    split
    · split
      · exact ws
      · exact ih _ (State.mmaNote_canon _ _ _ ws)
    · split
      · exact ws
      · exact ih _ (State.oorNote_canon _ _ _ _ _ _ ws)
    · exact ih _ ws


theorem State.beginSlot_canon (s : State) (c : CoreId) (e : Strm) (ws : s.MemoryCanonical) : (State.beginSlot s c e).1.MemoryCanonical := by
  unfold State.beginSlot
  extract_lets -underBinder +onlyGivenNames s1
  have ws1 : s1.MemoryCanonical := by
    unfold s1
    with_reducible apply State.land_canon
    with_reducible assumption
  clear_value s1
  split
  · split
    with_reducible apply canon_fst
    with_reducible apply State.modStr_canon
    refine canon_of_fst (by assumption) ?_
    with_reducible apply State.slotReads_canon
    with_reducible assumption
  · with_reducible apply canon_fst
    with_reducible assumption

theorem State.readFault_canon (s : State) (c : CoreId) (f : ReadFault) (ws : s.MemoryCanonical) : (State.readFault s c f).MemoryCanonical := by
  unfold State.readFault
  extract_lets -underBinder +onlyGivenNames l
  extract_lets -underBinder +onlyGivenNames s1
  have ws1 : s1.MemoryCanonical := by
    unfold s1
    with_reducible apply State.modCtx_canon
    with_reducible assumption
  clear_value s1
  with_reducible apply State.canon_ite
  · with_reducible apply State.takeFault_canon
    with_reducible assumption
  · extract_lets -underBinder +onlyGivenNames s2
    have ws2 : s2.MemoryCanonical := by
      unfold s2
      with_reducible apply State.modCtx_canon
      with_reducible assumption
    clear_value s2
    with_reducible apply State.takeFault_canon
    with_reducible assumption

theorem State.idleSlot_canon (s : State) (c : CoreId) (e : Strm) (ws : s.MemoryCanonical) : (State.idleSlot s c e).MemoryCanonical := by
  unfold State.idleSlot
  split
  · with_reducible apply State.readFault_canon
    refine canon_of_fst (by assumption) ?_
    with_reducible apply State.beginSlot_canon
    with_reducible assumption
  · with_reducible apply State.endSlot_canon
    refine canon_of_fst (by assumption) ?_
    with_reducible apply State.beginSlot_canon
    with_reducible assumption

theorem State.waitCycle_canon (s : State) (c : CoreId) (e : Strm) (key : Nat) (ws : s.MemoryCanonical) : (State.waitCycle s c e key).MemoryCanonical := by
  unfold State.waitCycle
  extract_lets -underBinder +onlyGivenNames x
  extract_lets -underBinder +onlyGivenNames n
  with_reducible apply State.canon_ite
  · with_reducible apply State.takeFault_canon
    with_reducible assumption
  · with_reducible apply State.modStr_canon
    with_reducible assumption

theorem State.complete_canon (c : CoreId) (e : Strm) (r : Ring) (d : Done) (wd : d.s.MemoryCanonical) : (State.complete c e r d).MemoryCanonical := by
  unfold State.complete
  extract_lets -underBinder +onlyGivenNames s1
  have ws1 : s1.MemoryCanonical := by
    unfold s1
    with_reducible apply State.modCtx_canon
    with_reducible assumption
  clear_value s1
  extract_lets -underBinder +onlyGivenNames carry
  extract_lets -underBinder +onlyGivenNames s2
  have ws2 : s2.MemoryCanonical := by
    unfold s2
    with_reducible apply State.modStr_canon
    with_reducible assumption
  clear_value s2
  with_reducible apply State.endSlot_canon
  with_reducible assumption

theorem State.canon_readOr (s1 u : State) (c : CoreId) (rf : Option ReadFault) (w1 : s1.MemoryCanonical) (wu : u.MemoryCanonical) :
    (match rf with
      | some f => s1.readFault c f
      | none => u).MemoryCanonical := by
  split
  · exact State.readFault_canon _ _ _ w1
  · exact wu

theorem State.attempt_canon (s : State) (e : Strm) (r : Ring) (body : CoreId → State → Res) (ws : s.MemoryCanonical)
    (wbody : ∀ c t, t.MemoryCanonical → (body c t).Canon) : (s.attempt e r body).MemoryCanonical := by
  unfold State.attempt
  extract_lets -underBinder +onlyGivenNames c
  split
  · exact State.waitCycle_canon _ _ _ _ ws
  · split
    rename_i s1 rf hg
    have w1 : s1.MemoryCanonical := canon_of_fst hg (State.beginSlot_canon _ _ _ ws)
    have hb := wbody c s1 w1
    split
    · rename_i k f hk
      rw [hk] at hb
      exact State.waitCycle_canon _ _ _ _ (hb _ ws)
    · exact State.canon_ite ws (State.canon_readOr _ _ _ _ w1 (State.takeFault_canon _ _ _ _ _ _ w1))
    · rename_i hk
      rw [hk] at hb
      exact State.canon_ite ws (State.canon_readOr _ _ _ _ w1 (State.takeFault_canon _ _ _ _ _ _ hb))
    · rename_i hk
      rw [hk] at hb
      exact hb
    · rename_i hk
      rw [hk] at hb
      exact State.canon_ite ws (State.canon_readOr _ _ _ _ w1 (State.complete_canon _ _ _ _ hb))


theorem issue_canon (e : Strm) (r : Ring) (body : CoreId → State → Res) (s : State) (ws : s.MemoryCanonical)
    (wbody : ∀ c t, t.MemoryCanonical → (body c t).Canon) : CanonNext (issue e r body s) :=
  canonNext_next (State.attempt_canon s e r body ws wbody)

end Sys2Proof.Machine
end

