-- ==== Sys2Proof/Laws/CanonicalParts.lean ====
section
/-!
SUPPORT. Memory's canonical form is kept by the instruction families' shared parts and by the events of engines, tasks,
fabric, management, power and storage levels: one lemma `f_canon` for each definition f that answers a state.
-/

namespace Sys2Proof.Machine

/-! ### What Machine/Branch.lean defines -/

theorem execBr_canon (r : Ring) (p : PReg) (neg : Bool) (off : BitVec 18) (s : State) (ws : s.MemoryCanonical) : CanonNext (execBr r p neg off s) := by
  unfold execBr
  with_reducible apply issue_canon
  · with_reducible assumption
  · intro _ _ _
    extract_lets -underBinder +onlyGivenNames x
    with_reducible apply Res.canon_ok
    extract_lets -underBinder +onlyGivenNames __src
    have w__src : __src.s.MemoryCanonical := by
      unfold __src
      with_reducible apply Done.plain_canon
      with_reducible assumption
    clear_value __src
    with_reducible apply Done.canon_mk
    with_reducible assumption

theorem execJmp_canon (r : Ring) (off : BitVec 22) (s : State) (ws : s.MemoryCanonical) : CanonNext (execJmp r off s) := by
  unfold execJmp
  with_reducible apply issue_canon
  · with_reducible assumption
  · intro _ _ _
    with_reducible apply Res.canon_ok
    extract_lets -underBinder +onlyGivenNames __src
    have w__src : __src.s.MemoryCanonical := by
      unfold __src
      with_reducible apply Done.plain_canon
      with_reducible assumption
    clear_value __src
    with_reducible apply Done.canon_mk
    with_reducible assumption

theorem execCall_canon (r : Ring) (off : BitVec 22) (s : State) (ws : s.MemoryCanonical) : CanonNext (execCall r off s) := by
  unfold execCall
  with_reducible apply issue_canon
  · with_reducible assumption
  · intro _ _ _
    extract_lets -underBinder +onlyGivenNames t
    with_reducible apply Res.canon_ok
    extract_lets -underBinder +onlyGivenNames __src
    have w__src : __src.s.MemoryCanonical := by
      unfold __src
      with_reducible apply Done.one_canon
      with_reducible assumption
    clear_value __src
    with_reducible apply Done.canon_mk
    with_reducible assumption

theorem jumpReg_canon (c : CoreId) (s : State) (a : Word) (lands : List New) (ws : s.MemoryCanonical) : (jumpReg c s a lands).Canon := by
  unfold jumpReg
  with_reducible apply Res.canon_ite
  · exact Res.canon_fault
  · with_reducible apply Res.canon_ok
    extract_lets -underBinder +onlyGivenNames __src
    have w__src : __src.s.MemoryCanonical := by
      unfold __src
      with_reducible apply Done.plain_canon
      with_reducible assumption
    clear_value __src
    with_reducible apply Done.canon_mk
    with_reducible assumption

theorem execJr_canon (r : Ring) (a : SReg) (s : State) (ws : s.MemoryCanonical) : CanonNext (execJr r a s) := by
  unfold execJr
  with_reducible apply issue_canon
  · with_reducible assumption
  · intro _ _ _
    with_reducible apply jumpReg_canon
    with_reducible assumption

theorem execJalr_canon (r : Ring) (d : SReg) (a : SReg) (s : State) (ws : s.MemoryCanonical) : CanonNext (execJalr r d a s) := by
  unfold execJalr
  with_reducible apply issue_canon
  · with_reducible assumption
  · intro _ _ _
    with_reducible apply jumpReg_canon
    with_reducible assumption

theorem execRet_canon (r : Ring) (s : State) (ws : s.MemoryCanonical) : CanonNext (execRet r s) := by
  unfold execRet
  with_reducible apply issue_canon
  · with_reducible assumption
  · intro _ _ _
    with_reducible apply jumpReg_canon
    with_reducible assumption

theorem execLoop_canon (r : Ring) (d : SReg) (imm : BitVec 16) (s : State) (ws : s.MemoryCanonical) : CanonNext (execLoop r d imm s) := by
  unfold execLoop
  with_reducible apply issue_canon
  · with_reducible assumption
  · intro _ _ _
    extract_lets -underBinder +onlyGivenNames x
    extract_lets -underBinder +onlyGivenNames n
    with_reducible apply Res.canon_ok
    extract_lets -underBinder +onlyGivenNames __src
    have w__src : __src.s.MemoryCanonical := by
      unfold __src
      with_reducible apply Done.one_canon
      with_reducible assumption
    clear_value __src
    with_reducible apply Done.canon_mk
    with_reducible assumption

theorem idleOp_canon (e : Strm) (r : Ring) (s : State) (ws : s.MemoryCanonical) : CanonNext (idleOp e r s) := by
  unfold idleOp
  with_reducible apply issue_canon
  · with_reducible assumption
  · intro _ _ _
    with_reducible apply Res.canon_ok
    with_reducible apply Done.plain_canon
    with_reducible assumption

theorem execNop_canon (r : Ring) (s : State) (ws : s.MemoryCanonical) : CanonNext (execNop r s) := by
  unfold execNop
  with_reducible apply idleOp_canon
  with_reducible assumption

theorem execVnop_canon (r : Ring) (s : State) (ws : s.MemoryCanonical) : CanonNext (execVnop r s) := by
  unfold execVnop
  with_reducible apply idleOp_canon
  with_reducible assumption

theorem execMnop_canon (r : Ring) (s : State) (ws : s.MemoryCanonical) : CanonNext (execMnop r s) := by
  unfold execMnop
  with_reducible apply idleOp_canon
  with_reducible assumption

theorem execXnop_canon (r : Ring) (s : State) (ws : s.MemoryCanonical) : CanonNext (execXnop r s) := by
  unfold execXnop
  with_reducible apply idleOp_canon
  with_reducible assumption

theorem execSkip_canon (r : Ring) (p : PReg) (neg : Bool) (n : BitVec 6) (s : State) (ws : s.MemoryCanonical) : CanonNext (execSkip r p neg n s) := by
  unfold execSkip
  with_reducible apply issue_canon
  · with_reducible assumption
  · intro _ _ _
    with_reducible apply Res.canon_ite
    · with_reducible apply Res.canon_ok
      with_reducible apply Done.plain_canon
      with_reducible apply State.modStr_canon
      with_reducible assumption
    · with_reducible apply Res.canon_ok
      with_reducible apply Done.plain_canon
      with_reducible assumption

theorem State.joinIssue_canon (s : State) (c : CoreId) (e : Strm) (ws : s.MemoryCanonical) : (State.joinIssue s c e).MemoryCanonical := by
  unfold State.joinIssue
  split
  · with_reducible apply State.readFault_canon
    refine canon_of_fst (by assumption) ?_
    with_reducible apply State.beginSlot_canon
    with_reducible assumption
  · extract_lets -underBinder +onlyGivenNames s2
    have ws2 : s2.MemoryCanonical := by
      unfold s2
      with_reducible apply State.complete_canon
      with_reducible apply Done.plain_canon
      refine canon_of_fst (by assumption) ?_
      with_reducible apply State.beginSlot_canon
      with_reducible assumption
    clear_value s2
    with_reducible apply State.canon_mk
    with_reducible assumption

theorem State.joinAll_canon (s : State) (c : CoreId) (es : List Strm) (ws : s.MemoryCanonical) : (State.joinAll s c es).MemoryCanonical := by
  unfold State.joinAll
  refine canon_foldl _ (fun _ _ _ => ?_) _ _ ?_
  · with_reducible apply State.joinIssue_canon
    with_reducible assumption
  · with_reducible assumption

theorem joinBody_canon (e : Strm) (k : BitVec 6) (c : CoreId) (s : State) (ws : s.MemoryCanonical) : (joinBody e k c s).Canon := by
  unfold joinBody
  extract_lets -underBinder +onlyGivenNames x
  extract_lets -underBinder +onlyGivenNames others
  with_reducible apply Res.canon_ite
  · with_reducible apply Res.canon_ok
    with_reducible apply Done.plain_canon
    with_reducible apply State.joinAll_canon
    with_reducible assumption
  · refine Res.canon_wait fun _ _ => ?_
    with_reducible apply State.modStr_canon
    with_reducible assumption

theorem execJoin_canon (r : Ring) (k : BitVec 6) (s : State) (ws : s.MemoryCanonical) : CanonNext (execJoin r k s) := by
  unfold execJoin
  with_reducible apply issue_canon
  · with_reducible assumption
  · intro _ _ _
    with_reducible apply joinBody_canon
    with_reducible assumption

theorem execVJoin_canon (r : Ring) (k : BitVec 6) (s : State) (ws : s.MemoryCanonical) : CanonNext (execVJoin r k s) := by
  unfold execVJoin
  with_reducible apply issue_canon
  · with_reducible assumption
  · intro _ _ _
    with_reducible apply joinBody_canon
    with_reducible assumption

theorem execMJoin_canon (r : Ring) (k : BitVec 6) (s : State) (ws : s.MemoryCanonical) : CanonNext (execMJoin r k s) := by
  unfold execMJoin
  with_reducible apply issue_canon
  · with_reducible assumption
  · intro _ _ _
    with_reducible apply joinBody_canon
    with_reducible assumption

theorem execXJoin_canon (r : Ring) (k : BitVec 6) (s : State) (ws : s.MemoryCanonical) : CanonNext (execXJoin r k s) := by
  unfold execXJoin
  with_reducible apply issue_canon
  · with_reducible assumption
  · intro _ _ _
    with_reducible apply joinBody_canon
    with_reducible assumption

theorem State.joinAgree_canon (s : State) (c : CoreId) (ws : s.MemoryCanonical) : (State.joinAgree s c).MemoryCanonical := by
  unfold State.joinAgree
  extract_lets -underBinder +onlyGivenNames x
  extract_lets -underBinder +onlyGivenNames es
  clear_value es
  split
  · with_reducible assumption
  · split
    · with_reducible assumption
    · with_reducible apply State.canon_ite
      · with_reducible apply State.joinAll_canon
        with_reducible assumption
      · with_reducible assumption

theorem exitBody_canon (e : Strm) (c : CoreId) (s : State) (ws : s.MemoryCanonical) : (exitBody e c s).Canon := by
  unfold exitBody
  with_reducible apply Res.canon_ok
  with_reducible apply Done.plain_canon
  with_reducible apply State.joinAgree_canon
  with_reducible apply State.modStr_canon
  with_reducible assumption

theorem execExit_canon (r : Ring) (s : State) (ws : s.MemoryCanonical) : CanonNext (execExit r s) := by
  unfold execExit
  with_reducible apply issue_canon
  · with_reducible assumption
  · intro _ _ _
    with_reducible apply exitBody_canon
    with_reducible assumption

theorem execVExit_canon (r : Ring) (s : State) (ws : s.MemoryCanonical) : CanonNext (execVExit r s) := by
  unfold execVExit
  with_reducible apply issue_canon
  · with_reducible assumption
  · intro _ _ _
    with_reducible apply exitBody_canon
    with_reducible assumption

theorem execMExit_canon (r : Ring) (s : State) (ws : s.MemoryCanonical) : CanonNext (execMExit r s) := by
  unfold execMExit
  with_reducible apply issue_canon
  · with_reducible assumption
  · intro _ _ _
    with_reducible apply exitBody_canon
    with_reducible assumption

theorem execXExit_canon (r : Ring) (s : State) (ws : s.MemoryCanonical) : CanonNext (execXExit r s) := by
  unfold execXExit
  with_reducible apply issue_canon
  · with_reducible assumption
  · intro _ _ _
    with_reducible apply exitBody_canon
    with_reducible assumption

theorem execToken_canon (r : Ring) (dir : Bool) (n : BitVec 4) (s : State) (ws : s.MemoryCanonical) : CanonNext (execToken r dir n s) := by
  unfold execToken
  with_reducible apply issue_canon
  · with_reducible assumption
  · intro _ _ _
    extract_lets -underBinder +onlyGivenNames q
    with_reducible apply Res.canon_ite
    · refine Res.canon_wait fun _ _ => ?_
      with_reducible assumption
    · with_reducible apply Res.canon_ok
      with_reducible apply Done.plain_canon
      with_reducible apply State.modCtx_canon
      with_reducible assumption

theorem execTwait_canon (r : Ring) (dir : Bool) (n : BitVec 4) (s : State) (ws : s.MemoryCanonical) : CanonNext (execTwait r dir n s) := by
  unfold execTwait
  with_reducible apply issue_canon
  · with_reducible assumption
  · intro _ _ _
    extract_lets -underBinder +onlyGivenNames q
    with_reducible apply Res.canon_ite
    · refine Res.canon_wait fun _ _ => ?_
      with_reducible assumption
    · with_reducible apply Res.canon_ok
      with_reducible apply Done.plain_canon
      with_reducible apply State.modCtx_canon
      with_reducible assumption

/-! ### What Machine/Virt.lean defines -/

theorem State.settleOwn_canon (s : State) (c : CoreId) (l : List (Nat × Nat)) (ws : s.MemoryCanonical) : (State.settleOwn s c l).MemoryCanonical := by
  unfold State.settleOwn
  with_reducible apply State.canon_ite
  · with_reducible apply State.performStores_canon
    with_reducible assumption
  · with_reducible assumption

theorem State.writeRefused_canon (s : State) (l : List (Nat × Nat)) (ea : Nat) (ws : s.MemoryCanonical) :
    OptFstCanon (s.writeRefused l ea) := by
  intro t h
  unfold State.writeRefused at h
  split at h
  · cases h; exact ws
  · split at h
    · cases h
    · cases h; exact State.setOvf_canon _ _ ws


theorem State.doRead_canon (s : State) (c : CoreId) (ea : Nat) (n : Nat) (ws : s.MemoryCanonical) : (State.doRead s c ea n).1.MemoryCanonical := by
  unfold State.doRead
  split
  · with_reducible apply canon_fst
    with_reducible assumption
  · extract_lets -underBinder +onlyGivenNames s1
    have ws1 : s1.MemoryCanonical := by
      unfold s1
      with_reducible apply State.settleOwn_canon
      with_reducible assumption
    clear_value s1
    split
    · with_reducible apply canon_fst
      with_reducible assumption
    · with_reducible apply canon_fst
      with_reducible assumption

theorem State.doStore_canon (s : State) (c : CoreId) (ea : Nat) (n : Nat) (v : Word) (ws : s.MemoryCanonical) : (State.doStore s c ea n v).1.MemoryCanonical := by
  unfold State.doStore
  split
  · with_reducible apply canon_fst
    with_reducible assumption
  · split
    · refine canon_of_someFst (by assumption) ?_
      with_reducible apply State.writeRefused_canon
      with_reducible assumption
    · extract_lets -underBinder +onlyGivenNames pa
      with_reducible apply canon_fst
      with_reducible apply State.modCore_canon
      with_reducible assumption

theorem State.doAtomic_canon (s : State) (c : CoreId) (sure : Bool) (ea : Nat) (n : Nat) (f : List Byte → Option (List Byte) × Ans) (ws : s.MemoryCanonical) : (State.doAtomic s c sure ea n f).1.MemoryCanonical := by
  unfold State.doAtomic
  split
  · with_reducible apply canon_fst
    with_reducible assumption
  · extract_lets -underBinder +onlyGivenNames s1
    have ws1 : s1.MemoryCanonical := by
      unfold s1
      with_reducible apply State.settleOwn_canon
      with_reducible assumption
    clear_value s1
    extract_lets -underBinder +onlyGivenNames refused
    split
    · unfold refused
      split
      · refine canon_of_someFst (by assumption) ?_
        with_reducible apply State.writeRefused_canon
        with_reducible assumption
      · with_reducible apply canon_fst
        with_reducible assumption
    · split
      · with_reducible apply canon_fst
        with_reducible assumption
      · unfold refused
        split
        · refine canon_of_someFst (by assumption) ?_
          with_reducible apply State.writeRefused_canon
          with_reducible assumption
        · with_reducible apply canon_fst
          with_reducible apply State.performWrite_canon
          with_reducible assumption

theorem State.doBara_canon (s : State) (c : CoreId) (ea : Nat) (n : Nat) (drop : Bool) (ws : s.MemoryCanonical) : (State.doBara s c ea n drop).1.MemoryCanonical := by
  unfold State.doBara
  extract_lets -underBinder +onlyGivenNames r
  split
  · unfold r
    with_reducible apply State.doAtomic_canon
    with_reducible assumption
  · with_reducible apply canon_fst
    with_reducible apply State.barNotice_canon
    · with_reducible apply State.settleOwn_canon
      with_reducible assumption
    · unfold r
      with_reducible apply State.doAtomic_canon
      with_reducible assumption

theorem State.doWhole_canon (s : State) (c : CoreId) (ea : Nat) (bs : List Byte) (ws : s.MemoryCanonical) : (State.doWhole s c ea bs).1.MemoryCanonical := by
  unfold State.doWhole
  split
  · with_reducible apply canon_fst
    with_reducible assumption
  · split
    · refine canon_of_someFst (by assumption) ?_
      with_reducible apply State.writeRefused_canon
      with_reducible assumption
    · with_reducible apply canon_fst
      with_reducible apply State.performWrite_canon
      with_reducible apply State.settleOwn_canon
      with_reducible assumption

theorem State.setEntry_canon (s : State) (c : CoreId) (p : Place) (r : Region) (ws : s.MemoryCanonical) : (State.setEntry s c p r).MemoryCanonical := by
  unfold State.setEntry
  split
  · with_reducible apply State.canon_mk
    with_reducible assumption
  · with_reducible apply State.setCoreEntry_canon
    with_reducible assumption

theorem State.fired_canon (s : State) (c : CoreId) (p : Place) (r : Region) (ws : s.MemoryCanonical) : (State.fired s c p r).MemoryCanonical := by
  unfold State.fired
  split
  · with_reducible apply State.dieFired_canon
    with_reducible assumption
  · with_reducible apply State.coreFired_canon
    with_reducible assumption

theorem State.armAt_canon (s : State) (c : CoreId) (p : Place) (r : Region) (val : Nat) (d : Word) (ws : s.MemoryCanonical) : (State.armAt s c p r val d).MemoryCanonical := by
  unfold State.armAt
  extract_lets -underBinder +onlyGivenNames k
  with_reducible apply State.canon_ite
  · extract_lets -underBinder +onlyGivenNames r2
    extract_lets -underBinder +onlyGivenNames r2
    with_reducible apply State.fired_canon
    with_reducible apply State.setEntry_canon
    with_reducible assumption
  · with_reducible apply State.setEntry_canon
    with_reducible assumption

theorem State.doArm_canon (s : State) (c : CoreId) (a : Word) (b : Word) (d : Word) (ws : s.MemoryCanonical) : (State.doArm s c a b d).1.MemoryCanonical := by
  unfold State.doArm
  extract_lets -underBinder +onlyGivenNames clr
  extract_lets -underBinder +onlyGivenNames go
  split
  · with_reducible apply canon_fst
    with_reducible assumption
  · unfold go
    split
    · split
      · with_reducible apply canon_fst
        with_reducible apply State.modCtx_canon
        with_reducible assumption
      · with_reducible apply canon_fst
        with_reducible apply State.armAt_canon
        with_reducible assumption
    · with_reducible apply canon_fst
      with_reducible apply State.armAt_canon
      with_reducible assumption
  · split
    · with_reducible apply canon_fst
      with_reducible assumption
    · split
      · with_reducible apply canon_fst
        with_reducible assumption
      · unfold go
        split
        · split
          · with_reducible apply canon_fst
            with_reducible apply State.modCtx_canon
            with_reducible assumption
          · with_reducible apply canon_fst
            with_reducible apply State.armAt_canon
            with_reducible assumption
        · with_reducible apply canon_fst
          with_reducible apply State.armAt_canon
          with_reducible assumption

theorem State.doArrv_canon (s : State) (c : CoreId) (a : Word) (b : Word) (ws : s.MemoryCanonical) : (State.doArrv s c a b).1.MemoryCanonical := by
  unfold State.doArrv
  split
  · with_reducible apply canon_fst
    with_reducible assumption
  · with_reducible apply canon_fst
    with_reducible assumption
  · extract_lets -underBinder +onlyGivenNames ahead
    split
    · with_reducible apply canon_fst
      with_reducible apply State.setEntry_canon
      with_reducible assumption
    · extract_lets -underBinder +onlyGivenNames k
      extract_lets -underBinder +onlyGivenNames s1
      have ws1 : s1.MemoryCanonical := by
        unfold s1
        with_reducible apply State.setEntry_canon
        with_reducible assumption
      clear_value s1
      extract_lets -underBinder +onlyGivenNames s2
      have ws2 : s2.MemoryCanonical := by
        unfold s2
        with_reducible apply State.canon_ite
        · with_reducible apply State.fired_canon
          with_reducible assumption
        · with_reducible assumption
      clear_value s2
      with_reducible apply canon_fst
      with_reducible assumption

theorem State.doSeal_canon (s : State) (c : CoreId) (a : Word) (on : Bool) (ws : s.MemoryCanonical) : (State.doSeal s c a on).1.MemoryCanonical := by
  unfold State.doSeal
  extract_lets -underBinder +onlyGivenNames va
  split
  · with_reducible apply canon_fst
    with_reducible assumption
  · split
    · with_reducible apply canon_fst
      with_reducible assumption
    · split
      · with_reducible apply canon_fst
        with_reducible assumption
      · split
        · with_reducible apply canon_fst
          with_reducible assumption
        · split
          · extract_lets -underBinder +onlyGivenNames s1
            have ws1 : s1.MemoryCanonical := by
              unfold s1
              refine canon_foldl _ (fun _ _ _ => ?_) _ _ ?_
              · with_reducible apply State.performStores_canon
                with_reducible assumption
              · with_reducible assumption
            clear_value s1
            with_reducible apply canon_fst
            with_reducible apply State.canon_mk
            with_reducible assumption
          · with_reducible apply canon_fst
            with_reducible apply State.canon_mk
            with_reducible assumption

theorem State.serveReq_canon (s : State) (c : CoreId) (q : Req) (ws : s.MemoryCanonical) : (State.serveReq s c q).1.MemoryCanonical := by
  unfold State.serveReq
  split
  · with_reducible apply State.doRead_canon
    with_reducible assumption
  · with_reducible apply State.doRead_canon
    with_reducible assumption
  · with_reducible apply State.doStore_canon
    with_reducible assumption
  · with_reducible apply State.doAtomic_canon
    with_reducible assumption
  · with_reducible apply State.doAtomic_canon
    with_reducible assumption
  · with_reducible apply State.doWhole_canon
    with_reducible assumption
  · with_reducible apply State.doBara_canon
    with_reducible assumption
  · split
    · with_reducible apply canon_fst
      with_reducible assumption
    · extract_lets -underBinder +onlyGivenNames s1
      have ws1 : s1.MemoryCanonical := by
        unfold s1
        with_reducible apply State.settleOwn_canon
        with_reducible assumption
      clear_value s1
      split
      · with_reducible apply canon_fst
        with_reducible assumption
      · with_reducible apply canon_fst
        with_reducible assumption
  · with_reducible apply State.doArm_canon
    with_reducible assumption
  · with_reducible apply State.doArrv_canon
    with_reducible assumption
  · with_reducible apply State.doSeal_canon
    with_reducible assumption
  · with_reducible apply State.doSeal_canon
    with_reducible assumption
  · with_reducible apply canon_fst
    with_reducible assumption
  · with_reducible apply canon_fst
    with_reducible assumption

theorem State.serve_canon (s : State) (c : CoreId) (q : Req) (ws : s.MemoryCanonical) : (State.serve s c q).1.MemoryCanonical := by
  unfold State.serve
  split
  · with_reducible apply State.serveReq_canon
    with_reducible apply State.cached_canon
    with_reducible assumption
  · with_reducible apply State.serveReq_canon
    with_reducible assumption

theorem State.send_canon (s : State) (c : CoreId) (e : Strm) (q : Req) (ws : s.MemoryCanonical) : (State.send s c e q).MemoryCanonical := by
  unfold State.send
  with_reducible apply State.modStr_canon
  with_reducible assumption

theorem ask_canon (e : Strm) (q : Req) (k : State → Ans → Res) (c : CoreId) (s : State) (wk : ∀ y0 y1, State.MemoryCanonical y0 → (k y0 y1).Canon) (ws : s.MemoryCanonical) : (ask e q k c s).Canon := by
  unfold ask
  split
  · split
    · with_reducible apply wk
      with_reducible assumption
    · refine Res.canon_wait fun _ _ => ?_
      with_reducible assumption
  · with_reducible apply Res.canon_ite
    · refine Res.canon_wait fun _ _ => ?_
      with_reducible apply State.send_canon
      with_reducible assumption
    · extract_lets -underBinder +onlyGivenNames r
      with_reducible apply wk
      unfold r
      with_reducible apply State.serve_canon
      with_reducible assumption

theorem ansDone_canon (s : State) (a : Ans) (ws : s.MemoryCanonical) : (ansDone s a).Canon := by
  unfold ansDone
  split
  · with_reducible apply Res.canon_faultIn
    with_reducible assumption
  · with_reducible apply Res.canon_ok
    with_reducible apply Done.plain_canon
    with_reducible assumption

theorem ansScalar_canon (d : SReg) (s : State) (a : Ans) (ws : s.MemoryCanonical) : (ansScalar d s a).Canon := by
  unfold ansScalar
  split
  · with_reducible apply Res.canon_faultIn
    with_reducible assumption
  · with_reducible apply Res.canon_ok
    with_reducible apply Done.one_canon
    with_reducible assumption
  · with_reducible apply Res.canon_ok
    with_reducible apply Done.one_canon
    with_reducible assumption
  · with_reducible apply Res.canon_ok
    with_reducible apply Done.plain_canon
    with_reducible assumption

theorem State.answer_canon (s : State) (c : CoreId) (e : Strm) (ws : s.MemoryCanonical) : (State.answer s c e).MemoryCanonical := by
  unfold State.answer
  split
  · with_reducible assumption
  · split
    · with_reducible assumption
    · with_reducible apply State.canon_ite
      · extract_lets -underBinder +onlyGivenNames r
        with_reducible apply State.modStr_canon
        unfold r
        with_reducible apply State.serve_canon
        with_reducible assumption
      · with_reducible apply State.canon_ite
        · with_reducible assumption
        · with_reducible apply State.modStr_canon
          with_reducible assumption

/-! ### What Machine/CMem.lean defines -/

theorem localLoad_canon (d : SReg) (sz : Sz) (sp : LSp) (ea : Word) (c : CoreId) (s : State) (ws : s.MemoryCanonical) : (localLoad d sz sp ea c s).Canon := by
  unfold localLoad
  extract_lets -underBinder +onlyGivenNames n
  extract_lets -underBinder +onlyGivenNames as
  extract_lets -underBinder +onlyGivenNames reads
  with_reducible apply Res.canon_ite
  · exact Res.canon_fault
  · split
    · exact Res.canon_fault
    · extract_lets -underBinder +onlyGivenNames v
      extract_lets -underBinder +onlyGivenNames s1
      have ws1 : s1.MemoryCanonical := by
        unfold s1
        with_reducible apply State.oorNote_canon
        with_reducible assumption
      clear_value s1
      with_reducible apply Res.canon_ok
      extract_lets -underBinder +onlyGivenNames __src
      have w__src : __src.s.MemoryCanonical := by
        unfold __src
        with_reducible apply Done.one_canon
        with_reducible assumption
      clear_value __src
      with_reducible apply Done.canon_mk
      with_reducible assumption

theorem streamStores_canon (s : State) (c : CoreId) (e : Strm) (sp : Space) (parts : List (Word × List (Nat × Byte))) (reads : List Nat) (k : State → Res) (ws : s.MemoryCanonical) (wk : ∀ y0, State.MemoryCanonical y0 → (k y0).Canon) : (streamStores s c e sp parts reads k).Canon := by
  unfold streamStores
  extract_lets -underBinder +onlyGivenNames cells
  extract_lets -underBinder +onlyGivenNames as
  split
  · with_reducible apply wk
    with_reducible apply State.localStore_canon
    with_reducible apply State.oorNote_canon
    with_reducible assumption
  · extract_lets -underBinder +onlyGivenNames hit
    with_reducible apply Res.canon_faultIn
    with_reducible apply State.setLocalOvf_canon
    with_reducible assumption

theorem streamStore_canon (s : State) (c : CoreId) (e : Strm) (sp : Space) (cells : List (Nat × Byte)) (ea : Word) (reads : List Nat) (k : State → Res) (ws : s.MemoryCanonical) (wk : ∀ y0, State.MemoryCanonical y0 → (k y0).Canon) : (streamStore s c e sp cells ea reads k).Canon := by
  unfold streamStore
  with_reducible apply streamStores_canon
  · with_reducible assumption
  · intro _ _
    with_reducible apply wk
    with_reducible assumption

theorem localStoreOp_canon (v : Word) (sz : Sz) (sp : LSp) (ea : Word) (c : CoreId) (s : State) (ws : s.MemoryCanonical) : (localStoreOp v sz sp ea c s).Canon := by
  unfold localStoreOp
  extract_lets -underBinder +onlyGivenNames n
  with_reducible apply Res.canon_ite
  · exact Res.canon_fault
  · extract_lets -underBinder +onlyGivenNames cells
    with_reducible apply streamStore_canon
    · with_reducible assumption
    · intro _ _
      with_reducible apply Res.canon_ok
      with_reducible apply Done.plain_canon
      with_reducible assumption

theorem execLd_canon (r : Ring) (d : SReg) (a : SReg) (sz : Sz) (sp : LSp) (off : BitVec 6) (s : State) (ws : s.MemoryCanonical) : CanonNext (execLd r d a sz sp off s) := by
  unfold execLd
  with_reducible apply issue_canon
  · with_reducible assumption
  · intro _ _ _
    with_reducible apply localLoad_canon
    with_reducible assumption

theorem execSt_canon (r : Ring) (d : SReg) (a : SReg) (sz : Sz) (sp : LSp) (off : BitVec 6) (s : State) (ws : s.MemoryCanonical) : CanonNext (execSt r d a sz sp off s) := by
  unfold execSt
  with_reducible apply issue_canon
  · with_reducible assumption
  · intro _ _ _
    with_reducible apply localStoreOp_canon
    with_reducible assumption

theorem execLdx_canon (r : Ring) (d : SReg) (a : SReg) (b : SReg) (sz : Sz) (sp : LSp) (s : State) (ws : s.MemoryCanonical) : CanonNext (execLdx r d a b sz sp s) := by
  unfold execLdx
  with_reducible apply issue_canon
  · with_reducible assumption
  · intro _ _ _
    with_reducible apply localLoad_canon
    with_reducible assumption

theorem execStx_canon (r : Ring) (d : SReg) (a : SReg) (b : SReg) (sz : Sz) (sp : LSp) (s : State) (ws : s.MemoryCanonical) : CanonNext (execStx r d a b sz sp s) := by
  unfold execStx
  with_reducible apply issue_canon
  · with_reducible assumption
  · intro _ _ _
    with_reducible apply localStoreOp_canon
    with_reducible assumption

theorem execPft_canon (r : Ring) (v1 : SReg) (v2 : Sz) (v3 : LSp) (v4 : BitVec 6) (s : State) (ws : s.MemoryCanonical) : CanonNext (execPft r v1 v2 v3 v4 s) := by
  unfold execPft
  with_reducible apply issue_canon
  · with_reducible assumption
  · intro _ _ _
    with_reducible apply Res.canon_ok
    with_reducible apply Done.plain_canon
    with_reducible assumption

theorem vmLoad_canon (d : SReg) (sz : Sz) (ea : Word) (c : CoreId) (s : State) (ws : s.MemoryCanonical) : (vmLoad d sz ea c s).Canon := by
  unfold vmLoad
  with_reducible apply Res.canon_ite
  · exact Res.canon_fault
  · with_reducible apply ask_canon
    · intro _ _ _
      with_reducible apply ansScalar_canon
      with_reducible assumption
    · with_reducible assumption

theorem vmStore_canon (v : Word) (sz : Sz) (ea : Word) (c : CoreId) (s : State) (ws : s.MemoryCanonical) : (vmStore v sz ea c s).Canon := by
  unfold vmStore
  with_reducible apply Res.canon_ite
  · exact Res.canon_fault
  · with_reducible apply ask_canon
    · intro _ _ _
      with_reducible apply ansDone_canon
      with_reducible assumption
    · with_reducible assumption

theorem execLdVm_canon (r : Ring) (d : SReg) (a : SReg) (sz : Sz) (off : BitVec 6) (s : State) (ws : s.MemoryCanonical) : CanonNext (execLdVm r d a sz off s) := by
  unfold execLdVm
  with_reducible apply issue_canon
  · with_reducible assumption
  · intro _ _ _
    with_reducible apply vmLoad_canon
    with_reducible assumption

theorem execStVm_canon (r : Ring) (d : SReg) (a : SReg) (sz : Sz) (off : BitVec 6) (s : State) (ws : s.MemoryCanonical) : CanonNext (execStVm r d a sz off s) := by
  unfold execStVm
  with_reducible apply issue_canon
  · with_reducible assumption
  · intro _ _ _
    with_reducible apply vmStore_canon
    with_reducible assumption

theorem execLdxVm_canon (r : Ring) (d : SReg) (a : SReg) (b : SReg) (sz : Sz) (s : State) (ws : s.MemoryCanonical) : CanonNext (execLdxVm r d a b sz s) := by
  unfold execLdxVm
  with_reducible apply issue_canon
  · with_reducible assumption
  · intro _ _ _
    with_reducible apply vmLoad_canon
    with_reducible assumption

theorem execStxVm_canon (r : Ring) (d : SReg) (a : SReg) (b : SReg) (sz : Sz) (s : State) (ws : s.MemoryCanonical) : CanonNext (execStxVm r d a b sz s) := by
  unfold execStxVm
  with_reducible apply issue_canon
  · with_reducible assumption
  · intro _ _ _
    with_reducible apply vmStore_canon
    with_reducible assumption

theorem execPftVm_canon (r : Ring) (a : SReg) (sz : Sz) (off : BitVec 6) (s : State) (ws : s.MemoryCanonical) : CanonNext (execPftVm r a sz off s) := by
  unfold execPftVm
  with_reducible apply issue_canon
  · with_reducible assumption
  · intro _ _ _
    with_reducible apply Res.canon_ok
    with_reducible apply Done.plain_canon
    with_reducible apply State.prefetch_canon
    with_reducible assumption

theorem amoOp_canon (op : AmoOp) (r : Ring) (d : SReg) (a : SReg) (b : SReg) (s : State) (ws : s.MemoryCanonical) : CanonNext (amoOp op r d a b s) := by
  unfold amoOp
  with_reducible apply issue_canon
  · with_reducible assumption
  · intro _ _ _
    extract_lets -underBinder +onlyGivenNames x
    with_reducible apply Res.canon_ite
    · exact Res.canon_fault
    · with_reducible apply ask_canon
      · intro _ _ _
        with_reducible apply ansScalar_canon
        with_reducible assumption
      · with_reducible assumption

theorem execAmoAdd_canon (r : Ring) (d : SReg) (a : SReg) (b : SReg) (s : State) (ws : s.MemoryCanonical) : CanonNext (execAmoAdd r d a b s) := by
  unfold execAmoAdd
  with_reducible apply amoOp_canon
  with_reducible assumption

theorem execAmoAnd_canon (r : Ring) (d : SReg) (a : SReg) (b : SReg) (s : State) (ws : s.MemoryCanonical) : CanonNext (execAmoAnd r d a b s) := by
  unfold execAmoAnd
  with_reducible apply amoOp_canon
  with_reducible assumption

theorem execAmoOr_canon (r : Ring) (d : SReg) (a : SReg) (b : SReg) (s : State) (ws : s.MemoryCanonical) : CanonNext (execAmoOr r d a b s) := by
  unfold execAmoOr
  with_reducible apply amoOp_canon
  with_reducible assumption

theorem execAmoXor_canon (r : Ring) (d : SReg) (a : SReg) (b : SReg) (s : State) (ws : s.MemoryCanonical) : CanonNext (execAmoXor r d a b s) := by
  unfold execAmoXor
  with_reducible apply amoOp_canon
  with_reducible assumption

theorem execAmoMin_canon (r : Ring) (d : SReg) (a : SReg) (b : SReg) (s : State) (ws : s.MemoryCanonical) : CanonNext (execAmoMin r d a b s) := by
  unfold execAmoMin
  with_reducible apply amoOp_canon
  with_reducible assumption

theorem execAmoMax_canon (r : Ring) (d : SReg) (a : SReg) (b : SReg) (s : State) (ws : s.MemoryCanonical) : CanonNext (execAmoMax r d a b s) := by
  unfold execAmoMax
  with_reducible apply amoOp_canon
  with_reducible assumption

theorem execAmoMinn_canon (r : Ring) (d : SReg) (a : SReg) (b : SReg) (s : State) (ws : s.MemoryCanonical) : CanonNext (execAmoMinn r d a b s) := by
  unfold execAmoMinn
  with_reducible apply amoOp_canon
  with_reducible assumption

theorem execAmoMaxn_canon (r : Ring) (d : SReg) (a : SReg) (b : SReg) (s : State) (ws : s.MemoryCanonical) : CanonNext (execAmoMaxn r d a b s) := by
  unfold execAmoMaxn
  with_reducible apply amoOp_canon
  with_reducible assumption

theorem execAmoSwap_canon (r : Ring) (d : SReg) (a : SReg) (b : SReg) (s : State) (ws : s.MemoryCanonical) : CanonNext (execAmoSwap r d a b s) := by
  unfold execAmoSwap
  with_reducible apply amoOp_canon
  with_reducible assumption

theorem execCas_canon (r : Ring) (d : SReg) (a : SReg) (b : SReg) (s : State) (ws : s.MemoryCanonical) : CanonNext (execCas r d a b s) := by
  unfold execCas
  with_reducible apply issue_canon
  · with_reducible assumption
  · intro _ _ _
    extract_lets -underBinder +onlyGivenNames x
    with_reducible apply Res.canon_ite
    · exact Res.canon_fault
    · with_reducible apply ask_canon
      · intro _ _ _
        with_reducible apply ansScalar_canon
        with_reducible assumption
      · with_reducible assumption

theorem askEntry_canon (b : Word) (q : Req) (k : State → Ans → Res) (c : CoreId) (s : State) (wk : ∀ y0 y1, State.MemoryCanonical y0 → (k y0 y1).Canon) (ws : s.MemoryCanonical) : (askEntry b q k c s).Canon := by
  unfold askEntry
  split
  · with_reducible apply Res.canon_ite
    · with_reducible apply ask_canon
      · intro _ _ _
        with_reducible apply wk
        with_reducible assumption
      · with_reducible assumption
    · extract_lets -underBinder +onlyGivenNames r
      with_reducible apply wk
      unfold r
      with_reducible apply State.serve_canon
      with_reducible assumption
  · exact Res.canon_fault

theorem execArm_canon (r : Ring) (d : SReg) (a : SReg) (b : SReg) (s : State) (ws : s.MemoryCanonical) : CanonNext (execArm r d a b s) := by
  unfold execArm
  with_reducible apply issue_canon
  · with_reducible assumption
  · intro _ _ _
    extract_lets -underBinder +onlyGivenNames x
    with_reducible apply askEntry_canon
    · intro _ _ _
      with_reducible apply ansDone_canon
      with_reducible assumption
    · with_reducible assumption

theorem execArrv_canon (r : Ring) (d : SReg) (a : SReg) (b : SReg) (s : State) (ws : s.MemoryCanonical) : CanonNext (execArrv r d a b s) := by
  unfold execArrv
  with_reducible apply issue_canon
  · with_reducible assumption
  · intro _ _ _
    extract_lets -underBinder +onlyGivenNames x
    with_reducible apply askEntry_canon
    · intro _ _ _
      with_reducible apply ansScalar_canon
      with_reducible assumption
    · with_reducible assumption

theorem endWait_canon (pd : PReg) (s : State) (v : Bool) (ws : s.MemoryCanonical) : (endWait pd s v).Canon := by
  unfold endWait
  with_reducible apply Res.canon_ok
  with_reducible apply Done.one_canon
  with_reducible assumption

theorem execAwait_canon (r : Ring) (pd : PReg) (a : SReg) (b : SReg) (s : State) (ws : s.MemoryCanonical) : CanonNext (execAwait r pd a b s) := by
  unfold execAwait
  with_reducible apply issue_canon
  · with_reducible assumption
  · intro _ _ _
    extract_lets -underBinder +onlyGivenNames x
    extract_lets -underBinder +onlyGivenNames w
    split
    · exact Res.canon_fault
    · exact Res.canon_fault
    · with_reducible apply Res.canon_ite
      · with_reducible apply endWait_canon
        with_reducible assumption
      · with_reducible apply Res.canon_ite
        · with_reducible apply endWait_canon
          with_reducible assumption
        · refine Res.canon_wait fun _ _ => ?_
          with_reducible assumption

theorem putBarrier_canon (s : State) (c : CoreId) (sp : Space) (a : Word) (o : Barrier) (reads : List Nat) (k : State → Res) (ws : s.MemoryCanonical) (wk : ∀ y0, State.MemoryCanonical y0 → (k y0).Canon) : (putBarrier s c sp a o reads k).Canon := by
  unfold putBarrier
  with_reducible apply streamStore_canon
  · with_reducible assumption
  · intro _ _
    with_reducible apply wk
    with_reducible assumption

theorem execBari_canon (r : Ring) (sp : BSp) (a : SReg) (b : SReg) (s : State) (ws : s.MemoryCanonical) : CanonNext (execBari r sp a b s) := by
  unfold execBari
  with_reducible apply issue_canon
  · with_reducible assumption
  · intro _ _ _
    extract_lets -underBinder +onlyGivenNames x
    extract_lets -underBinder +onlyGivenNames ad
    with_reducible apply Res.canon_ite
    · exact Res.canon_fault
    · split
      · with_reducible apply ask_canon
        · intro _ _ _
          with_reducible apply ansDone_canon
          with_reducible assumption
        · with_reducible assumption
      · with_reducible apply putBarrier_canon
        · with_reducible assumption
        · intro _ _
          with_reducible apply Res.canon_ok
          with_reducible apply Done.plain_canon
          with_reducible assumption

theorem execBara_canon (r : Ring) (sp : BSp) (a : SReg) (c1 : BitVec 4) (drop : Bool) (s : State) (ws : s.MemoryCanonical) : CanonNext (execBara r sp a c1 drop s) := by
  unfold execBara
  with_reducible apply issue_canon
  · with_reducible assumption
  · intro _ _ _
    extract_lets -underBinder +onlyGivenNames ad
    with_reducible apply Res.canon_ite
    · exact Res.canon_fault
    · split
      · with_reducible apply ask_canon
        · intro _ _ _
          with_reducible apply ansDone_canon
          with_reducible assumption
        · with_reducible assumption
      · split
        · exact Res.canon_fault
        · extract_lets -underBinder +onlyGivenNames s0
          have ws0 : s0.MemoryCanonical := by
            unfold s0
            with_reducible apply State.oorNote_canon
            with_reducible assumption
          clear_value s0
          extract_lets -underBinder +onlyGivenNames q
          with_reducible apply putBarrier_canon
          · with_reducible assumption
          · intro _ _
            with_reducible apply Res.canon_ite
            · with_reducible apply Res.canon_faultIn
              with_reducible assumption
            · with_reducible apply Res.canon_ok
              extract_lets -underBinder +onlyGivenNames __src
              have w__src : __src.s.MemoryCanonical := by
                unfold __src
                with_reducible apply Done.plain_canon
                with_reducible assumption
              clear_value __src
              with_reducible apply Done.canon_mk
              with_reducible assumption

theorem barwTest_canon (pd : PReg) (w : Word) (bph : Nat) (c : CoreId) (s : State) (told : Bool) (wait : State → State) (ws : s.MemoryCanonical) (wwait : ∀ y0, State.MemoryCanonical y0 → (wait y0).MemoryCanonical) : (barwTest pd w bph c s told wait).Canon := by
  unfold barwTest
  with_reducible apply Res.canon_ite
  · with_reducible apply endWait_canon
    with_reducible assumption
  · with_reducible apply Res.canon_ite
    · with_reducible apply endWait_canon
      with_reducible assumption
    · refine Res.canon_wait fun _ _ => ?_
      with_reducible apply wwait
      with_reducible assumption

theorem execBarw_canon (r : Ring) (pd : PReg) (a : SReg) (b : SReg) (s : State) (ws : s.MemoryCanonical) : CanonNext (execBarw r pd a b s) := by
  unfold execBarw
  with_reducible apply issue_canon
  · with_reducible assumption
  · intro _ _ _
    extract_lets -underBinder +onlyGivenNames x
    extract_lets -underBinder +onlyGivenNames ad
    extract_lets -underBinder +onlyGivenNames w
    with_reducible apply Res.canon_ite
    · exact Res.canon_fault
    · split
      · extract_lets -underBinder +onlyGivenNames pa
        split
        · with_reducible apply barwTest_canon
          · refine canon_of_fst (by assumption) ?_
            with_reducible apply State.serve_canon
            with_reducible assumption
          · intro _ _
            with_reducible apply State.modStr_canon
            with_reducible assumption
        · with_reducible apply Res.canon_faultIn
          refine canon_of_fst (by assumption) ?_
          with_reducible apply State.serve_canon
          with_reducible assumption
        · with_reducible apply barwTest_canon
          · refine canon_of_fst (by assumption) ?_
            with_reducible apply State.serve_canon
            with_reducible assumption
          · intro _ _
            with_reducible apply id_canon
            with_reducible assumption
      · split
        · exact Res.canon_fault
        · split
          · with_reducible apply Res.canon_ok
            with_reducible apply Done.canon_mk
            refine Res.canon_okOf (by assumption) ?_
            with_reducible apply barwTest_canon
            · with_reducible apply State.oorNote_canon
              with_reducible assumption
            · intro _ _
              with_reducible apply id_canon
              with_reducible assumption
          · with_reducible apply barwTest_canon
            · with_reducible apply State.oorNote_canon
              with_reducible assumption
            · intro _ _
              with_reducible apply id_canon
              with_reducible assumption

theorem execSeal_canon (r : Ring) (a : SReg) (s : State) (ws : s.MemoryCanonical) : CanonNext (execSeal r a s) := by
  unfold execSeal
  with_reducible apply issue_canon
  · with_reducible assumption
  · intro _ _ _
    with_reducible apply ask_canon
    · intro _ _ _
      with_reducible apply ansDone_canon
      with_reducible assumption
    · with_reducible assumption

theorem execUnseal_canon (r : Ring) (a : SReg) (s : State) (ws : s.MemoryCanonical) : CanonNext (execUnseal r a s) := by
  unfold execUnseal
  with_reducible apply issue_canon
  · with_reducible assumption
  · intro _ _ _
    with_reducible apply ask_canon
    · intro _ _ _
      with_reducible apply ansDone_canon
      with_reducible assumption
    · with_reducible assumption

theorem execFence_canon (r : Ring) (sc : Scope) (s : State) (ws : s.MemoryCanonical) : CanonNext (execFence r sc s) := by
  unfold execFence
  with_reducible apply issue_canon
  · with_reducible assumption
  · intro _ _ _
    split
    · with_reducible apply Res.canon_ok
      with_reducible apply Done.plain_canon
      with_reducible assumption
    · with_reducible apply Res.canon_ok
      with_reducible apply Done.plain_canon
      with_reducible apply State.modStr_canon
      with_reducible assumption

/-! ### What Machine/CSys.lean defines -/

theorem csrGet_canon (lat : Nat) (g : SReg) (n : BitVec 10) (c : CoreId) (s : State) (ws : s.MemoryCanonical) : (csrGet lat g n c s).Canon := by
  unfold csrGet
  with_reducible apply Res.canon_ite
  · exact Res.canon_fault
  · with_reducible apply Res.canon_ok
    with_reducible apply Done.one_canon
    with_reducible assumption

theorem csrPut_canon (op : CsrOp) (g : SReg) (n : BitVec 10) (c : CoreId) (s : State) (ws : s.MemoryCanonical) : (csrPut op g n c s).Canon := by
  unfold csrPut
  with_reducible apply Res.canon_ite
  · exact Res.canon_fault
  · with_reducible apply Res.canon_ok
    with_reducible apply Done.one_canon
    with_reducible assumption

theorem execCsrr_canon (r : Ring) (g : SReg) (csr : BitVec 10) (s : State) (ws : s.MemoryCanonical) : CanonNext (execCsrr r g csr s) := by
  unfold execCsrr
  with_reducible apply issue_canon
  · with_reducible assumption
  · intro _ _ _
    with_reducible apply csrGet_canon
    with_reducible assumption

theorem execCsrw_canon (r : Ring) (g : SReg) (csr : BitVec 10) (s : State) (ws : s.MemoryCanonical) : CanonNext (execCsrw r g csr s) := by
  unfold execCsrw
  with_reducible apply issue_canon
  · with_reducible assumption
  · intro _ _ _
    with_reducible apply csrPut_canon
    with_reducible assumption

theorem execCsrs_canon (r : Ring) (g : SReg) (csr : BitVec 10) (s : State) (ws : s.MemoryCanonical) : CanonNext (execCsrs r g csr s) := by
  unfold execCsrs
  with_reducible apply issue_canon
  · with_reducible assumption
  · intro _ _ _
    with_reducible apply csrPut_canon
    with_reducible assumption

theorem execCsrc_canon (r : Ring) (g : SReg) (csr : BitVec 10) (s : State) (ws : s.MemoryCanonical) : CanonNext (execCsrc r g csr s) := by
  unfold execCsrc
  with_reducible apply issue_canon
  · with_reducible assumption
  · intro _ _ _
    with_reducible apply csrPut_canon
    with_reducible assumption

theorem execTime_canon (r : Ring) (g : SReg) (s : State) (ws : s.MemoryCanonical) : CanonNext (execTime r g s) := by
  unfold execTime
  with_reducible apply issue_canon
  · with_reducible assumption
  · intro _ _ _
    with_reducible apply Res.canon_ok
    with_reducible apply Done.one_canon
    with_reducible assumption

theorem execView_canon (r : Ring) (vd : VReg) (a : SReg) (s : State) (ws : s.MemoryCanonical) : CanonNext (execView r vd a s) := by
  unfold execView
  with_reducible apply issue_canon
  · with_reducible assumption
  · intro _ _ _
    extract_lets -underBinder +onlyGivenNames w
    with_reducible apply Res.canon_ite
    · with_reducible apply Res.canon_ok
      with_reducible apply Done.one_canon
      with_reducible assumption
    · exact Res.canon_fault

theorem execTdesc_canon (r : Ring) (d : BitVec 5) (a : SReg) (b : SReg) (s : State) (ws : s.MemoryCanonical) : CanonNext (execTdesc r d a b s) := by
  unfold execTdesc
  with_reducible apply issue_canon
  · with_reducible assumption
  · intro _ _ _
    extract_lets -underBinder +onlyGivenNames wa
    extract_lets -underBinder +onlyGivenNames wb
    with_reducible apply Res.canon_ite
    · with_reducible apply Res.canon_ok
      with_reducible apply Done.one_canon
      with_reducible assumption
    · split
      · exact Res.canon_fault
      · with_reducible apply Res.canon_ite
        · with_reducible apply Res.canon_ok
          with_reducible apply Done.one_canon
          with_reducible assumption
        · exact Res.canon_fault

theorem execTrap_canon (r : Ring) (code : BitVec 6) (s : State) (ws : s.MemoryCanonical) : CanonNext (execTrap r code s) := by
  unfold execTrap
  with_reducible apply issue_canon
  · with_reducible assumption
  · intro _ _ _
    exact Res.canon_fault

theorem State.eretIssue_canon (s : State) (c : CoreId) (r : Ring) (ws : s.MemoryCanonical) : (State.eretIssue s c r).MemoryCanonical := by
  unfold State.eretIssue
  extract_lets -underBinder +onlyGivenNames s1
  have ws1 : s1.MemoryCanonical := by
    unfold s1
    with_reducible apply State.modCtx_canon
    with_reducible assumption
  clear_value s1
  extract_lets -underBinder +onlyGivenNames s2
  have ws2 : s2.MemoryCanonical := by
    unfold s2
    with_reducible apply State.returnFromTrap_canon
    with_reducible assumption
  clear_value s2
  with_reducible apply State.canon_mk
  with_reducible assumption

theorem execEret_canon (r : Ring) (s : State) (ws : s.MemoryCanonical) : CanonNext (execEret r s) := by
  unfold execEret
  with_reducible apply issue_canon
  · with_reducible assumption
  · intro _ _ _
    extract_lets -underBinder +onlyGivenNames x
    with_reducible apply Res.canon_ite
    · exact Res.canon_fault
    · with_reducible apply Res.canon_ite
      · refine Res.canon_wait fun _ _ => ?_
        with_reducible apply State.idleSlot_canon
        with_reducible assumption
      · split
        · exact Res.canon_fault
        · split
          · exact Res.canon_fault
          · with_reducible apply Res.canon_final
            with_reducible apply State.eretIssue_canon
            with_reducible assumption

/-! ### What Machine/Copy.lean defines -/

theorem State.engNote_canon (s : State) (c : CoreId) (sp : Space) (write : Bool) (a : Int) (n : Nat) (ws : s.MemoryCanonical) : (State.engNote s c sp write a n).MemoryCanonical := by
  unfold State.engNote
  with_reducible apply State.oorNote_canon
  with_reducible assumption

theorem State.engTouch_canon (s : State) (c : CoreId) (sp : Space) (a : Int) (n : Nat) (ws : s.MemoryCanonical) : (State.engTouch s c sp a n).MemoryCanonical := by
  unfold State.engTouch
  with_reducible apply State.canon_ite
  · with_reducible assumption
  · with_reducible apply State.windowTouch_canon
    with_reducible assumption

theorem State.localFlt_canon (s : State) (c : CoreId) (sp : Space) (as : List Nat) (ws : s.MemoryCanonical) : (State.localFlt s c sp as).MemoryCanonical := by
  unfold State.localFlt
  refine canon_foldl _ (fun _ _ _ => ?_) _ _ ?_
  · refine canon_foldl _ (fun _ _ _ => ?_) _ _ ?_
    · with_reducible apply State.modCtx_canon
      with_reducible assumption
    · with_reducible assumption
  · with_reducible assumption

theorem State.engFlt_canon (s : State) (c : CoreId) (sp : Space) (a : Int) (n : Nat) (ws : s.MemoryCanonical) : (State.engFlt s c sp a n).MemoryCanonical := by
  unfold State.engFlt
  extract_lets -underBinder +onlyGivenNames p
  split
  · with_reducible apply State.canon_ite
    · with_reducible assumption
    · with_reducible apply State.fltVirt_canon
      with_reducible assumption
  · with_reducible apply State.canon_ite
    · with_reducible apply State.setFlt_canon
      with_reducible assumption
    · with_reducible assumption
  · with_reducible apply State.canon_ite
    · with_reducible apply State.setFlt_canon
      with_reducible assumption
    · with_reducible assumption
  · with_reducible apply State.localFlt_canon
    with_reducible assumption

theorem State.repairMem_canon (s : State) (l : List (Nat × Nat)) (ws : s.MemoryCanonical) : (State.repairMem s l).MemoryCanonical := by
  unfold State.repairMem
  with_reducible apply State.canon_ite
  · with_reducible assumption
  · extract_lets -underBinder +onlyGivenNames whole
    with_reducible apply State.canon_mk
    with_reducible assumption

theorem ERun.settle_canon (r : ERun) (n0 : Nat) (w0 : Nat) (c : CoreId) (kind : Nat) (wr : r.s.MemoryCanonical) : (ERun.settle r n0 w0 c kind).s.MemoryCanonical := by
  unfold ERun.settle
  extract_lets -underBinder +onlyGivenNames src
  extract_lets -underBinder +onlyGivenNames s1
  have ws1 : s1.MemoryCanonical := by
    unfold s1
    refine canon_foldl _ (fun _ _ _ => ?_) _ _ ?_
    · extract_lets -underBinder +onlyGivenNames as
      with_reducible apply State.countLocal_canon
      with_reducible apply State.repair_canon
      with_reducible assumption
    · with_reducible apply State.repairMem_canon
      with_reducible assumption
  clear_value s1
  extract_lets -underBinder +onlyGivenNames l
  with_reducible apply ERun.mkRun
  with_reducible apply State.canon_mk
  with_reducible assumption

theorem ERun.failAt_canon (r : ERun) (x : Cause × Nat) (wr : r.s.MemoryCanonical) : (ERun.failAt r x).s.MemoryCanonical := by
  unfold ERun.failAt
  with_reducible apply ERun.mkRun
  with_reducible assumption

theorem State.engCached_canon (s : State) (c : CoreId) (sp : Space) (a : Int) (eng : Nat) (ws : s.MemoryCanonical) : (State.engCached s c sp a eng).MemoryCanonical := by
  unfold State.engCached
  split
  · with_reducible apply State.cached_canon
    with_reducible assumption
  · with_reducible assumption

theorem ERun.write_canon (r : ERun) (c : CoreId) (kind : Nat) (sp : Space) (a : Int) (bs : List Byte) (wr : r.s.MemoryCanonical) : (ERun.write r c kind sp a bs).s.MemoryCanonical := by
  unfold ERun.write
  extract_lets -underBinder +onlyGivenNames s
  have ws : s.MemoryCanonical := by
    unfold s
    with_reducible apply State.engCached_canon
    with_reducible assumption
  clear_value s
  extract_lets -underBinder +onlyGivenNames p
  extract_lets -underBinder +onlyGivenNames n
  extract_lets -underBinder +onlyGivenNames bad
  split
  · unfold bad
    with_reducible apply ERun.failAt_canon
    with_reducible apply ERun.mkRun
    with_reducible apply State.engFlt_canon
    with_reducible assumption
  · split
    · unfold bad
      with_reducible apply ERun.failAt_canon
      with_reducible apply ERun.mkRun
      with_reducible apply State.engFlt_canon
      with_reducible assumption
    · split
      · with_reducible apply ERun.iteRun
        · unfold bad
          with_reducible apply ERun.failAt_canon
          with_reducible apply ERun.mkRun
          with_reducible apply State.engFlt_canon
          with_reducible assumption
        · with_reducible apply ERun.iteRun
          · unfold bad
            with_reducible apply ERun.failAt_canon
            with_reducible apply ERun.mkRun
            with_reducible apply State.engFlt_canon
            with_reducible assumption
          · with_reducible apply ERun.mkRun
            with_reducible apply State.performWrite_canon
            with_reducible assumption
      · extract_lets -underBinder +onlyGivenNames s1
        have ws1 : s1.MemoryCanonical := by
          unfold s1
          with_reducible apply State.engNote_canon
          with_reducible assumption
        clear_value s1
        split
        · with_reducible apply ERun.mkRun
          with_reducible assumption
        · with_reducible apply ERun.mkRun
          with_reducible assumption
        · with_reducible apply ERun.mkRun
          with_reducible assumption
        · extract_lets -underBinder +onlyGivenNames cells
          extract_lets -underBinder +onlyGivenNames own
          with_reducible apply ERun.iteRun
          · unfold bad
            with_reducible apply ERun.failAt_canon
            with_reducible apply ERun.mkRun
            with_reducible apply State.engFlt_canon
            with_reducible assumption
          · with_reducible apply ERun.mkRun
            with_reducible apply State.localWrite_canon
            with_reducible assumption

theorem ERun.read_canon (r : ERun) (c : CoreId) (s0 : State) (sp : Space) (a : Int) (n : Nat) (wr : r.s.MemoryCanonical) (ws0 : s0.MemoryCanonical) : (ERun.read r c s0 sp a n).1.s.MemoryCanonical := by
  unfold ERun.read
  extract_lets -underBinder +onlyGivenNames ps
  extract_lets -underBinder +onlyGivenNames early
  extract_lets -underBinder +onlyGivenNames late
  extract_lets -underBinder +onlyGivenNames r
  have wr : r.s.MemoryCanonical := by
    unfold r
    with_reducible apply ERun.mkRun
    refine canon_foldl _ (fun _ _ _ => ?_) _ _ ?_
    · with_reducible apply State.engCached_canon
      with_reducible assumption
    · with_reducible assumption
  clear_value r
  extract_lets -underBinder +onlyGivenNames s1
  have ws1 : s1.MemoryCanonical := by
    unfold s1
    refine canon_foldl _ (fun _ _ _ => ?_) _ _ ?_
    · with_reducible apply State.engNote_canon
      with_reducible apply State.engTouch_canon
      with_reducible assumption
    · with_reducible assumption
  clear_value s1
  clear_value early
  clear_value late
  split
  · split
    · with_reducible apply ERun.fstRun
      with_reducible apply ERun.mkRun
      with_reducible assumption
    · with_reducible apply ERun.fstRun
      with_reducible apply ERun.mkRun
      with_reducible apply State.canon_mk
      with_reducible assumption
  · with_reducible apply ERun.fstRun
    with_reducible assumption
  · with_reducible apply ERun.fstRun
    with_reducible assumption

theorem ERun.moveUnit_canon (c : CoreId) (s0 : State) (ssp : Space) (flt : State → Int → Nat → State) (put : ERun → Int → List Byte → ERun) (r : ERun) (g : Int × Int × Nat) (ws0 : s0.MemoryCanonical) (wflt : ∀ y0 y1 y2, State.MemoryCanonical y0 → (flt y0 y1 y2).MemoryCanonical) (wput : ∀ y0 y1 y2, State.MemoryCanonical (ERun.s y0) → (put y0 y1 y2).s.MemoryCanonical) (wr : r.s.MemoryCanonical) : (ERun.moveUnit c s0 ssp flt put r g).s.MemoryCanonical := by
  unfold ERun.moveUnit
  split
  · with_reducible apply wput
    refine ERun.of_fstRun (by assumption) ?_
    with_reducible apply ERun.read_canon
    · with_reducible assumption
    · with_reducible assumption
  · refine ERun.foldRun _ (fun _ _ _ => ?_) _ _ ?_
    · extract_lets -underBinder +onlyGivenNames dst
      split
      · with_reducible apply wput
        refine ERun.of_fstRun (by assumption) ?_
        with_reducible apply ERun.read_canon
        · with_reducible assumption
        · with_reducible assumption
      · with_reducible apply ERun.failAt_canon
        with_reducible apply ERun.mkRun
        with_reducible apply wflt
        refine ERun.of_fstRun (by assumption) ?_
        with_reducible apply ERun.read_canon
        · with_reducible assumption
        · with_reducible assumption
    · with_reducible assumption

theorem ERun.copySeg_canon (c : CoreId) (kind : Nat) (s0 : State) (ssp : Space) (dsp : Space) (r : ERun) (g : Int × Int × Nat) (ws0 : s0.MemoryCanonical) (wr : r.s.MemoryCanonical) : (ERun.copySeg c kind s0 ssp dsp r g).s.MemoryCanonical := by
  unfold ERun.copySeg
  with_reducible apply ERun.moveUnit_canon
  · with_reducible assumption
  · intro _ _ _ _
    with_reducible apply State.engFlt_canon
    with_reducible assumption
  · intro _ _ _ _
    with_reducible apply ERun.write_canon
    with_reducible assumption
  · with_reducible assumption

theorem State.setTags_canon (s : State) (c : CoreId) (smBase : Nat) (l : List (Nat × Fmt × Nat)) (ws : s.MemoryCanonical) : (State.setTags s c smBase l).MemoryCanonical := by
  unfold State.setTags
  with_reducible apply State.modCtx_canon
  with_reducible assumption

theorem State.itemCopy_canon (s : State) (c : CoreId) (kind : Nat) (b : BitVec 512) (ssp : Space) (dsp : Space) (eng : Nat) (ws : s.MemoryCanonical) : (State.itemCopy s c kind b ssp dsp eng).s.MemoryCanonical := by
  unfold State.itemCopy
  extract_lets -underBinder +onlyGivenNames gs
  extract_lets -underBinder +onlyGivenNames r
  have wr : r.s.MemoryCanonical := by
    unfold r
    refine ERun.foldRun _ (fun _ _ _ => ?_) _ _ ?_
    · with_reducible apply ERun.copySeg_canon
      · with_reducible assumption
      · with_reducible assumption
    · with_reducible apply ERun.mkRun
      with_reducible assumption
  clear_value r
  with_reducible apply ERun.iteRun
  · with_reducible apply ERun.mkRun
    with_reducible apply State.setTags_canon
    with_reducible assumption
  · with_reducible assumption

theorem State.itemGath_canon (s : State) (c : CoreId) (b : BitVec 512) (ix : Nat) (ssp : Space) (dsp : Space) (eng : Nat) (ws : s.MemoryCanonical) : (State.itemGath s c b ix ssp dsp eng).s.MemoryCanonical := by
  unfold State.itemGath
  refine ERun.foldRun _ (fun _ _ _ => ?_) _ _ ?_
  · extract_lets -underBinder +onlyGivenNames dst
    extract_lets -underBinder +onlyGivenNames at'
    extract_lets -underBinder +onlyGivenNames row
    split
    · with_reducible apply ERun.failAt_canon
      with_reducible apply ERun.mkRun
      refine canon_foldl _ (fun _ _ _ => ?_) _ _ ?_
      · with_reducible apply State.engFlt_canon
        with_reducible assumption
      · with_reducible assumption
    · extract_lets -underBinder +onlyGivenNames r1
      have wr1 : r1.s.MemoryCanonical := by
        unfold r1
        with_reducible apply ERun.mkRun
        with_reducible apply State.oorNote_canon
        with_reducible apply State.windowTouch_canon
        with_reducible assumption
      clear_value r1
      refine ERun.foldRun _ (fun _ _ _ => ?_) _ _ ?_
      · with_reducible apply ERun.copySeg_canon
        · with_reducible assumption
        · with_reducible assumption
      · with_reducible assumption
  · with_reducible apply ERun.mkRun
    with_reducible assumption

theorem State.itemRepack_canon (s : State) (c : CoreId) (kind : Nat) (b : BitVec 512) (ssp : Space) (dsp : Space) (eng : Nat) (ws : s.MemoryCanonical) : (State.itemRepack s c kind b ssp dsp eng).s.MemoryCanonical := by
  unfold State.itemRepack
  extract_lets -underBinder +onlyGivenNames w
  extract_lets -underBinder +onlyGivenNames n
  extract_lets -underBinder +onlyGivenNames r0
  have wr0 : r0.s.MemoryCanonical := by
    unfold r0
    with_reducible apply ERun.mkRun
    with_reducible assumption
  clear_value r0
  split
  extract_lets -underBinder +onlyGivenNames code
  extract_lets -underBinder +onlyGivenNames out
  refine ERun.foldRun _ (fun _ _ _ => ?_) _ _ ?_
  · extract_lets -underBinder +onlyGivenNames codes
    extract_lets -underBinder +onlyGivenNames bs
    extract_lets -underBinder +onlyGivenNames dst
    refine ERun.foldRun _ (fun _ _ _ => ?_) _ _ ?_
    · extract_lets -underBinder +onlyGivenNames o
      extract_lets -underBinder +onlyGivenNames ks
      with_reducible apply ERun.iteRun
      · with_reducible apply ERun.mkRun
        with_reducible apply State.engFlt_canon
        with_reducible assumption
      · with_reducible apply ERun.write_canon
        with_reducible assumption
    · with_reducible assumption
  · refine ERun.of_fstRun (by assumption) ?_
    refine ERun.foldPair _ (fun _ _ _ => ?_) _ _ ?_
    · split
      with_reducible apply ERun.fstRun
      refine ERun.of_fstRun (by assumption) ?_
      refine ERun.foldPair _ (fun _ _ _ => ?_) _ _ ?_
      · split
        · with_reducible apply ERun.fstRun
          refine ERun.of_fstRun (by assumption) ?_
          with_reducible apply ERun.read_canon
          · with_reducible assumption
          · with_reducible assumption
        · with_reducible apply ERun.fstRun
          with_reducible apply ERun.failAt_canon
          refine ERun.of_fstRun (by assumption) ?_
          with_reducible apply ERun.read_canon
          · with_reducible assumption
          · with_reducible assumption
      · with_reducible apply ERun.fstRun
        with_reducible assumption
    · with_reducible apply ERun.fstRun
      with_reducible assumption

theorem State.itemAcc_canon (s : State) (c : CoreId) (kind : Nat) (b : BitVec 512) (ssp : Space) (dsp : Space) (fs : Fmt) (fd : Fmt) (eng : Nat) (ws : s.MemoryCanonical) : (State.itemAcc s c kind b ssp dsp fs fd eng).s.MemoryCanonical := by
  unfold State.itemAcc
  extract_lets -underBinder +onlyGivenNames ws
  extract_lets -underBinder +onlyGivenNames wd
  refine ERun.foldRun _ (fun _ _ _ => ?_) _ _ ?_
  · refine ERun.foldRun _ (fun _ _ _ => ?_) _ _ ?_
    · extract_lets -underBinder +onlyGivenNames sa
      extract_lets -underBinder +onlyGivenNames da
      split
      · with_reducible apply ERun.failAt_canon
        with_reducible apply ERun.mkRun
        with_reducible apply State.engFlt_canon
        refine ERun.of_fstRun (by assumption) ?_
        with_reducible apply ERun.read_canon
        · with_reducible assumption
        · with_reducible assumption
      · split
        · with_reducible apply ERun.failAt_canon
          with_reducible apply ERun.mkRun
          with_reducible apply State.engFlt_canon
          refine ERun.of_fstRun (by assumption) ?_
          with_reducible apply ERun.read_canon
          · with_reducible assumption
          · with_reducible assumption
        · with_reducible apply ERun.write_canon
          refine ERun.of_fstRun (by assumption) ?_
          with_reducible apply ERun.read_canon
          · with_reducible assumption
          · with_reducible assumption
    · with_reducible assumption
  · with_reducible apply ERun.mkRun
    with_reducible assumption

theorem ERun.mcastWrite_canon (r : ERun) (c : CoreId) (t : CoreId) (sp : Space) (a : Int) (bs : List Byte) (wr : r.s.MemoryCanonical) : (ERun.mcastWrite r c t sp a bs).s.MemoryCanonical := by
  unfold ERun.mcastWrite
  extract_lets -underBinder +onlyGivenNames s
  have ws : s.MemoryCanonical := by
    unfold s
    with_reducible assumption
  clear_value s
  extract_lets -underBinder +onlyGivenNames p
  extract_lets -underBinder +onlyGivenNames cells
  extract_lets -underBinder +onlyGivenNames lim
  extract_lets -underBinder +onlyGivenNames s1
  have ws1 : s1.MemoryCanonical := by
    unfold s1
    with_reducible apply State.oorNote_canon
    with_reducible assumption
  clear_value s1
  extract_lets -underBinder +onlyGivenNames here
  extract_lets -underBinder +onlyGivenNames good
  extract_lets -underBinder +onlyGivenNames bad
  extract_lets -underBinder +onlyGivenNames r2
  have wr2 : r2.s.MemoryCanonical := by
    unfold r2
    with_reducible apply ERun.mkRun
    with_reducible apply State.localWrite_canon
    with_reducible assumption
  clear_value r2
  split
  · with_reducible assumption
  · with_reducible apply ERun.failAt_canon
    with_reducible apply ERun.mkRun
    with_reducible apply State.localFlt_canon
    with_reducible assumption

theorem State.itemMcast_canon (s : State) (c : CoreId) (b : BitVec 512) (ssp : Space) (dsp : Space) (pos : Nat) (ws : s.MemoryCanonical) : (State.itemMcast s c b ssp dsp pos).s.MemoryCanonical := by
  unfold State.itemMcast
  extract_lets -underBinder +onlyGivenNames t
  refine ERun.foldRun _ (fun _ _ _ => ?_) _ _ ?_
  · with_reducible apply ERun.moveUnit_canon
    · with_reducible assumption
    · intro _ _ _ _
      with_reducible apply State.localFlt_canon
      with_reducible assumption
    · intro _ _ _ _
      with_reducible apply ERun.mcastWrite_canon
      with_reducible assumption
    · with_reducible assumption
  · with_reducible apply ERun.mkRun
    with_reducible assumption

theorem ERun.strmWrite_canon (r : ERun) (c : CoreId) (kind : Nat) (sp : Space) (a : Int) (bs : List Byte) (wr : r.s.MemoryCanonical) : (ERun.strmWrite r c kind sp a bs).s.MemoryCanonical := by
  unfold ERun.strmWrite
  split
  · with_reducible apply ERun.failAt_canon
    with_reducible apply ERun.mkRun
    with_reducible apply State.engFlt_canon
    with_reducible assumption
  · with_reducible apply ERun.write_canon
    with_reducible assumption

theorem ERun.strmUnit_canon (c : CoreId) (kind : Nat) (b : BitVec 512) (dsp : Space) (fd : Fmt) (r : ERun) (i : Nat) (wr : r.s.MemoryCanonical) : (ERun.strmUnit c kind b dsp fd r i).s.MemoryCanonical := by
  unfold ERun.strmUnit
  extract_lets -underBinder +onlyGivenNames sa
  extract_lets -underBinder +onlyGivenNames da
  extract_lets -underBinder +onlyGivenNames s
  have ws : s.MemoryCanonical := by
    unfold s
    with_reducible apply State.engCached_canon
    with_reducible assumption
  clear_value s
  extract_lets -underBinder +onlyGivenNames r
  have wr : r.s.MemoryCanonical := by
    unfold r
    with_reducible apply ERun.mkRun
    with_reducible assumption
  clear_value r
  split
  · with_reducible apply ERun.failAt_canon
    with_reducible assumption
  · with_reducible assumption
  · split
    · with_reducible apply ERun.failAt_canon
      with_reducible assumption
    · split
      · split
        · extract_lets -underBinder +onlyGivenNames geo
          extract_lets -underBinder +onlyGivenNames wo
          split
          refine ERun.foldRun _ (fun _ _ _ => ?_) _ _ ?_
          · extract_lets -underBinder +onlyGivenNames a
            split
            split
            · with_reducible apply ERun.failAt_canon
              with_reducible apply ERun.mkRun
              with_reducible apply State.engFlt_canon
              with_reducible assumption
            · with_reducible apply ERun.strmWrite_canon
              with_reducible assumption
          · with_reducible assumption
        · with_reducible apply ERun.failAt_canon
          with_reducible assumption
      · with_reducible assumption

theorem State.itemStrm_canon (s : State) (c : CoreId) (kind : Nat) (b : BitVec 512) (dsp : Space) (fd : Fmt) (ws : s.MemoryCanonical) : (State.itemStrm s c kind b dsp fd).s.MemoryCanonical := by
  unfold State.itemStrm
  refine ERun.foldRun _ (fun _ _ _ => ?_) _ _ ?_
  · with_reducible apply ERun.strmUnit_canon
    with_reducible assumption
  · with_reducible apply ERun.mkRun
    with_reducible assumption

theorem State.itemRun_canon (s : State) (c : CoreId) (k : CmdKind) (kind : Nat) (b : BitVec 512) (ix : Nat) (tgt : Nat) (ws : s.MemoryCanonical) : (State.itemRun s c k kind b ix tgt).s.MemoryCanonical := by
  unfold State.itemRun
  split
  · extract_lets -underBinder +onlyGivenNames eng
    split
    · with_reducible apply ERun.iteRun
      · with_reducible apply State.itemCopy_canon
        with_reducible assumption
      · with_reducible apply State.itemRepack_canon
        with_reducible assumption
    · split
      · with_reducible apply State.itemAcc_canon
        with_reducible assumption
      · with_reducible apply ERun.mkRun
        with_reducible assumption
    · with_reducible apply State.itemMcast_canon
      with_reducible assumption
    · split
      · with_reducible apply State.itemStrm_canon
        with_reducible assumption
      · with_reducible apply ERun.mkRun
        with_reducible assumption
    · with_reducible apply State.itemGath_canon
      with_reducible assumption
    · with_reducible apply ERun.mkRun
      with_reducible assumption
  · with_reducible apply ERun.mkRun
    with_reducible assumption

theorem State.item_canon (s : State) (c : CoreId) (k : CmdKind) (kind : Nat) (b : BitVec 512) (ix : Nat) (tgt : Nat) (ws : s.MemoryCanonical) : (State.item s c k kind b ix tgt).s.MemoryCanonical := by
  unfold State.item
  with_reducible apply ERun.settle_canon
  with_reducible apply State.itemRun_canon
  with_reducible assumption

/-! ### What Machine/Fetch.lean defines -/

theorem State.slotFault_canon (s : State) (c : CoreId) (e : Strm) (k : Cause) (addr : Word) (defer : Bool) (ws : s.MemoryCanonical) : (State.slotFault s c e k addr defer).MemoryCanonical := by
  unfold State.slotFault
  split
  · with_reducible apply State.readFault_canon
    refine canon_of_fst (by assumption) ?_
    with_reducible apply State.beginSlot_canon
    with_reducible assumption
  · with_reducible apply State.takeFault_canon
    refine canon_of_fst (by assumption) ?_
    with_reducible apply State.beginSlot_canon
    with_reducible assumption

theorem State.hold_canon (s : State) (c : CoreId) (e : Strm) (h : Held) (ws : s.MemoryCanonical) : (State.hold s c e h).MemoryCanonical := by
  unfold State.hold
  with_reducible apply State.modStr_canon
  with_reducible assumption

theorem State.faultEncoding_canon (s : State) (c : CoreId) (e : Strm) (ws : s.MemoryCanonical) : (State.faultEncoding s c e).MemoryCanonical := by
  unfold State.faultEncoding
  extract_lets -underBinder +onlyGivenNames h
  clear_value h
  split
  · with_reducible assumption
  · extract_lets -underBinder +onlyGivenNames w
    split
    · with_reducible assumption
    · with_reducible apply State.slotFault_canon
      with_reducible apply State.hold_canon
      with_reducible assumption

theorem State.faultFetch_canon (s : State) (c : CoreId) (e : Strm) (ws : s.MemoryCanonical) : (State.faultFetch s c e).MemoryCanonical := by
  unfold State.faultFetch
  split
  · with_reducible assumption
  · split
    · with_reducible assumption
    · with_reducible apply State.slotFault_canon
      with_reducible assumption

theorem execEncodingFault_canon (core : CoreId) (e : Strm) (s : State) (ws : s.MemoryCanonical) : CanonNext (execEncodingFault core e s) := by
  unfold execEncodingFault
  with_reducible apply canonNext_next
  with_reducible apply State.canon_ite
  · with_reducible apply State.faultEncoding_canon
    with_reducible assumption
  · with_reducible assumption

theorem execInstructionFetchFault_canon (core : CoreId) (e : Strm) (s : State) (ws : s.MemoryCanonical) : CanonNext (execInstructionFetchFault core e s) := by
  unfold execInstructionFetchFault
  with_reducible apply canonNext_next
  with_reducible apply State.canon_ite
  · with_reducible apply State.faultFetch_canon
    with_reducible assumption
  · with_reducible assumption

theorem execDictionaryCode_canon (e : Strm) (i : BitVec 10) (s : State) (ws : s.MemoryCanonical) : CanonNext (execDictionaryCode e i s) := by
  unfold execDictionaryCode
  with_reducible apply canonNext_next
  extract_lets -underBinder +onlyGivenNames __src
  have w__src : __src.MemoryCanonical := by
    unfold __src
    with_reducible apply State.hold_canon
    with_reducible assumption
  clear_value __src
  with_reducible apply State.canon_mk
  with_reducible assumption

theorem State.annul_canon (s : State) (c : CoreId) (e : Strm) (ws : s.MemoryCanonical) : (State.annul s c e).MemoryCanonical := by
  unfold State.annul
  extract_lets -underBinder +onlyGivenNames t
  extract_lets -underBinder +onlyGivenNames step
  split
  · with_reducible apply State.slotFault_canon
    with_reducible assumption
  · with_reducible apply State.canon_ite
    · unfold step
      split
      · with_reducible apply State.readFault_canon
        refine canon_of_fst (by assumption) ?_
        with_reducible apply State.beginSlot_canon
        with_reducible assumption
      · with_reducible apply State.endSlot_canon
        with_reducible apply State.modStr_canon
        refine canon_of_fst (by assumption) ?_
        with_reducible apply State.beginSlot_canon
        with_reducible assumption
    · with_reducible apply State.canon_ite
      · unfold step
        split
        · with_reducible apply State.readFault_canon
          refine canon_of_fst (by assumption) ?_
          with_reducible apply State.beginSlot_canon
          with_reducible assumption
        · with_reducible apply State.endSlot_canon
          with_reducible apply State.modStr_canon
          refine canon_of_fst (by assumption) ?_
          with_reducible apply State.beginSlot_canon
          with_reducible assumption
      · split
        · with_reducible apply State.slotFault_canon
          with_reducible assumption
        · unfold step
          split
          · with_reducible apply State.readFault_canon
            refine canon_of_fst (by assumption) ?_
            with_reducible apply State.beginSlot_canon
            with_reducible assumption
          · with_reducible apply State.endSlot_canon
            with_reducible apply State.modStr_canon
            refine canon_of_fst (by assumption) ?_
            with_reducible apply State.beginSlot_canon
            with_reducible assumption

theorem State.deliver_canon (s : State) (c : CoreId) (e : Strm) (ws : s.MemoryCanonical) : (State.deliver s c e).MemoryCanonical := by
  unfold State.deliver
  split
  · with_reducible assumption
  · with_reducible apply State.canon_ite
    · with_reducible assumption
    · split
      · with_reducible apply State.readFault_canon
        refine canon_of_fst (by assumption) ?_
        with_reducible apply State.beginSlot_canon
        with_reducible assumption
      · with_reducible apply State.takeFault_canon
        with_reducible apply State.modStr_canon
        refine canon_of_fst (by assumption) ?_
        with_reducible apply State.beginSlot_canon
        with_reducible assumption

theorem execDeferredFaultDelivery_canon (core : CoreId) (e : Strm) (s : State) (ws : s.MemoryCanonical) : CanonNext (execDeferredFaultDelivery core e s) := by
  unfold execDeferredFaultDelivery
  with_reducible apply canonNext_next
  with_reducible apply State.canon_ite
  · with_reducible apply State.deliver_canon
    with_reducible assumption
  · with_reducible assumption

theorem State.heldWait_canon (s : State) (c : CoreId) (e : Strm) (ws : s.MemoryCanonical) : (State.heldWait s c e).MemoryCanonical := by
  unfold State.heldWait
  split
  · with_reducible assumption
  · with_reducible apply State.canon_ite
    · with_reducible apply State.waitCycle_canon
      with_reducible assumption
    · with_reducible assumption

theorem State.timesOut_canon (s : State) (c : CoreId) (e : Strm) (k : Nat) (ws : s.MemoryCanonical) : (State.timesOut s c e k).MemoryCanonical := by
  unfold State.timesOut
  with_reducible apply State.takeFault_canon
  with_reducible apply State.canon_mk
  with_reducible assumption

theorem execRingTimeout_canon (core : CoreId) (e : Strm) (s : State) (ws : s.MemoryCanonical) : CanonNext (execRingTimeout core e s) := by
  unfold execRingTimeout
  with_reducible apply canonNext_next
  split
  · with_reducible apply State.canon_ite
    · with_reducible apply State.timesOut_canon
      with_reducible assumption
    · with_reducible assumption
  · with_reducible assumption

theorem execPhaseWatchdog_canon (core : CoreId) (s : State) (ws : s.MemoryCanonical) : CanonNext (execPhaseWatchdog core s) := by
  unfold execPhaseWatchdog
  with_reducible apply canonNext_next
  split
  · with_reducible apply State.canon_ite
    · with_reducible apply State.timesOut_canon
      with_reducible assumption
    · with_reducible assumption
  · with_reducible assumption

theorem State.landingTurn_canon (s : State) (c : CoreId) (e : Strm) (ws : s.MemoryCanonical) : (State.landingTurn s c e).MemoryCanonical := by
  unfold State.landingTurn
  split
  · with_reducible apply State.readFault_canon
    refine canon_of_fst (by assumption) ?_
    with_reducible apply State.beginSlot_canon
    with_reducible apply State.canon_mk
    with_reducible assumption
  · with_reducible apply State.endSlot_canon
    with_reducible apply State.modStr_canon
    refine canon_of_fst (by assumption) ?_
    with_reducible apply State.beginSlot_canon
    with_reducible apply State.canon_mk
    with_reducible assumption

theorem execResultLanding_canon (core : CoreId) (e : Strm) (s : State) (ws : s.MemoryCanonical) : CanonNext (execResultLanding core e s) := by
  unfold execResultLanding
  with_reducible apply canonNext_next
  with_reducible apply State.canon_ite
  · with_reducible apply State.landingTurn_canon
    with_reducible assumption
  · with_reducible assumption

theorem execAccumulatorRead_canon (core : CoreId) (s : State) (ws : s.MemoryCanonical) : CanonNext (execAccumulatorRead core s) := by
  unfold execAccumulatorRead
  with_reducible apply canonNext_next
  with_reducible apply State.canon_ite
  · with_reducible apply State.landingTurn_canon
    with_reducible assumption
  · with_reducible assumption

/-! ### What Machine/Vec.lean defines -/

theorem vecRead_canon (use : Use) (srcs : List VReg) (dsts : List VReg) (mis : Option Word) (c : CoreId) (s : State) (k : State → List Nat → Res) (ws : s.MemoryCanonical) (wk : ∀ y0 y1, State.MemoryCanonical y0 → (k y0 y1).Canon) : (vecRead use srcs dsts mis c s k).Canon := by
  unfold vecRead
  extract_lets -underBinder +onlyGivenNames x
  extract_lets -underBinder +onlyGivenNames reads
  split
  · exact Res.canon_fault
  · split
    · exact Res.canon_fault
    · with_reducible apply wk
      with_reducible apply State.oorNote_canon
      with_reducible assumption

theorem vecDone_canon (s : State) (c : CoreId) (base : Nat) (srcs : List VReg) (vd : VReg) (e : Bool) (reads : List Nat) (v : Vec) (bits : Vec) (ev : Ev) (ws : s.MemoryCanonical) : (vecDone s c base srcs vd e reads v bits ev).s.MemoryCanonical := by
  unfold vecDone
  extract_lets -underBinder +onlyGivenNames x
  extract_lets -underBinder +onlyGivenNames __src
  have w__src : __src.s.MemoryCanonical := by
    unfold __src
    with_reducible apply Done.one_canon
    with_reducible assumption
  clear_value __src
  with_reducible apply Done.canon_mk
  with_reducible assumption

theorem vecMap_canon (w : Nat) (base : Nat) (srcs : List VReg) (vd : VReg) (e : Bool) (f : Ctx → List Nat → Nat × Ev) (c : CoreId) (s : State) (ws : s.MemoryCanonical) : (vecMap w base srcs vd e f c s).Canon := by
  unfold vecMap
  with_reducible apply vecRead_canon
  · with_reducible assumption
  · intro _ _ _
    extract_lets -underBinder +onlyGivenNames x
    extract_lets -underBinder +onlyGivenNames vs
    extract_lets -underBinder +onlyGivenNames n
    extract_lets -underBinder +onlyGivenNames rs
    with_reducible apply Res.canon_ok
    with_reducible apply vecDone_canon
    with_reducible assumption

theorem vecMove_canon (w : Nat) (base : Nat) (srcs : List VReg) (vd : VReg) (e : Bool) (src : Ctx → List (Nat → Nat) → Nat → List (VReg × Nat)) (f : Ctx → List (Nat → Nat) → Nat → Nat) (c : CoreId) (s : State) (ws : s.MemoryCanonical) : (vecMove w base srcs vd e src f c s).Canon := by
  unfold vecMove
  with_reducible apply vecRead_canon
  · with_reducible assumption
  · intro _ _ _
    extract_lets -underBinder +onlyGivenNames x
    extract_lets -underBinder +onlyGivenNames vs
    extract_lets -underBinder +onlyGivenNames n
    with_reducible apply Res.canon_ok
    with_reducible apply vecDone_canon
    with_reducible assumption

theorem vecTest_canon (w : Nat) (md : KReg) (srcs : List VReg) (f : Ctx → List Nat → Bool) (c : CoreId) (s : State) (ws : s.MemoryCanonical) : (vecTest w md srcs f c s).Canon := by
  unfold vecTest
  with_reducible apply vecRead_canon
  · with_reducible assumption
  · intro _ _ _
    extract_lets -underBinder +onlyGivenNames x
    extract_lets -underBinder +onlyGivenNames vs
    extract_lets -underBinder +onlyGivenNames bits
    extract_lets -underBinder +onlyGivenNames lat
    with_reducible apply Res.canon_ok
    extract_lets -underBinder +onlyGivenNames __src
    have w__src : __src.s.MemoryCanonical := by
      unfold __src
      with_reducible apply Done.one_canon
      with_reducible assumption
    clear_value __src
    with_reducible apply Done.canon_mk
    with_reducible assumption

theorem vecWhole_canon (use : Ctx → Use) (base : Nat) (srcs : List VReg) (vd : VReg) (e : Bool) (f : Ctx → List Vec → Vec × Ev) (c : CoreId) (s : State) (ws : s.MemoryCanonical) : (vecWhole use base srcs vd e f c s).Canon := by
  unfold vecWhole
  with_reducible apply vecRead_canon
  · with_reducible assumption
  · intro _ _ _
    extract_lets -underBinder +onlyGivenNames r
    with_reducible apply Res.canon_ok
    with_reducible apply vecDone_canon
    with_reducible assumption

/-! ### What Machine/Mat.lean defines -/

theorem mmaIssue_canon (f : MmaForm) (sc : Ctx → Word) (st : Ctx → Word) (c : CoreId) (s : State) (ws : s.MemoryCanonical) : (mmaIssue f sc st c s).Canon := by
  unfold mmaIssue
  extract_lets -underBinder +onlyGivenNames x
  with_reducible apply Res.canon_ite
  · refine Res.canon_wait fun _ _ => ?_
    with_reducible apply id_canon
    with_reducible assumption
  · split
    · exact Res.canon_fault
    · extract_lets -underBinder +onlyGivenNames k
      with_reducible apply Res.canon_ite
      · exact Res.canon_fault
      · extract_lets -underBinder +onlyGivenNames lent
        extract_lets -underBinder +onlyGivenNames j
        split
        · exact Res.canon_fault
        · extract_lets -underBinder +onlyGivenNames sp
          split
          · exact Res.canon_fault
          · extract_lets -underBinder +onlyGivenNames s1
            have ws1 : s1.MemoryCanonical := by
              unfold s1
              with_reducible apply State.oorNote_canon
              with_reducible apply State.mmaNote_canon
              with_reducible assumption
            clear_value s1
            with_reducible apply Res.canon_ok
            extract_lets -underBinder +onlyGivenNames __src
            have w__src : __src.s.MemoryCanonical := by
              unfold __src
              with_reducible apply Done.one_canon
              with_reducible assumption
            clear_value __src
            with_reducible apply Done.canon_mk
            with_reducible assumption

theorem execMma_canon (r : Ring) (acc : TReg) (ta : TReg) (tb : TReg) (z : Bool) (w : Bool) (s : State) (ws : s.MemoryCanonical) : CanonNext (execMma r acc ta tb z w s) := by
  unfold execMma
  with_reducible apply issue_canon
  · with_reducible assumption
  · intro _ _ _
    with_reducible apply mmaIssue_canon
    with_reducible assumption

theorem execMmai_canon (r : Ring) (acc : TReg) (ta : TReg) (tb : TReg) (z : Bool) (w : Bool) (g : IGeo) (sx : XReg) (s : State) (ws : s.MemoryCanonical) : CanonNext (execMmai r acc ta tb z w g sx s) := by
  unfold execMmai
  with_reducible apply issue_canon
  · with_reducible assumption
  · intro _ _ _
    with_reducible apply mmaIssue_canon
    with_reducible assumption

theorem execMmax_canon (r : Ring) (acc : TReg) (ta : TReg) (tb : TReg) (z : Bool) (w : Bool) (g : XGeo) (sx : XReg) (s : State) (ws : s.MemoryCanonical) : CanonNext (execMmax r acc ta tb z w g sx s) := by
  unfold execMmax
  with_reducible apply issue_canon
  · with_reducible assumption
  · intro _ _ _
    with_reducible apply mmaIssue_canon
    with_reducible assumption

theorem State.mgNote_canon (s : State) (c : CoreId) (l : List (Space × TView)) (ws : s.MemoryCanonical) : (State.mgNote s c l).MemoryCanonical := by
  unfold State.mgNote
  refine canon_foldl _ (fun _ _ _ => ?_) _ _ ?_
  · with_reducible apply State.oorNote_canon
    with_reducible assumption
  · with_reducible assumption

theorem mgIssue_canon (lat : Nat) (srcs : List MgOp) (dst : MgOp) (nums : Nat × Nat × Nat) (reason : List TView → TView → Option Nat) (code : Ctx → List (TView × (Nat → Nat → Nat)) → TView → Nat → Nat → Nat × BitVec 5) (c : CoreId) (s : State) (ws : s.MemoryCanonical) : (mgIssue lat srcs dst nums reason code c s).Canon := by
  unfold mgIssue
  extract_lets -underBinder +onlyGivenNames x
  split
  · exact Res.canon_fault
  · extract_lets -underBinder +onlyGivenNames ss
    extract_lets -underBinder +onlyGivenNames d
    split
    · exact Res.canon_fault
    · extract_lets -underBinder +onlyGivenNames rd
      split
      · exact Res.canon_fault
      · extract_lets -underBinder +onlyGivenNames gets
        extract_lets -underBinder +onlyGivenNames out
        extract_lets -underBinder +onlyGivenNames lent
        with_reducible apply Res.canon_ok
        with_reducible apply Done.one_canon
        with_reducible apply State.mgNote_canon
        with_reducible assumption

theorem execAclr_canon (r : Ring) (x : TReg) (s : State) (ws : s.MemoryCanonical) : CanonNext (execAclr r x s) := by
  unfold execAclr
  with_reducible apply issue_canon
  · with_reducible assumption
  · intro _ _ _
    with_reducible apply mgIssue_canon
    with_reducible assumption

theorem execAadd_canon (r : Ring) (x : TReg) (y : TReg) (z : TReg) (s : State) (ws : s.MemoryCanonical) : CanonNext (execAadd r x y z s) := by
  unfold execAadd
  with_reducible apply issue_canon
  · with_reducible assumption
  · intro _ _ _
    with_reducible apply mgIssue_canon
    with_reducible assumption

theorem execAld_canon (r : Ring) (x : TReg) (y : TReg) (s : State) (ws : s.MemoryCanonical) : CanonNext (execAld r x y s) := by
  unfold execAld
  with_reducible apply issue_canon
  · with_reducible assumption
  · intro _ _ _
    with_reducible apply mgIssue_canon
    with_reducible assumption

theorem execAst_canon (r : Ring) (x : TReg) (y : TReg) (tr : Bool) (s : State) (ws : s.MemoryCanonical) : CanonNext (execAst r x y tr s) := by
  unfold execAst
  with_reducible apply issue_canon
  · with_reducible assumption
  · intro _ _ _
    with_reducible apply mgIssue_canon
    with_reducible assumption

theorem execAcvt_canon (r : Ring) (x : TReg) (y : TReg) (sat : Bool) (scl : Bool) (sx : XReg) (s : State) (ws : s.MemoryCanonical) : CanonNext (execAcvt r x y sat scl sx s) := by
  unfold execAcvt
  with_reducible apply issue_canon
  · with_reducible assumption
  · intro _ _ _
    with_reducible apply mgIssue_canon
    with_reducible assumption

theorem tileIssue_canon (op : TileOp) (sp : Space) (src : TView) (dst : TView) (c : CoreId) (s : State) (ws : s.MemoryCanonical) : (tileIssue op sp src dst c s).Canon := by
  unfold tileIssue
  extract_lets -underBinder +onlyGivenNames j
  split
  · exact Res.canon_fault
  · extract_lets -underBinder +onlyGivenNames o
    extract_lets -underBinder +onlyGivenNames lent
    extract_lets -underBinder +onlyGivenNames s1
    have ws1 : s1.MemoryCanonical := by
      unfold s1
      with_reducible apply State.oorNote_canon
      with_reducible assumption
    clear_value s1
    with_reducible apply Res.canon_ok
    extract_lets -underBinder +onlyGivenNames __src
    have w__src : __src.s.MemoryCanonical := by
      unfold __src
      with_reducible apply Done.one_canon
      with_reducible assumption
    clear_value __src
    with_reducible apply Done.canon_mk
    with_reducible assumption

theorem tldIssue_canon (x : TReg) (sx : XReg) (c : CoreId) (s : State) (ws : s.MemoryCanonical) : (tldIssue x sx c s).Canon := by
  unfold tldIssue
  extract_lets -underBinder +onlyGivenNames k
  split
  · exact Res.canon_fault
  · extract_lets -underBinder +onlyGivenNames w
    extract_lets -underBinder +onlyGivenNames addr
    extract_lets -underBinder +onlyGivenNames pitch
    with_reducible apply Res.canon_ite
    · exact Res.canon_fault
    · with_reducible apply Res.canon_ite
      · exact Res.canon_fault
      · with_reducible apply tileIssue_canon
        with_reducible assumption

theorem moveIssue_canon (op : TileOp) (x : TReg) (y : TReg) (reason : TView → TView → Option Nat) (c : CoreId) (s : State) (ws : s.MemoryCanonical) : (moveIssue op x y reason c s).Canon := by
  unfold moveIssue
  split
  · exact Res.canon_fault
  · extract_lets -underBinder +onlyGivenNames src
    extract_lets -underBinder +onlyGivenNames dst
    split
    · exact Res.canon_fault
    · with_reducible apply tileIssue_canon
      with_reducible assumption

theorem execTld_canon (r : Ring) (x : TReg) (sx : XReg) (s : State) (ws : s.MemoryCanonical) : CanonNext (execTld r x sx s) := by
  unfold execTld
  with_reducible apply issue_canon
  · with_reducible assumption
  · intro _ _ _
    with_reducible apply tldIssue_canon
    with_reducible assumption

theorem execTst_canon (r : Ring) (x : TReg) (y : TReg) (sat : Bool) (s : State) (ws : s.MemoryCanonical) : CanonNext (execTst r x y sat s) := by
  unfold execTst
  with_reducible apply issue_canon
  · with_reducible assumption
  · intro _ _ _
    with_reducible apply moveIssue_canon
    with_reducible assumption

theorem execTtr_canon (r : Ring) (x : TReg) (y : TReg) (s : State) (ws : s.MemoryCanonical) : CanonNext (execTtr r x y s) := by
  unfold execTtr
  with_reducible apply issue_canon
  · with_reducible assumption
  · intro _ _ _
    with_reducible apply moveIssue_canon
    with_reducible assumption

theorem execTrepk_canon (r : Ring) (x : TReg) (y : TReg) (s : State) (ws : s.MemoryCanonical) : CanonNext (execTrepk r x y s) := by
  unfold execTrepk
  with_reducible apply issue_canon
  · with_reducible assumption
  · intro _ _ _
    with_reducible apply moveIssue_canon
    with_reducible assumption

theorem execTrepkPk_canon (r : Ring) (x : TReg) (y : TReg) (s : State) (ws : s.MemoryCanonical) : CanonNext (execTrepkPk r x y s) := by
  unfold execTrepkPk
  with_reducible apply issue_canon
  · with_reducible assumption
  · intro _ _ _
    with_reducible apply moveIssue_canon
    with_reducible assumption

theorem mstatIssue_canon (clr : Bool) (c : CoreId) (s : State) (ws : s.MemoryCanonical) : (mstatIssue clr c s).Canon := by
  unfold mstatIssue
  extract_lets -underBinder +onlyGivenNames r
  with_reducible apply Res.canon_ite
  · with_reducible apply Res.canon_ok
    with_reducible apply Done.plain_canon
    with_reducible apply State.applyDest_canon
    with_reducible assumption
  · with_reducible apply Res.canon_ok
    extract_lets -underBinder +onlyGivenNames __src
    have w__src : __src.s.MemoryCanonical := by
      unfold __src
      with_reducible apply Done.one_canon
      with_reducible assumption
    clear_value __src
    with_reducible apply Done.canon_mk
    with_reducible assumption

theorem execMstat_canon (r : Ring) (s : State) (ws : s.MemoryCanonical) : CanonNext (execMstat r s) := by
  unfold execMstat
  with_reducible apply issue_canon
  · with_reducible assumption
  · intro _ _ _
    with_reducible apply mstatIssue_canon
    with_reducible assumption

theorem execMstatClr_canon (r : Ring) (s : State) (ws : s.MemoryCanonical) : CanonNext (execMstatClr r s) := by
  unfold execMstatClr
  with_reducible apply issue_canon
  · with_reducible assumption
  · intro _ _ _
    with_reducible apply mstatIssue_canon
    with_reducible assumption

theorem execMwait_canon (r : Ring) (s : State) (ws : s.MemoryCanonical) : CanonNext (execMwait r s) := by
  unfold execMwait
  with_reducible apply issue_canon
  · with_reducible assumption
  · intro _ _ _
    with_reducible apply Res.canon_ite
    · refine Res.canon_wait fun _ _ => ?_
      with_reducible apply id_canon
      with_reducible assumption
    · with_reducible apply Res.canon_ok
      with_reducible apply Done.plain_canon
      with_reducible assumption

/-! ### What Machine/Engine.lean defines -/

theorem State.itemReport_canon (s : State) (c : CoreId) (e : Strm) (cause : Cause) (addr : Nat) (kind : Nat) (step : Nat) (ws : s.MemoryCanonical) : (State.itemReport s c e cause addr kind step).MemoryCanonical := by
  unfold State.itemReport
  extract_lets -underBinder +onlyGivenNames x
  extract_lets -underBinder +onlyGivenNames s1
  have ws1 : s1.MemoryCanonical := by
    unfold s1
    split
    · with_reducible apply State.reportTask_canon
      with_reducible assumption
    · with_reducible assumption
  clear_value s1
  with_reducible apply State.modCtx_canon
  with_reducible assumption

theorem State.tgtArrival_canon (s : State) (c : CoreId) (tgt : Nat) (kind : Nat) (ws : s.MemoryCanonical) : (State.tgtArrival s c tgt kind).1.MemoryCanonical := by
  unfold State.tgtArrival
  extract_lets -underBinder +onlyGivenNames id
  split
  · with_reducible apply canon_fst
    with_reducible assumption
  · split
    · with_reducible apply canon_fst
      with_reducible assumption
    · split
      · with_reducible apply canon_fst
        with_reducible assumption
      · with_reducible apply canon_fst
        with_reducible apply State.canon_mk
        with_reducible assumption

theorem State.setCmd_canon (s : State) (c : CoreId) (i : Nat) (k : XCmd) (ws : s.MemoryCanonical) : (State.setCmd s c i k).MemoryCanonical := by
  unfold State.setCmd
  with_reducible apply State.modCtx_canon
  with_reducible assumption

theorem State.itemPerform_canon (s : State) (c : CoreId) (i : Nat) (ws : s.MemoryCanonical) : (State.itemPerform s c i).MemoryCanonical := by
  unfold State.itemPerform
  split
  · with_reducible assumption
  · split
    extract_lets -underBinder +onlyGivenNames r
    have wr : r.s.MemoryCanonical := by
      unfold r
      with_reducible apply State.item_canon
      with_reducible assumption
    clear_value r
    extract_lets -underBinder +onlyGivenNames k1
    with_reducible apply State.setCmd_canon
    with_reducible assumption

theorem State.itemFailure_canon (s : State) (c : CoreId) (i : Nat) (ws : s.MemoryCanonical) : (State.itemFailure s c i).MemoryCanonical := by
  unfold State.itemFailure
  split
  · with_reducible assumption
  · split
    · with_reducible assumption
    · with_reducible apply State.itemReport_canon
      with_reducible apply State.setCmd_canon
      with_reducible assumption

theorem State.cmdArrive_canon (s : State) (c : CoreId) (i : Nat) (ws : s.MemoryCanonical) : (State.cmdArrive s c i).MemoryCanonical := by
  unfold State.cmdArrive
  split
  · with_reducible assumption
  · split
    · with_reducible apply State.setCmd_canon
      refine canon_of_fst (by assumption) ?_
      with_reducible apply State.tgtArrival_canon
      with_reducible assumption
    · with_reducible apply State.setCmd_canon
      refine canon_of_fst (by assumption) ?_
      with_reducible apply State.tgtArrival_canon
      with_reducible assumption

theorem State.cmdStart_canon (s : State) (c : CoreId) (i : Nat) (ws : s.MemoryCanonical) : (State.cmdStart s c i).MemoryCanonical := by
  unfold State.cmdStart
  split
  · with_reducible assumption
  · with_reducible apply State.setCmd_canon
    with_reducible assumption

theorem State.stepStart_canon (s : State) (c : CoreId) (i : Nat) (ws : s.MemoryCanonical) : (State.stepStart s c i).MemoryCanonical := by
  unfold State.stepStart
  split
  · with_reducible assumption
  · with_reducible apply State.setCmd_canon
    with_reducible assumption

theorem State.cmdComplete_canon (s : State) (c : CoreId) (i : Nat) (ws : s.MemoryCanonical) : (State.cmdComplete s c i).MemoryCanonical := by
  unfold State.cmdComplete
  split
  · with_reducible assumption
  · with_reducible apply State.modCtx_canon
    with_reducible assumption

theorem State.engDo_canon (s : State) (c : CoreId) (a : EngAct) (ws : s.MemoryCanonical) : (State.engDo s c a).MemoryCanonical := by
  unfold State.engDo
  split
  · with_reducible apply State.itemFailure_canon
    with_reducible assumption
  · with_reducible apply State.cmdArrive_canon
    with_reducible assumption
  · with_reducible apply State.cmdComplete_canon
    with_reducible assumption
  · with_reducible apply State.cmdStart_canon
    with_reducible assumption
  · with_reducible apply State.stepStart_canon
    with_reducible assumption
  · with_reducible apply State.itemPerform_canon
    with_reducible assumption

theorem State.countWaits_canon (s : State) (c : CoreId) (ws : s.MemoryCanonical) : (State.countWaits s c).MemoryCanonical := by
  unfold State.countWaits
  extract_lets -underBinder +onlyGivenNames halt
  with_reducible apply State.modCtx_canon
  with_reducible assumption

theorem State.mnestInst_canon (s : State) (c : CoreId) (n : MNest) (i : Nat) (ws : s.MemoryCanonical) : ExcCanon (State.mnestInst s c n i) := by
  unfold State.mnestInst
  split
  split
  · exact ExcCanon.at_error
  · extract_lets -underBinder +onlyGivenNames s0
    have ws0 : s0.MemoryCanonical := by
      unfold s0
      with_reducible apply State.windowTouch_canon
      with_reducible apply State.windowTouch_canon
      with_reducible assumption
    clear_value s0
    extract_lets -underBinder +onlyGivenNames s1
    have ws1 : s1.MemoryCanonical := by
      unfold s1
      with_reducible apply State.oorNote_canon
      with_reducible assumption
    clear_value s1
    extract_lets -underBinder +onlyGivenNames out
    with_reducible apply ExcCanon.at_ok
    with_reducible apply State.modCtx_canon
    with_reducible apply State.localStore_canon
    with_reducible assumption

theorem State.mnestInsts_canon (s : State) (c : CoreId) (n : MNest) (l : List Nat) (ws : s.MemoryCanonical) :
    (s.mnestInsts c n l).1.MemoryCanonical := by
  induction l generalizing s with
  | nil => exact ws
  | cons i t ih =>
    unfold State.mnestInsts
    split
    · exact ws
    · with_reducible apply ih
      refine canon_of_ok (by assumption) ?_
      with_reducible apply State.mnestInst_canon
      with_reducible assumption


theorem State.setNest_canon (s : State) (c : CoreId) (n : Option MNest) (ws : s.MemoryCanonical) : (State.setNest s c n).MemoryCanonical := by
  unfold State.setNest
  with_reducible apply State.modCtx_canon
  with_reducible assumption

theorem State.mnestStep_canon (s : State) (c : CoreId) (n : MNest) (ws : s.MemoryCanonical) : (State.mnestStep s c n).MemoryCanonical := by
  unfold State.mnestStep
  split
  · with_reducible apply State.setNest_canon
    refine canon_of_fst (by assumption) ?_
    with_reducible apply State.mnestInsts_canon
    with_reducible assumption
  · with_reducible apply State.setNest_canon
    refine canon_of_fst (by assumption) ?_
    with_reducible apply State.mnestInsts_canon
    with_reducible assumption

theorem State.mnestEnd_canon (s : State) (c : CoreId) (n : MNest) (ws : s.MemoryCanonical) : (State.mnestEnd s c n).MemoryCanonical := by
  unfold State.mnestEnd
  extract_lets -underBinder +onlyGivenNames s1
  have ws1 : s1.MemoryCanonical := by
    unfold s1
    with_reducible apply State.setNest_canon
    with_reducible assumption
  clear_value s1
  split
  · with_reducible apply State.modCtx_canon
    with_reducible assumption
  · with_reducible apply State.itemReport_canon
    with_reducible apply State.modCtx_canon
    with_reducible assumption

theorem State.nestWaits_canon (s : State) (c : CoreId) (n : MNest) (held : Bool) (ws : s.MemoryCanonical) : (State.nestWaits s c n held).MemoryCanonical := by
  unfold State.nestWaits
  extract_lets -underBinder +onlyGivenNames s1
  have ws1 : s1.MemoryCanonical := by
    unfold s1
    with_reducible apply State.canon_ite
    · with_reducible apply State.idleSlot_canon
      with_reducible assumption
    · with_reducible assumption
  clear_value s1
  with_reducible apply State.modCtx_canon
  with_reducible assumption

theorem State.mnestTurn_canon (s : State) (c : CoreId) (held : Bool) (ws : s.MemoryCanonical) : (State.mnestTurn s c held).MemoryCanonical := by
  unfold State.mnestTurn
  split
  · with_reducible assumption
  · with_reducible apply State.canon_ite
    · with_reducible apply State.canon_ite
      · with_reducible apply State.mnestEnd_canon
        with_reducible assumption
      · with_reducible assumption
    · with_reducible apply State.canon_ite
      · with_reducible apply State.canon_ite
        · with_reducible assumption
        · with_reducible apply State.mnestEnd_canon
          with_reducible assumption
      · with_reducible apply State.canon_ite
        · with_reducible assumption
        · with_reducible apply State.canon_ite
          · with_reducible apply State.nestWaits_canon
            with_reducible assumption
          · with_reducible apply State.canon_ite
            · with_reducible apply State.canon_ite
              · with_reducible assumption
              · with_reducible apply State.mnestStep_canon
                with_reducible assumption
            · with_reducible apply State.canon_ite
              · with_reducible apply State.setNest_canon
                with_reducible assumption
              · with_reducible apply State.setNest_canon
                with_reducible assumption

theorem State.engineTurn_canon (s : State) (c : CoreId) (ws : s.MemoryCanonical) : (State.engineTurn s c).MemoryCanonical := by
  unfold State.engineTurn
  with_reducible apply State.canon_ite
  · with_reducible assumption
  · extract_lets -underBinder +onlyGivenNames held
    extract_lets -underBinder +onlyGivenNames s1
    have ws1 : s1.MemoryCanonical := by
      unfold s1
      with_reducible apply State.mnestTurn_canon
      with_reducible apply State.countWaits_canon
      with_reducible assumption
    clear_value s1
    split
    · with_reducible apply State.engDo_canon
      with_reducible assumption
    · with_reducible assumption

theorem State.engIf_canon (s : State) (c : CoreId) (ok : Bool) (a : EngAct) (ws : s.MemoryCanonical) : (State.engIf s c ok a).MemoryCanonical := by
  unfold State.engIf
  with_reducible apply State.canon_ite
  · with_reducible apply State.engDo_canon
    with_reducible assumption
  · with_reducible assumption

theorem execCommandStart_canon (core : CoreId) (s : State) (ws : s.MemoryCanonical) : CanonNext (execCommandStart core s) := by
  unfold execCommandStart
  with_reducible apply canonNext_next
  split
  · with_reducible apply State.engIf_canon
    with_reducible assumption
  · with_reducible assumption

theorem execItemPerformed_canon (core : CoreId) (slot : BitVec 4) (s : State) (ws : s.MemoryCanonical) : CanonNext (execItemPerformed core slot s) := by
  unfold execItemPerformed
  with_reducible apply canonNext_next
  split
  · with_reducible apply State.engIf_canon
    with_reducible assumption
  · with_reducible assumption

theorem execCommandComplete_canon (core : CoreId) (slot : BitVec 4) (s : State) (ws : s.MemoryCanonical) : CanonNext (execCommandComplete core slot s) := by
  unfold execCommandComplete
  with_reducible apply canonNext_next
  split
  · with_reducible apply State.canon_ite
    · with_reducible apply State.engIf_canon
      with_reducible assumption
    · with_reducible apply State.engIf_canon
      with_reducible assumption
  · with_reducible assumption

theorem execItemFailure_canon (core : CoreId) (slot : BitVec 4) (s : State) (ws : s.MemoryCanonical) : CanonNext (execItemFailure core slot s) := by
  unfold execItemFailure
  with_reducible apply canonNext_next
  split
  · with_reducible apply State.engIf_canon
    with_reducible assumption
  · with_reducible assumption

theorem execNestStepStart_canon (core : CoreId) (s : State) (ws : s.MemoryCanonical) : CanonNext (execNestStepStart core s) := by
  unfold execNestStepStart
  with_reducible apply canonNext_next
  extract_lets -underBinder +onlyGivenNames x
  split
  · with_reducible apply State.engIf_canon
    with_reducible assumption
  · split
    · with_reducible apply State.engIf_canon
      with_reducible assumption
    · split
      · with_reducible apply State.canon_ite
        · with_reducible apply State.mnestStep_canon
          with_reducible assumption
        · with_reducible assumption
      · with_reducible assumption

theorem execNestStepWatchdog_canon (core : CoreId) (s : State) (ws : s.MemoryCanonical) : CanonNext (execNestStepWatchdog core s) := by
  unfold execNestStepWatchdog
  with_reducible apply canonNext_next
  with_reducible apply State.canon_ite
  · with_reducible assumption
  · extract_lets -underBinder +onlyGivenNames x
    extract_lets -underBinder +onlyGivenNames halt
    extract_lets -underBinder +onlyGivenNames late
    split
    · split
      · with_reducible apply State.setCmd_canon
        with_reducible assumption
      · with_reducible assumption
    · split
      · with_reducible apply State.canon_ite
        · with_reducible apply State.setNest_canon
          with_reducible assumption
        · with_reducible assumption
      · with_reducible assumption

theorem execNestComplete_canon (core : CoreId) (s : State) (ws : s.MemoryCanonical) : CanonNext (execNestComplete core s) := by
  unfold execNestComplete
  with_reducible apply canonNext_next
  split
  · with_reducible apply State.canon_ite
    · with_reducible apply State.mnestEnd_canon
      with_reducible assumption
    · with_reducible assumption
  · split
    · with_reducible apply State.engIf_canon
      with_reducible assumption
    · with_reducible assumption

/-! ### What Machine/Tasks.lean defines -/

theorem State.graphSees_canon (s : State) (n : Nat) (ws : s.MemoryCanonical) : (State.graphSees s n).MemoryCanonical := by
  unfold State.graphSees
  extract_lets -underBinder +onlyGivenNames hit
  with_reducible apply State.canon_mk
  with_reducible assumption

theorem State.offer_canon (s : State) (q : BitVec 6) (p : BitVec 1024) (asid : BitVec 16) (oor : Bool) (ws : s.MemoryCanonical) : (State.offer s q p asid oor).1.MemoryCanonical := by
  unfold State.offer
  split
  · with_reducible apply canon_fst
    with_reducible apply State.canon_mk
    with_reducible assumption
  · with_reducible apply canon_fst
    with_reducible assumption

theorem State.phaseArrive_canon (s : State) (n : Nat) (ws : s.MemoryCanonical) : (State.phaseArrive s n).MemoryCanonical := by
  unfold State.phaseArrive
  extract_lets -underBinder +onlyGivenNames k
  extract_lets -underBinder +onlyGivenNames k1
  with_reducible apply State.canon_mk
  with_reducible assumption

theorem State.completionRecord_canon (s : State) (lid : Nat) (ws : s.MemoryCanonical) : (State.completionRecord s lid).MemoryCanonical := by
  unfold State.completionRecord
  split
  · with_reducible assumption
  · with_reducible apply State.canon_ite
    · with_reducible apply State.reportTask_canon
      with_reducible apply State.modLaunch_canon
      with_reducible assumption
    · with_reducible assumption

theorem State.freeLenders_canon (s : State) (c : CoreId) (g : BitVec 3) (ws : s.MemoryCanonical) : (State.freeLenders s c g).MemoryCanonical := by
  unfold State.freeLenders
  refine canon_foldl _ (fun _ _ _ => ?_) _ _ ?_
  · with_reducible apply State.canon_ite
    · with_reducible apply State.modCore_canon
      with_reducible assumption
    · with_reducible assumption
  · with_reducible assumption

theorem State.taskEnds_canon (s : State) (lid : Nat) (i : Nat) (st : TaskSt) (ws : s.MemoryCanonical) : (State.taskEnds s lid i st).MemoryCanonical := by
  unfold State.taskEnds
  split
  · with_reducible assumption
  · with_reducible apply State.canon_ite
    · with_reducible assumption
    · extract_lets -underBinder +onlyGivenNames ok
      extract_lets -underBinder +onlyGivenNames s0
      have ws0 : s0.MemoryCanonical := by
        unfold s0
        split
        · split
          · extract_lets -underBinder +onlyGivenNames __src
            have w__src : __src.MemoryCanonical := by
              unfold __src
              with_reducible apply State.freeLenders_canon
              with_reducible assumption
            clear_value __src
            with_reducible apply State.canon_mk
            with_reducible assumption
          · with_reducible assumption
        · with_reducible assumption
      clear_value s0
      extract_lets -underBinder +onlyGivenNames s1
      have ws1 : s1.MemoryCanonical := by
        unfold s1
        with_reducible apply State.modLaunch_canon
        with_reducible apply State.modTask_canon
        with_reducible assumption
      clear_value s1
      extract_lets -underBinder +onlyGivenNames s2
      have ws2 : s2.MemoryCanonical := by
        unfold s2
        split
        · with_reducible assumption
        · extract_lets -underBinder +onlyGivenNames k
          extract_lets -underBinder +onlyGivenNames s2
          have ws2 : s2.MemoryCanonical := by
            unfold s2
            with_reducible apply State.canon_mk
            with_reducible assumption
          clear_value s2
          with_reducible apply State.canon_ite
          · with_reducible apply State.graphSees_canon
            with_reducible assumption
          · with_reducible assumption
      clear_value s2
      extract_lets -underBinder +onlyGivenNames s3
      have ws3 : s3.MemoryCanonical := by
        unfold s3
        split
        · with_reducible assumption
        · with_reducible apply State.canon_mk
          with_reducible assumption
      clear_value s3
      extract_lets -underBinder +onlyGivenNames s4
      have ws4 : s4.MemoryCanonical := by
        unfold s4
        split
        · with_reducible assumption
        · with_reducible apply State.phaseArrive_canon
          with_reducible assumption
      clear_value s4
      with_reducible apply State.completionRecord_canon
      with_reducible assumption

theorem State.taskCloses_canon (s : State) (lid : Nat) (i : Nat) (st : TaskSt) (ws : s.MemoryCanonical) : (State.taskCloses s lid i st).MemoryCanonical := by
  unfold State.taskCloses
  with_reducible apply State.canon_ite
  · with_reducible apply State.modTask_canon
    with_reducible assumption
  · with_reducible apply State.taskEnds_canon
    with_reducible assumption

theorem State.taskFails_canon (s : State) (lid : Nat) (i : Nat) (st : TaskSt) (cause : Cause) (core : Option CoreId) (addr : Nat) (pc : Nat) (aux0 : Nat) (aux1 : Nat) (ws : s.MemoryCanonical) : (State.taskFails s lid i st cause core addr pc aux0 aux1).MemoryCanonical := by
  unfold State.taskFails
  with_reducible apply State.taskCloses_canon
  with_reducible apply State.reportTask_canon
  with_reducible assumption

theorem State.vacate_canon (s : State) (c : CoreId) (ws : s.MemoryCanonical) : (State.vacate s c).MemoryCanonical := by
  unfold State.vacate
  with_reducible apply State.modCore_canon
  with_reducible assumption

theorem State.freeCore_canon (s : State) (c : CoreId) (ws : s.MemoryCanonical) : (State.freeCore s c).MemoryCanonical := by
  unfold State.freeCore
  split
  · with_reducible apply State.vacate_canon
    with_reducible apply State.freeLenders_canon
    with_reducible assumption
  · with_reducible apply State.vacate_canon
    with_reducible assumption

theorem State.dropRecvs_canon (s : State) (c : CoreId) (ws : s.MemoryCanonical) : (State.dropRecvs s c).MemoryCanonical := by
  unfold State.dropRecvs
  with_reducible apply State.canon_mk
  with_reducible assumption

theorem State.leaveCore_canon (s : State) (c : CoreId) (lid : Nat) (i : Nat) (st : TaskSt) (ws : s.MemoryCanonical) : (State.leaveCore s c lid i st).MemoryCanonical := by
  unfold State.leaveCore
  with_reducible apply State.canon_ite
  · with_reducible apply State.modCore_canon
    with_reducible assumption
  · with_reducible apply State.freeCore_canon
    with_reducible apply State.dropRecvs_canon
    with_reducible assumption

theorem State.closeTask_canon (s : State) (lid : Nat) (i : Nat) (t : Task) (ws : s.MemoryCanonical) : (State.closeTask s lid i t).MemoryCanonical := by
  unfold State.closeTask
  split
  · with_reducible assumption
  · with_reducible apply State.canon_ite
    · with_reducible assumption
    · extract_lets -underBinder +onlyGivenNames s1
      have ws1 : s1.MemoryCanonical := by
        unfold s1
        with_reducible apply State.taskEnds_canon
        with_reducible assumption
      clear_value s1
      split
      · with_reducible apply State.canon_ite
        · with_reducible apply State.freeCore_canon
          with_reducible apply State.dropRecvs_canon
          with_reducible assumption
        · with_reducible assumption
      · with_reducible assumption

theorem State.closeTasks_canon (s : State) (ws : s.MemoryCanonical) : (State.closeTasks s).MemoryCanonical := by
  unfold State.closeTasks
  refine canon_foldl _ (fun _ _ _ => ?_) _ _ ?_
  · refine canon_foldl _ (fun _ _ _ => ?_) _ _ ?_
    · with_reducible apply State.closeTask_canon
      with_reducible assumption
    · with_reducible assumption
  · with_reducible assumption

theorem State.endOnCore_canon (s : State) (c : CoreId) (st : TaskSt) (cause : Option (Cause × Nat × Nat)) (ws : s.MemoryCanonical) : (State.endOnCore s c st cause).MemoryCanonical := by
  unfold State.endOnCore
  split
  · with_reducible assumption
  · with_reducible apply State.canon_ite
    · with_reducible assumption
    · extract_lets -underBinder +onlyGivenNames x
      extract_lets -underBinder +onlyGivenNames s1
      have ws1 : s1.MemoryCanonical := by
        unfold s1
        with_reducible apply State.modLaunch_canon
        with_reducible assumption
      clear_value s1
      extract_lets -underBinder +onlyGivenNames s2
      have ws2 : s2.MemoryCanonical := by
        unfold s2
        split
        · with_reducible apply State.taskFails_canon
          with_reducible assumption
        · with_reducible apply State.taskCloses_canon
          with_reducible assumption
      clear_value s2
      with_reducible apply State.leaveCore_canon
      with_reducible assumption

theorem launchOffer_canon (d : SReg) (q : BitVec 6) (p : BitVec 1024) (c : CoreId) (s : State) (oor : Bool) (note : State → State) (ws : s.MemoryCanonical) (wnote : ∀ y0, State.MemoryCanonical y0 → (note y0).MemoryCanonical) : (launchOffer d q p c s oor note).Canon := by
  unfold launchOffer
  with_reducible apply Res.canon_ite
  · refine Res.canon_wait fun _ _ => ?_
    with_reducible apply State.send_canon
    with_reducible apply wnote
    with_reducible assumption
  · extract_lets -underBinder +onlyGivenNames r
    with_reducible apply Res.canon_ok
    with_reducible apply Done.one_canon
    unfold r
    with_reducible apply State.offer_canon
    with_reducible assumption

theorem launchSent_canon (d : SReg) (c : CoreId) (s : State) (k : CoreId → State → Res) (ws : s.MemoryCanonical) (wk : ∀ y0 y1, State.MemoryCanonical y1 → (k y0 y1).Canon) : (launchSent d c s k).Canon := by
  unfold launchSent
  split
  · split
    · split
      · with_reducible apply Res.canon_ok
        with_reducible apply Done.one_canon
        with_reducible assumption
      · refine Res.canon_wait fun _ _ => ?_
        with_reducible assumption
    · with_reducible apply wk
      with_reducible assumption
  · with_reducible apply wk
    with_reducible assumption

theorem execLaunch_canon (r : Ring) (d : SReg) (a : SReg) (b : SReg) (s : State) (ws : s.MemoryCanonical) : CanonNext (execLaunch r d a b s) := by
  unfold execLaunch
  with_reducible apply issue_canon
  · with_reducible assumption
  · intro _ _ _
    with_reducible apply launchSent_canon
    · with_reducible assumption
    · intro _ _ _
      extract_lets -underBinder +onlyGivenNames x
      with_reducible apply Res.canon_ite
      · exact Res.canon_fault
      · with_reducible apply ask_canon
        · intro _ _ _
          split
          · with_reducible apply Res.canon_faultIn
            with_reducible assumption
          · with_reducible apply launchOffer_canon
            · with_reducible assumption
            · intro _ _
              with_reducible apply id_canon
              with_reducible assumption
          · with_reducible apply Res.canon_ok
            with_reducible apply Done.plain_canon
            with_reducible assumption
        · with_reducible assumption

theorem execLaunchCr_canon (r : Ring) (d : SReg) (a : SReg) (b : SReg) (s : State) (ws : s.MemoryCanonical) : CanonNext (execLaunchCr r d a b s) := by
  unfold execLaunchCr
  with_reducible apply issue_canon
  · with_reducible assumption
  · intro _ _ _
    with_reducible apply launchSent_canon
    · with_reducible assumption
    · intro _ _ _
      extract_lets -underBinder +onlyGivenNames x
      extract_lets -underBinder +onlyGivenNames as
      with_reducible apply Res.canon_ite
      · exact Res.canon_fault
      · split
        · exact Res.canon_fault
        · extract_lets -underBinder +onlyGivenNames note
          with_reducible apply launchOffer_canon
          · unfold note
            with_reducible apply State.oorNote_canon
            with_reducible assumption
          · intro _ _
            unfold note
            with_reducible apply State.oorNote_canon
            with_reducible assumption

theorem execLaunchAcceptance_canon (core : CoreId) (s : State) (ws : s.MemoryCanonical) : CanonNext (execLaunchAcceptance core s) := by
  unfold execLaunchAcceptance
  with_reducible apply canonNext_next
  split
  · split
    · extract_lets -underBinder +onlyGivenNames r
      with_reducible apply State.modStr_canon
      unfold r
      with_reducible apply State.offer_canon
      with_reducible assumption
    · with_reducible assumption
  · with_reducible assumption

theorem State.dropNext_canon (s : State) (lid : Nat) (i : Nat) (ws : s.MemoryCanonical) : (State.dropNext s lid i).MemoryCanonical := by
  unfold State.dropNext
  with_reducible apply State.canon_mk
  with_reducible assumption

theorem State.cancelTask_canon (s : State) (lid : Nat) (i : Nat) (t : Task) (ws : s.MemoryCanonical) : (State.cancelTask s lid i t).1.MemoryCanonical := by
  unfold State.cancelTask
  split
  · with_reducible apply canon_fst
    with_reducible assumption
  · split
    · with_reducible apply canon_fst
      with_reducible assumption
    · with_reducible apply canon_fst
      with_reducible assumption
    · with_reducible apply canon_fst
      with_reducible assumption
    · split
      · with_reducible apply canon_fst
        with_reducible apply State.modCore_canon
        with_reducible assumption
      · with_reducible apply canon_fst
        with_reducible assumption
    · split
      · with_reducible apply canon_fst
        with_reducible apply State.modCore_canon
        with_reducible assumption
      · with_reducible apply canon_fst
        with_reducible assumption
    · with_reducible apply canon_fst
      with_reducible apply State.taskFails_canon
      with_reducible apply State.dropNext_canon
      with_reducible assumption

theorem State.cancelTasks_canon (s : State) (l : List (Nat × Nat)) (ws : s.MemoryCanonical) : (State.cancelTasks s l).1.MemoryCanonical := by
  unfold State.cancelTasks
  refine canon_foldPair _ (fun _ _ _ => ?_) _ _ ?_
  · split
    split
    · with_reducible apply canon_fst
      with_reducible assumption
    · split
      with_reducible apply canon_fst
      refine canon_of_fst (by assumption) ?_
      with_reducible apply State.cancelTask_canon
      with_reducible assumption
  · with_reducible apply canon_fst
    with_reducible assumption

theorem cancelIssue_canon (lvl : Nat) (d : SReg) (id : Ctx → Word) (tidx : Ctx → Word) (c : CoreId) (s : State) (ws : s.MemoryCanonical) : (cancelIssue lvl d id tidx c s).Canon := by
  unfold cancelIssue
  extract_lets -underBinder +onlyGivenNames land
  split
  · split
    · with_reducible apply Res.canon_ite
      · unfold land
        with_reducible apply Res.canon_ok
        with_reducible apply Done.one_canon
        with_reducible assumption
      · refine Res.canon_wait fun _ _ => ?_
        with_reducible assumption
    · refine Res.canon_wait fun _ _ => ?_
      with_reducible assumption
  · split
    · unfold land
      with_reducible apply Res.canon_ok
      with_reducible apply Done.one_canon
      with_reducible assumption
    · split
      with_reducible apply Res.canon_ite
      · unfold land
        with_reducible apply Res.canon_ok
        with_reducible apply Done.one_canon
        refine canon_of_fst (by assumption) ?_
        with_reducible apply State.cancelTasks_canon
        with_reducible assumption
      · refine Res.canon_wait fun _ _ => ?_
        split
        with_reducible apply State.send_canon
        refine canon_of_fst (by assumption) ?_
        with_reducible apply State.cancelTasks_canon
        with_reducible assumption

theorem execCancelTask_canon (r : Ring) (d : SReg) (a : SReg) (b : SReg) (s : State) (ws : s.MemoryCanonical) : CanonNext (execCancelTask r d a b s) := by
  unfold execCancelTask
  with_reducible apply issue_canon
  · with_reducible assumption
  · intro _ _ _
    with_reducible apply cancelIssue_canon
    with_reducible assumption

theorem execCancelLaunch_canon (r : Ring) (d : SReg) (a : SReg) (s : State) (ws : s.MemoryCanonical) : CanonNext (execCancelLaunch r d a s) := by
  unfold execCancelLaunch
  with_reducible apply issue_canon
  · with_reducible assumption
  · intro _ _ _
    with_reducible apply cancelIssue_canon
    with_reducible assumption

theorem execCancelGraph_canon (r : Ring) (d : SReg) (a : SReg) (s : State) (ws : s.MemoryCanonical) : CanonNext (execCancelGraph r d a s) := by
  unfold execCancelGraph
  with_reducible apply issue_canon
  · with_reducible assumption
  · intro _ _ _
    with_reducible apply cancelIssue_canon
    with_reducible assumption

theorem execCancelPhase_canon (r : Ring) (d : SReg) (a : SReg) (s : State) (ws : s.MemoryCanonical) : CanonNext (execCancelPhase r d a s) := by
  unfold execCancelPhase
  with_reducible apply issue_canon
  · with_reducible assumption
  · intro _ _ _
    with_reducible apply cancelIssue_canon
    with_reducible assumption

theorem execCancelJob_canon (r : Ring) (d : SReg) (a : SReg) (s : State) (ws : s.MemoryCanonical) : CanonNext (execCancelJob r d a s) := by
  unfold execCancelJob
  with_reducible apply issue_canon
  · with_reducible assumption
  · intro _ _ _
    with_reducible apply cancelIssue_canon
    with_reducible assumption

theorem State.cancelEnds_canon (s : State) (c : CoreId) (ws : s.MemoryCanonical) : (State.cancelEnds s c).MemoryCanonical := by
  unfold State.cancelEnds
  extract_lets -underBinder +onlyGivenNames saving
  with_reducible apply State.canon_ite
  · with_reducible apply State.endOnCore_canon
    with_reducible assumption
  · with_reducible assumption

theorem execCancelRelease_canon (core : CoreId) (s : State) (ws : s.MemoryCanonical) : CanonNext (execCancelRelease core s) := by
  unfold execCancelRelease
  with_reducible apply canonNext_next
  with_reducible apply State.cancelEnds_canon
  with_reducible assumption

theorem phaseIssue_canon (d : SReg) (c : CoreId) (s : State) (ws : s.MemoryCanonical) : (phaseIssue d c s).Canon := by
  unfold phaseIssue
  split
  · exact Res.canon_fault
  · extract_lets -underBinder +onlyGivenNames t
    split
    · with_reducible apply Res.canon_ok
      with_reducible apply Done.one_canon
      with_reducible apply State.modStr_canon
      with_reducible assumption
    · refine Res.canon_wait fun _ _ => ?_
      with_reducible assumption
    · refine Res.canon_wait fun _ _ => ?_
      with_reducible apply State.modStr_canon
      with_reducible apply State.modCtx_canon
      with_reducible apply State.phaseArrive_canon
      with_reducible assumption

theorem execPhase_canon (r : Ring) (d : SReg) (s : State) (ws : s.MemoryCanonical) : CanonNext (execPhase r d s) := by
  unfold execPhase
  with_reducible apply issue_canon
  · with_reducible assumption
  · intro _ _ _
    with_reducible apply phaseIssue_canon
    with_reducible assumption

theorem State.phaseReleaseAll_canon (s : State) (n : Nat) (v : BitVec 16) (ws : s.MemoryCanonical) : (State.phaseReleaseAll s n v).MemoryCanonical := by
  unfold State.phaseReleaseAll
  extract_lets -underBinder +onlyGivenNames mine
  extract_lets -underBinder +onlyGivenNames area
  with_reducible apply State.canon_mk
  with_reducible assumption

theorem State.clockStep_canon (s : State) (ws : s.MemoryCanonical) : (State.clockStep s).MemoryCanonical := by
  unfold State.clockStep
  with_reducible apply State.canon_ite
  · with_reducible assumption
  · with_reducible apply State.canon_ite
    · with_reducible apply State.canon_mk
      with_reducible assumption
    · with_reducible apply State.canon_mk
      with_reducible assumption

theorem State.switchSpares_canon (s : State) (n : Nat) (ws : s.MemoryCanonical) : (State.switchSpares s n).MemoryCanonical := by
  unfold State.switchSpares
  extract_lets -underBinder +onlyGivenNames dies
  extract_lets -underBinder +onlyGivenNames go
  with_reducible apply State.canon_mk
  with_reducible assumption

theorem State.phaseBoundary_canon (s : State) (n : Nat) (ws : s.MemoryCanonical) : (State.phaseBoundary s n).MemoryCanonical := by
  unfold State.phaseBoundary
  split
  · with_reducible assumption
  · with_reducible apply State.canon_ite
    · with_reducible assumption
    · extract_lets -underBinder +onlyGivenNames s0
      have ws0 : s0.MemoryCanonical := by
        unfold s0
        with_reducible apply State.canon_mk
        with_reducible assumption
      clear_value s0
      with_reducible apply State.canon_ite
      · with_reducible assumption
      · extract_lets -underBinder +onlyGivenNames s1
        have ws1 : s1.MemoryCanonical := by
          unfold s1
          with_reducible apply State.switchSpares_canon
          with_reducible apply State.canon_ite
          · with_reducible apply State.clockStep_canon
            with_reducible assumption
          · with_reducible assumption
        clear_value s1
        extract_lets -underBinder +onlyGivenNames v
        with_reducible apply State.phaseReleaseAll_canon
        with_reducible apply State.canon_mk
        with_reducible assumption

theorem execPhaseBoundary_canon (ctr : BitVec 8) (s : State) (ws : s.MemoryCanonical) : CanonNext (execPhaseBoundary ctr s) := by
  unfold execPhaseBoundary
  with_reducible apply canonNext_next
  with_reducible apply State.phaseBoundary_canon
  with_reducible assumption

theorem execEstim_canon (r : Ring) (a : SReg) (s : State) (ws : s.MemoryCanonical) : CanonNext (execEstim r a s) := by
  unfold execEstim
  with_reducible apply issue_canon
  · with_reducible assumption
  · intro _ _ _
    with_reducible apply Res.canon_ok
    with_reducible apply Done.plain_canon
    with_reducible apply State.modCtx_canon
    with_reducible assumption

theorem execAgeLevelRise_canon (lid : BitVec 32) (tidx : BitVec 24) (s : State) (ws : s.MemoryCanonical) : CanonNext (execAgeLevelRise lid tidx s) := by
  unfold execAgeLevelRise
  with_reducible apply canonNext_next
  split
  · with_reducible assumption
  · with_reducible apply State.modTask_canon
    with_reducible assumption

theorem State.ageTasks_canon (s : State) (d : Nat) (ws : s.MemoryCanonical) : (State.ageTasks s d).MemoryCanonical := by
  unfold State.ageTasks
  with_reducible apply State.canon_mk
  with_reducible assumption

theorem execGovernorWindow_canon (core : CoreId) (mw : BitVec 32) (s : State) (ws : s.MemoryCanonical) : CanonNext (execGovernorWindow core mw s) := by
  unfold execGovernorWindow
  extract_lets -underBinder +onlyGivenNames us
  with_reducible apply canonNext_next
  with_reducible apply State.canon_ite
  · with_reducible apply State.modCore_canon
    with_reducible assumption
  · with_reducible assumption

theorem State.freeGovernors_canon (s : State) (ws : s.MemoryCanonical) : (State.freeGovernors s).MemoryCanonical := by
  unfold State.freeGovernors
  with_reducible apply State.canon_mk
  with_reducible assumption

theorem State.lateTask_canon (s : State) (lid : Nat) (i : Nat) (ws : s.MemoryCanonical) : (State.lateTask s lid i).MemoryCanonical := by
  unfold State.lateTask
  split
  · with_reducible assumption
  · extract_lets -underBinder +onlyGivenNames st
    with_reducible apply State.canon_ite
    · with_reducible apply State.taskFails_canon
      with_reducible apply State.dropNext_canon
      with_reducible assumption
    · with_reducible assumption

theorem State.lateTasks_canon (s : State) (ws : s.MemoryCanonical) : (State.lateTasks s).MemoryCanonical := by
  unfold State.lateTasks
  refine canon_foldl _ (fun _ _ _ => ?_) _ _ ?_
  · refine canon_foldl _ (fun _ _ _ => ?_) _ _ ?_
    · with_reducible apply State.lateTask_canon
      with_reducible assumption
    · with_reducible assumption
  · with_reducible assumption

theorem execLateStart_canon (lid : BitVec 32) (tidx : BitVec 24) (s : State) (ws : s.MemoryCanonical) : CanonNext (execLateStart lid tidx s) := by
  unfold execLateStart
  with_reducible apply canonNext_next
  with_reducible apply State.lateTask_canon
  with_reducible assumption

/-! ### What Machine/Place.lean defines -/

theorem State.shedRefuses_canon (s : State) (lid : Nat) (i : Nat) (ws : s.MemoryCanonical) : (State.shedRefuses s lid i).MemoryCanonical := by
  unfold State.shedRefuses
  split
  · with_reducible assumption
  · with_reducible apply State.canon_ite
    · with_reducible apply State.taskFails_canon
      with_reducible assumption
    · with_reducible assumption

theorem State.writeRecord_canon (s : State) (core : CoreId) (lid : BitVec 32) (tidx : BitVec 24) (ws : s.MemoryCanonical) : (State.writeRecord s core lid tidx).MemoryCanonical := by
  unfold State.writeRecord
  split
  · with_reducible assumption
  · extract_lets -underBinder +onlyGivenNames b
    with_reducible apply State.modTask_canon
    with_reducible apply State.modCore_canon
    with_reducible assumption

theorem execPlacement_canon (core : CoreId) (lid : BitVec 32) (tidx : BitVec 24) (budget : BitVec 32) (s : State) (ws : s.MemoryCanonical) : CanonNext (execPlacement core lid tidx budget s) := by
  unfold execPlacement
  with_reducible apply canonNext_next
  with_reducible apply State.canon_ite
  · with_reducible apply State.writeRecord_canon
    with_reducible assumption
  · with_reducible apply State.shedRefuses_canon
    with_reducible assumption

theorem execPreload_canon (core : CoreId) (s : State) (ws : s.MemoryCanonical) : CanonNext (execPreload core s) := by
  unfold execPreload
  with_reducible apply canonNext_next
  with_reducible apply State.modCore_canon
  with_reducible assumption

theorem State.withdraw_canon (s : State) (c : CoreId) (ws : s.MemoryCanonical) : (State.withdraw s c).MemoryCanonical := by
  unfold State.withdraw
  split
  · with_reducible assumption
  · with_reducible apply State.modTask_canon
    with_reducible apply State.modCore_canon
    with_reducible assumption

theorem execWithdrawal_canon (core : CoreId) (s : State) (ws : s.MemoryCanonical) : CanonNext (execWithdrawal core s) := by
  unfold execWithdrawal
  with_reducible apply canonNext_next
  with_reducible apply State.canon_ite
  · with_reducible apply State.withdraw_canon
    with_reducible assumption
  · with_reducible assumption

theorem execParkedRecordWrite_canon (die : BitVec 2) (i : BitVec 10) (core : CoreId) (rec : BitVec 128) (s : State) (ws : s.MemoryCanonical) : CanonNext (execParkedRecordWrite die i core rec s) := by
  unfold execParkedRecordWrite
  extract_lets -underBinder +onlyGivenNames key
  extract_lets -underBinder +onlyGivenNames b
  with_reducible apply canonNext_next
  with_reducible apply State.canon_ite
  · with_reducible assumption
  · with_reducible apply State.canon_ite
    · with_reducible apply State.canon_ite
      · with_reducible apply State.canon_mk
        with_reducible assumption
      · with_reducible assumption
    · with_reducible apply State.canon_mk
      with_reducible assumption

theorem State.moveParked_canon (s : State) (key : Nat) (ws : s.MemoryCanonical) : (State.moveParked s key).MemoryCanonical := by
  unfold State.moveParked
  extract_lets -underBinder +onlyGivenNames go
  have wgo : go.MemoryCanonical := by
    unfold go
    with_reducible apply State.canon_mk
    with_reducible assumption
  clear_value go
  split
  · with_reducible assumption
  · extract_lets -underBinder +onlyGivenNames waits
    with_reducible apply State.canon_ite
    · with_reducible apply State.canon_mk
      with_reducible assumption
    · with_reducible apply State.canon_ite
      · with_reducible apply State.modTask_canon
        with_reducible apply State.modCore_canon
        with_reducible apply State.canon_mk
        with_reducible assumption
      · with_reducible assumption

theorem State.movesParked_canon (s : State) (l : List Nat) (ws : s.MemoryCanonical) : (State.movesParked s l).MemoryCanonical := by
  unfold State.movesParked
  refine canon_foldl _ (fun _ _ _ => ?_) _ _ ?_
  · with_reducible apply State.moveParked_canon
    with_reducible assumption
  · with_reducible assumption

theorem State.bind_canon (s : State) (c : CoreId) (l : Launch) (b : BindRec) (ws : s.MemoryCanonical) : (State.bind s c l b).MemoryCanonical := by
  unfold State.bind
  extract_lets -underBinder +onlyGivenNames g
  split
  extract_lets -underBinder +onlyGivenNames s1
  have ws1 : s1.MemoryCanonical := by
    unfold s1
    with_reducible apply State.modCore_canon
    with_reducible assumption
  clear_value s1
  split
  · with_reducible assumption
  · with_reducible apply State.takeFault_canon
    with_reducible assumption

theorem State.commit_canon (s : State) (c : CoreId) (ws : s.MemoryCanonical) : (State.commit s c).MemoryCanonical := by
  unfold State.commit
  split
  · with_reducible assumption
  · split
    · with_reducible assumption
    · extract_lets -underBinder +onlyGivenNames t
      extract_lets -underBinder +onlyGivenNames area
      extract_lets -underBinder +onlyGivenNames s1
      have ws1 : s1.MemoryCanonical := by
        unfold s1
        with_reducible apply State.modTask_canon
        with_reducible apply State.modCore_canon
        with_reducible assumption
      clear_value s1
      extract_lets -underBinder +onlyGivenNames s1
      have ws1 : s1.MemoryCanonical := by
        unfold s1
        with_reducible apply State.modLaunch_canon
        with_reducible assumption
      clear_value s1
      extract_lets -underBinder +onlyGivenNames s2
      have ws2 : s2.MemoryCanonical := by
        unfold s2
        refine canon_foldl _ (fun _ _ _ => ?_) _ _ ?_
        · with_reducible apply State.modCore_canon
          with_reducible assumption
        · with_reducible assumption
      clear_value s2
      with_reducible apply State.canon_ite
      · extract_lets -underBinder +onlyGivenNames slot
        with_reducible apply State.modCore_canon
        with_reducible assumption
      · with_reducible apply State.bind_canon
        with_reducible assumption

theorem execBindCommit_canon (core : CoreId) (s : State) (ws : s.MemoryCanonical) : CanonNext (execBindCommit core s) := by
  unfold execBindCommit
  with_reducible apply canonNext_next
  with_reducible apply State.canon_ite
  · with_reducible apply State.commit_canon
    with_reducible assumption
  · with_reducible assumption

theorem State.taskEnd_canon (s : State) (c : CoreId) (ws : s.MemoryCanonical) : (State.taskEnd s c).MemoryCanonical := by
  unfold State.taskEnd
  with_reducible apply State.canon_ite
  · split
    · with_reducible apply State.endOnCore_canon
      with_reducible assumption
    · with_reducible apply State.endOnCore_canon
      with_reducible assumption
  · with_reducible assumption

theorem execTaskEnd_canon (core : CoreId) (s : State) (ws : s.MemoryCanonical) : CanonNext (execTaskEnd core s) := by
  unfold execTaskEnd
  with_reducible apply canonNext_next
  with_reducible apply State.taskEnd_canon
  with_reducible assumption

/-! ### What Machine/Preempt.lean defines -/

theorem State.settle_canon (s : State) (c : CoreId) (ws : s.MemoryCanonical) : (State.settle s c).MemoryCanonical := by
  unfold State.settle
  split
  · with_reducible apply State.canon_ite
    · with_reducible apply State.enterHandler_canon
      with_reducible apply State.modCore_canon
      with_reducible assumption
    · with_reducible assumption
  · with_reducible assumption

theorem execHandlerEntry_canon (core : CoreId) (s : State) (ws : s.MemoryCanonical) : CanonNext (execHandlerEntry core s) := by
  unfold execHandlerEntry
  with_reducible apply canonNext_next
  with_reducible apply State.settle_canon
  with_reducible assumption

theorem State.frozenReport_canon (s : State) (c : CoreId) (ws : s.MemoryCanonical) : (State.frozenReport s c).MemoryCanonical := by
  unfold State.frozenReport
  split
  · with_reducible assumption
  · extract_lets -underBinder +onlyGivenNames x
    with_reducible apply State.canon_ite
    · with_reducible apply State.canon_ite
      · with_reducible apply State.endOnCore_canon
        with_reducible assumption
      · with_reducible apply State.endOnCore_canon
        with_reducible assumption
    · with_reducible assumption

theorem execFrozenTaskReport_canon (core : CoreId) (s : State) (ws : s.MemoryCanonical) : CanonNext (execFrozenTaskReport core s) := by
  unfold execFrozenTaskReport
  with_reducible apply canonNext_next
  with_reducible apply State.frozenReport_canon
  with_reducible assumption

theorem State.taskRecord_canon (s : State) (c : CoreId) (typ : Nat) (cause : Nat) (kind : Nat) (addr : Nat) (aux0 : Nat) (aux1 : Nat) (ws : s.MemoryCanonical) : (State.taskRecord s c typ cause kind addr aux0 aux1).MemoryCanonical := by
  unfold State.taskRecord
  split
  · with_reducible apply State.reportTask_canon
    with_reducible assumption
  · with_reducible assumption

theorem State.startSave_canon (s : State) (c : CoreId) (why : SaveWhy) (dest : Option (SReg × Ring)) (ws : s.MemoryCanonical) : (State.startSave s c why dest).MemoryCanonical := by
  unfold State.startSave
  split
  · with_reducible assumption
  · with_reducible apply State.modCore_canon
    with_reducible assumption

theorem State.saveSettle_canon (s : State) (c : CoreId) (ws : s.MemoryCanonical) : (State.saveSettle s c).MemoryCanonical := by
  unfold State.saveSettle
  split
  · with_reducible assumption
  · with_reducible apply State.canon_ite
    · with_reducible apply State.modCore_canon
      with_reducible assumption
    · with_reducible assumption

theorem execCheckpointSettle_canon (core : CoreId) (s : State) (ws : s.MemoryCanonical) : CanonNext (execCheckpointSettle core s) := by
  unfold execCheckpointSettle
  with_reducible apply canonNext_next
  with_reducible apply State.saveSettle_canon
  with_reducible assumption

theorem State.slotWrite_canon (s : State) (asid : BitVec 16) (phys : Bool) (addr : Nat) (bs : List Byte) (ws : s.MemoryCanonical) : ExcCanon (State.slotWrite s asid phys addr bs) := by
  unfold State.slotWrite
  with_reducible apply ExcCanon.at_ite
  · with_reducible apply ExcCanon.at_ok
    with_reducible apply State.writtenOver_canon
    with_reducible apply State.memWrite_canon
    with_reducible assumption
  · split
    · exact ExcCanon.at_error
    · with_reducible apply ExcCanon.at_ite
      · exact ExcCanon.at_error
      · with_reducible apply ExcCanon.at_ok
        with_reducible apply State.writtenOver_canon
        with_reducible apply State.writePieces_canon
        with_reducible assumption

theorem State.taskSaved_canon (s : State) (c : CoreId) (ws : s.MemoryCanonical) : (State.taskSaved s c).MemoryCanonical := by
  unfold State.taskSaved
  split
  · with_reducible assumption
  · with_reducible apply State.modTask_canon
    with_reducible apply State.modLaunch_canon
    with_reducible assumption

theorem State.modArea_canon (s : State) (c : CoreId) (f : SaveArea → SaveArea) (ws : s.MemoryCanonical) : (State.modArea s c f).MemoryCanonical := by
  unfold State.modArea
  split
  · with_reducible assumption
  · with_reducible apply State.modTask_canon
    with_reducible assumption

theorem State.slotLatest_canon (s : State) (c : CoreId) (v : Save) (ws : s.MemoryCanonical) : (State.slotLatest s c v).MemoryCanonical := by
  unfold State.slotLatest
  extract_lets -underBinder +onlyGivenNames z
  with_reducible apply State.modArea_canon
  with_reducible assumption

theorem State.savedRecord_canon (s : State) (c : CoreId) (v : Save) (ws : s.MemoryCanonical) : (State.savedRecord s c v).MemoryCanonical := by
  unfold State.savedRecord
  split
  · with_reducible assumption
  · with_reducible apply State.taskRecord_canon
    with_reducible assumption

theorem State.ckptDone_canon (s : State) (c : CoreId) (v : Save) (n : Nat) (ws : s.MemoryCanonical) : (State.ckptDone s c v n).MemoryCanonical := by
  unfold State.ckptDone
  with_reducible apply State.modCore_canon
  with_reducible assumption

theorem State.saveRelease_canon (s : State) (c : CoreId) (v : Save) (ws : s.MemoryCanonical) : (State.saveRelease s c v).MemoryCanonical := by
  unfold State.saveRelease
  with_reducible apply State.canon_ite
  · extract_lets -underBinder +onlyGivenNames site
    extract_lets -underBinder +onlyGivenNames z
    extract_lets -underBinder +onlyGivenNames s1
    have ws1 : s1.MemoryCanonical := by
      unfold s1
      with_reducible apply State.savedRecord_canon
      with_reducible apply State.modArea_canon
      with_reducible assumption
    clear_value s1
    extract_lets -underBinder +onlyGivenNames s2
    have ws2 : s2.MemoryCanonical := by
      unfold s2
      with_reducible apply State.canon_mk
      with_reducible assumption
    clear_value s2
    with_reducible apply State.canon_ite
    · with_reducible apply State.modCore_canon
      with_reducible assumption
    · with_reducible apply State.vacate_canon
      with_reducible apply State.taskSaved_canon
      with_reducible assumption
  · extract_lets -underBinder +onlyGivenNames s1
    have ws1 : s1.MemoryCanonical := by
      unfold s1
      with_reducible apply State.savedRecord_canon
      with_reducible apply State.slotLatest_canon
      with_reducible assumption
    clear_value s1
    with_reducible apply State.canon_ite
    · with_reducible apply State.ckptDone_canon
      with_reducible assumption
    · with_reducible apply State.canon_ite
      · with_reducible apply State.modCore_canon
        with_reducible assumption
      · with_reducible apply State.freeCore_canon
        with_reducible apply State.taskSaved_canon
        with_reducible assumption

theorem State.saveStep_canon (s : State) (c : CoreId) (ws : s.MemoryCanonical) : (State.saveStep s c).MemoryCanonical := by
  unfold State.saveStep
  split
  · with_reducible assumption
  · with_reducible apply State.canon_ite
    · with_reducible assumption
    · with_reducible apply State.canon_ite
      · with_reducible apply State.saveRelease_canon
        with_reducible assumption
      · extract_lets -underBinder +onlyGivenNames p
        split
        · with_reducible apply State.modCore_canon
          refine canon_of_ok (by assumption) ?_
          with_reducible apply State.slotWrite_canon
          with_reducible assumption
        · with_reducible apply State.taskRecord_canon
          with_reducible apply State.modCore_canon
          with_reducible assumption

theorem execCheckpointWrite_canon (core : CoreId) (s : State) (ws : s.MemoryCanonical) : CanonNext (execCheckpointWrite core s) := by
  unfold execCheckpointWrite
  with_reducible apply canonNext_next
  split
  · with_reducible apply State.canon_ite
    · with_reducible assumption
    · with_reducible apply State.saveStep_canon
      with_reducible assumption
  · with_reducible assumption

theorem execCheckpointRelease_canon (core : CoreId) (s : State) (ws : s.MemoryCanonical) : CanonNext (execCheckpointRelease core s) := by
  unfold execCheckpointRelease
  with_reducible apply canonNext_next
  split
  · with_reducible apply State.canon_ite
    · with_reducible apply State.saveStep_canon
      with_reducible assumption
    · with_reducible assumption
  · with_reducible assumption

theorem State.saveAbort_canon (s : State) (c : CoreId) (v : Save) (ws : s.MemoryCanonical) : (State.saveAbort s c v).MemoryCanonical := by
  unfold State.saveAbort
  with_reducible apply State.canon_ite
  · with_reducible apply State.endOnCore_canon
    with_reducible assumption
  · with_reducible apply State.endOnCore_canon
    with_reducible assumption

theorem State.saveEmergency_canon (s : State) (c : CoreId) (v : Save) (ws : s.MemoryCanonical) : (State.saveEmergency s c v).MemoryCanonical := by
  unfold State.saveEmergency
  extract_lets -underBinder +onlyGivenNames site
  with_reducible apply State.canon_ite
  · with_reducible apply State.saveAbort_canon
    with_reducible assumption
  · with_reducible apply State.taskRecord_canon
    with_reducible apply State.modCore_canon
    with_reducible assumption

theorem State.hangCheck_canon (s : State) (c : CoreId) (ws : s.MemoryCanonical) : (State.hangCheck s c).MemoryCanonical := by
  unfold State.hangCheck
  split
  · with_reducible assumption
  · with_reducible apply State.canon_ite
    · with_reducible apply State.canon_ite
      · with_reducible apply State.ckptDone_canon
        with_reducible assumption
      · with_reducible apply State.saveEmergency_canon
        with_reducible assumption
    · with_reducible assumption

theorem execHangWatchdog_canon (core : CoreId) (s : State) (ws : s.MemoryCanonical) : CanonNext (execHangWatchdog core s) := by
  unfold execHangWatchdog
  with_reducible apply canonNext_next
  with_reducible apply State.hangCheck_canon
  with_reducible assumption

theorem State.slotWrites_canon (s : State) (asid : BitVec 16) (l : List (Nat × List Byte)) (ws : s.MemoryCanonical) :
    OptCanon (s.slotWrites asid l) := by
  induction l generalizing s with
  | nil => exact OptCanon.at_some ws
  | cons p t ih =>
    unfold State.slotWrites
    split
    · exact OptCanon.at_none
    · with_reducible apply ih
      refine canon_of_ok (by assumption) ?_
      with_reducible apply State.slotWrite_canon
      with_reducible assumption


theorem State.emergCopy_canon (s : State) (lid : Nat) (i : Nat) (ws : s.MemoryCanonical) : (State.emergCopy s lid i).MemoryCanonical := by
  unfold State.emergCopy
  split
  · with_reducible assumption
  · split
    · with_reducible assumption
    · split
      · with_reducible assumption
      · with_reducible apply State.canon_ite
        · with_reducible assumption
        · split
          · with_reducible apply State.taskCloses_canon
            with_reducible apply State.reportTask_canon
            with_reducible assumption
          · split
            · with_reducible assumption
            · extract_lets -underBinder +onlyGivenNames s2
              have ws2 : s2.MemoryCanonical := by
                unfold s2
                with_reducible apply State.freeLenders_canon
                refine canon_of_some (by assumption) ?_
                with_reducible apply State.slotWrites_canon
                with_reducible assumption
              clear_value s2
              with_reducible apply State.modTask_canon
              with_reducible apply State.canon_mk
              with_reducible assumption

theorem execEmergencyCopy_canon (lid : BitVec 32) (tidx : BitVec 24) (s : State) (ws : s.MemoryCanonical) : CanonNext (execEmergencyCopy lid tidx s) := by
  unfold execEmergencyCopy
  with_reducible apply canonNext_next
  with_reducible apply State.emergCopy_canon
  with_reducible assumption

theorem State.putSect_canon (s : State) (c : CoreId) (j : Nat) (off : Nat) (bs : List Byte) (ws : s.MemoryCanonical) : (State.putSect s c j off bs).MemoryCanonical := by
  unfold State.putSect
  with_reducible apply State.canon_ite
  · with_reducible assumption
  · with_reducible apply State.canon_ite
    · with_reducible apply State.modCore_canon
      with_reducible assumption
    · extract_lets -underBinder +onlyGivenNames n
      with_reducible apply State.modCore_canon
      with_reducible assumption

theorem State.putBad_canon (s : State) (c : CoreId) (z : Saved) (ws : s.MemoryCanonical) : (State.putBad s c z).MemoryCanonical := by
  unfold State.putBad
  extract_lets -underBinder +onlyGivenNames s1
  have ws1 : s1.MemoryCanonical := by
    unfold s1
    with_reducible apply State.modCore_canon
    with_reducible assumption
  clear_value s1
  refine canon_foldl _ (fun _ _ _ => ?_) _ _ ?_
  · with_reducible apply State.canon_ite
    · with_reducible apply State.modCore_canon
      with_reducible assumption
    · with_reducible assumption
  · with_reducible assumption

theorem State.restoreFail_canon (s : State) (c : CoreId) (k : Cause) (a : Nat) (ws : s.MemoryCanonical) : (State.restoreFail s c k a).MemoryCanonical := by
  unfold State.restoreFail
  split
  · with_reducible assumption
  · with_reducible apply State.leaveCore_canon
    with_reducible apply State.taskCloses_canon
    with_reducible apply State.modLaunch_canon
    with_reducible apply State.taskRecord_canon
    with_reducible assumption

theorem State.restoreDone_canon (s : State) (c : CoreId) (v : Restore) (a : SaveArea) (z : Saved) (ws : s.MemoryCanonical) : (State.restoreDone s c v a z).MemoryCanonical := by
  unfold State.restoreDone
  extract_lets -underBinder +onlyGivenNames s1
  have ws1 : s1.MemoryCanonical := by
    unfold s1
    with_reducible apply State.modCore_canon
    with_reducible apply State.putBad_canon
    with_reducible assumption
  clear_value s1
  with_reducible apply State.canon_ite
  · with_reducible assumption
  · with_reducible apply State.taskRecord_canon
    with_reducible assumption

theorem State.restoreStep_canon (s : State) (c : CoreId) (ws : s.MemoryCanonical) : (State.restoreStep s c).MemoryCanonical := by
  unfold State.restoreStep
  split
  · with_reducible apply State.canon_ite
    · with_reducible assumption
    · split
      · with_reducible assumption
      · extract_lets -underBinder +onlyGivenNames l
        with_reducible apply State.canon_ite
        · with_reducible apply State.restoreDone_canon
          with_reducible assumption
        · extract_lets -underBinder +onlyGivenNames j
          split
          extract_lets -underBinder +onlyGivenNames at'
          with_reducible apply State.canon_ite
          · with_reducible apply State.modCore_canon
            with_reducible assumption
          · split
            · with_reducible apply State.modCore_canon
              with_reducible apply State.putSect_canon
              with_reducible assumption
            · with_reducible apply State.canon_ite
              · with_reducible apply State.taskRecord_canon
                with_reducible apply State.modCore_canon
                with_reducible assumption
              · with_reducible apply State.restoreFail_canon
                with_reducible assumption
  · with_reducible assumption

theorem execRestore_canon (core : CoreId) (s : State) (ws : s.MemoryCanonical) : CanonNext (execRestore core s) := by
  unfold execRestore
  with_reducible apply canonNext_next
  with_reducible apply State.restoreStep_canon
  with_reducible assumption

theorem execSaveFaultService_canon (core : CoreId) (served : Bool) (s : State) (ws : s.MemoryCanonical) : CanonNext (execSaveFaultService core served s) := by
  unfold execSaveFaultService
  with_reducible apply canonNext_next
  with_reducible apply State.canon_ite
  · with_reducible assumption
  · split
    · with_reducible apply State.canon_ite
      · with_reducible assumption
      · with_reducible apply State.canon_ite
        · with_reducible apply State.modCore_canon
          with_reducible assumption
        · with_reducible apply State.canon_ite
          · with_reducible assumption
          · with_reducible apply State.saveEmergency_canon
            with_reducible assumption
    · split
      · with_reducible assumption
      · with_reducible apply State.canon_ite
        · with_reducible apply State.modCore_canon
          with_reducible assumption
        · with_reducible apply State.restoreFail_canon
          with_reducible assumption
    · with_reducible assumption

theorem execPreemptionChoice_canon (core : CoreId) (lid : BitVec 32) (tidx : BitVec 24) (s : State) (ws : s.MemoryCanonical) : CanonNext (execPreemptionChoice core lid tidx s) := by
  unfold execPreemptionChoice
  with_reducible apply canonNext_next
  with_reducible apply State.canon_ite
  · extract_lets -underBinder +onlyGivenNames p
    extract_lets -underBinder +onlyGivenNames kind
    extract_lets -underBinder +onlyGivenNames s1
    have ws1 : s1.MemoryCanonical := by
      unfold s1
      with_reducible apply State.taskRecord_canon
      with_reducible assumption
    clear_value s1
    clear_value kind
    split
    · extract_lets -underBinder +onlyGivenNames s2
      have ws2 : s2.MemoryCanonical := by
        unfold s2
        with_reducible apply State.withdraw_canon
        with_reducible assumption
      clear_value s2
      with_reducible apply State.canon_ite
      · with_reducible apply State.writeRecord_canon
        with_reducible assumption
      · with_reducible assumption
    · with_reducible apply State.startSave_canon
      with_reducible assumption
    · with_reducible apply State.modCore_canon
      with_reducible apply State.withdraw_canon
      with_reducible assumption
  · with_reducible assumption

theorem State.killEnds_canon (s : State) (c : CoreId) (ws : s.MemoryCanonical) : (State.killEnds s c).MemoryCanonical := by
  unfold State.killEnds
  extract_lets -underBinder +onlyGivenNames k
  with_reducible apply State.canon_ite
  · with_reducible assumption
  · split
    · extract_lets -underBinder +onlyGivenNames s1
      have ws1 : s1.MemoryCanonical := by
        unfold s1
        with_reducible apply State.modTask_canon
        with_reducible assumption
      clear_value s1
      extract_lets -underBinder +onlyGivenNames n
      with_reducible apply State.freeCore_canon
      with_reducible apply State.dropRecvs_canon
      with_reducible apply State.taskRecord_canon
      with_reducible apply State.modLaunch_canon
      with_reducible assumption
    · with_reducible apply State.endOnCore_canon
      with_reducible assumption
    · with_reducible assumption

theorem execKillAndRerun_canon (core : CoreId) (s : State) (ws : s.MemoryCanonical) : CanonNext (execKillAndRerun core s) := by
  unfold execKillAndRerun
  with_reducible apply canonNext_next
  with_reducible apply State.canon_ite
  · with_reducible apply State.killEnds_canon
    with_reducible assumption
  · with_reducible assumption

theorem State.budgetCheck_canon (s : State) (c : CoreId) (ws : s.MemoryCanonical) : (State.budgetCheck s c).MemoryCanonical := by
  unfold State.budgetCheck
  with_reducible apply State.canon_ite
  · extract_lets -underBinder +onlyGivenNames s1
    have ws1 : s1.MemoryCanonical := by
      unfold s1
      with_reducible apply State.withdraw_canon
      with_reducible assumption
    clear_value s1
    with_reducible apply State.canon_ite
    · with_reducible apply State.startSave_canon
      with_reducible assumption
    · with_reducible apply State.canon_ite
      · with_reducible apply State.modCore_canon
        with_reducible assumption
      · with_reducible apply State.modCore_canon
        with_reducible assumption
  · with_reducible assumption

theorem execBudgetOverrun_canon (core : CoreId) (s : State) (ws : s.MemoryCanonical) : CanonNext (execBudgetOverrun core s) := by
  unfold execBudgetOverrun
  with_reducible apply canonNext_next
  with_reducible apply State.canon_ite
  · with_reducible apply State.killEnds_canon
    with_reducible assumption
  · with_reducible apply State.budgetCheck_canon
    with_reducible assumption

theorem ckptIssue_canon (r : Ring) (d : SReg) (c : CoreId) (s : State) (ws : s.MemoryCanonical) : (ckptIssue r d c s).Canon := by
  unfold ckptIssue
  extract_lets -underBinder +onlyGivenNames land
  split
  · split
    · unfold land
      with_reducible apply Res.canon_ok
      with_reducible apply Done.one_canon
      with_reducible apply State.modCore_canon
      with_reducible assumption
    · with_reducible apply Res.canon_ite
      · unfold land
        with_reducible apply Res.canon_ok
        with_reducible apply Done.one_canon
        with_reducible assumption
      · refine Res.canon_wait fun _ _ => ?_
        with_reducible assumption
  · with_reducible apply Res.canon_ite
    · unfold land
      with_reducible apply Res.canon_ok
      with_reducible apply Done.one_canon
      with_reducible assumption
    · refine Res.canon_wait fun _ _ => ?_
      with_reducible apply State.startSave_canon
      with_reducible assumption

theorem execCkpt_canon (r : Ring) (d : SReg) (s : State) (ws : s.MemoryCanonical) : CanonNext (execCkpt r d s) := by
  unfold execCkpt
  with_reducible apply issue_canon
  · with_reducible assumption
  · intro _ _ _
    with_reducible apply ckptIssue_canon
    with_reducible assumption

theorem execCoreSelfCheckFailure_canon (core : CoreId) (s : State) (ws : s.MemoryCanonical) : CanonNext (execCoreSelfCheckFailure core s) := by
  unfold execCoreSelfCheckFailure
  with_reducible apply canonNext_next
  extract_lets -underBinder +onlyGivenNames s1
  have ws1 : s1.MemoryCanonical := by
    unfold s1
    with_reducible apply State.modCore_canon
    with_reducible assumption
  clear_value s1
  extract_lets -underBinder +onlyGivenNames k
  with_reducible apply State.canon_ite
  · with_reducible apply State.freezeCore_canon
    with_reducible assumption
  · with_reducible assumption

theorem State.takeSpare_canon (s : State) (c : CoreId) (n : Nat) (ws : s.MemoryCanonical) : (State.takeSpare s c n).MemoryCanonical := by
  unfold State.takeSpare
  with_reducible apply State.modCore_canon
  with_reducible apply State.canon_mk
  with_reducible assumption

theorem State.replaceIdle_canon (s : State) (c : CoreId) (ws : s.MemoryCanonical) : (State.replaceIdle s c).MemoryCanonical := by
  unfold State.replaceIdle
  split
  · with_reducible assumption
  · with_reducible assumption
  · with_reducible apply State.takeSpare_canon
    with_reducible apply State.setCore_canon
    with_reducible apply State.withdraw_canon
    with_reducible assumption

theorem State.saveWhole_canon (s : State) (c : CoreId) (ws : s.MemoryCanonical) : OptCanon (State.saveWhole s c) := by
  unfold State.saveWhole
  split
  · exact OptCanon.at_none
  · with_reducible apply OptCanon.at_ite
    · exact OptCanon.at_none
    · extract_lets -underBinder +onlyGivenNames v
      extract_lets -underBinder +onlyGivenNames v
      with_reducible apply OptCanon.at_some
      with_reducible apply State.modCore_canon
      with_reducible assumption

theorem State.backToLatest_canon (s : State) (c : CoreId) (ws : s.MemoryCanonical) : (State.backToLatest s c).MemoryCanonical := by
  unfold State.backToLatest
  with_reducible apply State.freeCore_canon
  with_reducible apply State.taskSaved_canon
  with_reducible assumption

theorem State.recoverSaved_canon (s : State) (c : CoreId) (ws : s.MemoryCanonical) : (State.recoverSaved s c).MemoryCanonical := by
  unfold State.recoverSaved
  split
  · refine canon_of_some (by assumption) ?_
    with_reducible apply OptCanon.at_ite
    · with_reducible apply State.saveWhole_canon
      with_reducible assumption
    · exact OptCanon.at_none
  · with_reducible apply State.canon_ite
    · with_reducible apply State.backToLatest_canon
      with_reducible assumption
    · with_reducible apply State.endOnCore_canon
      with_reducible assumption

theorem State.regrownRecord_canon (s : State) (c : CoreId) (fromCkpt : Bool) (ws : s.MemoryCanonical) : (State.regrownRecord s c fromCkpt).MemoryCanonical := by
  unfold State.regrownRecord
  extract_lets -underBinder +onlyGivenNames s1
  have ws1 : s1.MemoryCanonical := by
    unfold s1
    with_reducible apply State.taskRecord_canon
    with_reducible assumption
  clear_value s1
  split
  · with_reducible apply State.modTask_canon
    with_reducible assumption
  · with_reducible assumption

theorem State.regrowTask_canon (s : State) (c : CoreId) (n : Nat) (ws : s.MemoryCanonical) : (State.regrowTask s c n).MemoryCanonical := by
  unfold State.regrowTask
  with_reducible apply State.canon_ite
  · with_reducible apply State.regrownRecord_canon
    with_reducible apply State.modCore_canon
    with_reducible apply State.takeSpare_canon
    with_reducible assumption
  · split
    · with_reducible apply State.regrownRecord_canon
      with_reducible apply State.modCore_canon
      with_reducible apply State.takeSpare_canon
      with_reducible assumption
    · with_reducible apply State.replaceIdle_canon
      with_reducible apply State.endOnCore_canon
      with_reducible assumption

theorem State.regrow_canon (s : State) (c : CoreId) (ws : s.MemoryCanonical) : (State.regrow s c).MemoryCanonical := by
  unfold State.regrow
  extract_lets -underBinder +onlyGivenNames k
  split
  · with_reducible apply State.canon_ite
    · with_reducible apply State.replaceIdle_canon
      with_reducible assumption
    · with_reducible assumption
  · with_reducible apply State.canon_ite
    · with_reducible apply State.canon_ite
      · split
        · with_reducible apply State.regrowTask_canon
          with_reducible assumption
        · with_reducible apply State.recoverSaved_canon
          with_reducible assumption
      · with_reducible apply State.recoverSaved_canon
        with_reducible assumption
    · with_reducible assumption
  · with_reducible assumption

theorem execRegrow_canon (core : CoreId) (s : State) (ws : s.MemoryCanonical) : CanonNext (execRegrow core s) := by
  unfold execRegrow
  with_reducible apply canonNext_next
  with_reducible apply State.regrow_canon
  with_reducible assumption

theorem execPackageFreeze_canon (s : State) (ws : s.MemoryCanonical) : CanonNext (execPackageFreeze s) := by
  unfold execPackageFreeze
  with_reducible apply canonNext_next
  with_reducible apply State.canon_mk
  with_reducible assumption

theorem execFreezeResume_canon (s : State) (ws : s.MemoryCanonical) : CanonNext (execFreezeResume s) := by
  unfold execFreezeResume
  with_reducible apply canonNext_next
  with_reducible apply State.canon_ite
  · with_reducible apply State.canon_mk
    with_reducible assumption
  · with_reducible assumption

/-! ### What Machine/Fabric.lean defines -/

theorem clPost_canon (d : SReg) (a : Word) (n : Nat) (bs : List Byte) (c : CoreId) (s : State) (ws : s.MemoryCanonical) : (clPost d a n bs c s).Canon := by
  unfold clPost
  extract_lets -underBinder +onlyGivenNames recs
  split
  · with_reducible apply Res.canon_faultIn
    with_reducible assumption
  · split
    extract_lets -underBinder +onlyGivenNames h
    extract_lets -underBinder +onlyGivenNames t
    extract_lets -underBinder +onlyGivenNames s1
    have ws1 : s1.MemoryCanonical := by
      unfold s1
      with_reducible apply State.modCtx_canon
      with_reducible apply State.canon_mk
      with_reducible assumption
    clear_value s1
    with_reducible apply Res.canon_ok
    with_reducible apply Done.one_canon
    with_reducible assumption

theorem clstepIssue_canon (d : SReg) (a : SReg) (b : SReg) (c : CoreId) (s : State) (ws : s.MemoryCanonical) : (clstepIssue d a b c s).Canon := by
  unfold clstepIssue
  extract_lets -underBinder +onlyGivenNames x
  extract_lets -underBinder +onlyGivenNames n
  with_reducible apply Res.canon_ite
  · refine Res.canon_wait fun _ _ => ?_
    with_reducible apply id_canon
    with_reducible assumption
  · with_reducible apply Res.canon_ite
    · exact Res.canon_fault
    · with_reducible apply Res.canon_ite
      · exact Res.canon_fault
      · with_reducible apply ask_canon
        · intro _ _ _
          split
          · with_reducible apply Res.canon_faultIn
            with_reducible assumption
          · with_reducible apply clPost_canon
            with_reducible assumption
          · with_reducible apply Res.canon_ok
            with_reducible apply Done.plain_canon
            with_reducible assumption
        · with_reducible assumption

theorem execClstep_canon (r : Ring) (d : SReg) (a : SReg) (b : SReg) (s : State) (ws : s.MemoryCanonical) : CanonNext (execClstep r d a b s) := by
  unfold execClstep
  with_reducible apply issue_canon
  · with_reducible assumption
  · intro _ _ _
    with_reducible apply clstepIssue_canon
    with_reducible assumption

theorem clwaitIssue_canon (pd : PReg) (a : SReg) (b : SReg) (c : CoreId) (s : State) (ws : s.MemoryCanonical) : (clwaitIssue pd a b c s).Canon := by
  unfold clwaitIssue
  extract_lets -underBinder +onlyGivenNames x
  extract_lets -underBinder +onlyGivenNames open'
  with_reducible apply Res.canon_ite
  · with_reducible apply endWait_canon
    with_reducible assumption
  · with_reducible apply Res.canon_ite
    · with_reducible apply endWait_canon
      with_reducible assumption
    · refine Res.canon_wait fun _ _ => ?_
      with_reducible apply id_canon
      with_reducible assumption

theorem execClwait_canon (r : Ring) (pd : PReg) (a : SReg) (b : SReg) (s : State) (ws : s.MemoryCanonical) : CanonNext (execClwait r pd a b s) := by
  unfold execClwait
  with_reducible apply issue_canon
  · with_reducible assumption
  · intro _ _ _
    with_reducible apply clwaitIssue_canon
    with_reducible assumption

theorem execClwaitBoundExpiry_canon (core : CoreId) (s : State) (ws : s.MemoryCanonical) : CanonNext (execClwaitBoundExpiry core s) := by
  unfold execClwaitBoundExpiry
  split
  · with_reducible apply canonNext_ite
    · with_reducible apply execClwait_canon
      with_reducible apply State.canon_mk
      with_reducible assumption
    · with_reducible apply canonNext_next
      with_reducible assumption
  · with_reducible apply canonNext_next
    with_reducible assumption

theorem State.modTable_canon (s : State) (c : CoreId) (h : BitVec 16) (f : CTable → CTable) (ws : s.MemoryCanonical) : (State.modTable s c h f).MemoryCanonical := by
  unfold State.modTable
  with_reducible apply State.modCtx_canon
  with_reducible assumption

theorem State.modStep_canon (s : State) (c : CoreId) (h : BitVec 16) (i : Nat) (f : CStep → CStep) (ws : s.MemoryCanonical) : (State.modStep s c h i f).MemoryCanonical := by
  unfold State.modStep
  with_reducible apply State.modTable_canon
  with_reducible assumption

theorem State.stepFail_canon (s : State) (c : CoreId) (h : BitVec 16) (i : Nat) (x : Cause × Nat) (ws : s.MemoryCanonical) : (State.stepFail s c h i x).MemoryCanonical := by
  unfold State.stepFail
  extract_lets -underBinder +onlyGivenNames s1
  have ws1 : s1.MemoryCanonical := by
    unfold s1
    with_reducible apply State.modTable_canon
    with_reducible apply State.modStep_canon
    with_reducible assumption
  clear_value s1
  extract_lets -underBinder +onlyGivenNames mine
  with_reducible apply State.canon_mk
  with_reducible assumption

theorem State.stepWrite_canon (s : State) (c : CoreId) (va : Nat) (bs : List Byte) (ws : s.MemoryCanonical) : (State.stepWrite s c va bs).s.MemoryCanonical := by
  unfold State.stepWrite
  with_reducible apply ERun.settle_canon
  refine ERun.foldRun _ (fun _ _ _ => ?_) _ _ ?_
  · with_reducible apply ERun.write_canon
    with_reducible assumption
  · with_reducible apply ERun.mkRun
    with_reducible assumption

theorem State.modSeen_canon (s : State) (p : FabPkt) (f : SeenPkt → SeenPkt) (ws : s.MemoryCanonical) : (State.modSeen s p f).MemoryCanonical := by
  unfold State.modSeen
  with_reducible apply State.canon_mk
  with_reducible assumption

theorem State.ackPkt_canon (s : State) (p : FabPkt) (cause : Nat) (ws : s.MemoryCanonical) : (State.ackPkt s p cause).MemoryCanonical := by
  unfold State.ackPkt
  extract_lets -underBinder +onlyGivenNames __src
  have w__src : __src.MemoryCanonical := by
    unfold __src
    with_reducible apply State.modSeen_canon
    with_reducible assumption
  clear_value __src
  with_reducible apply State.canon_mk
  with_reducible assumption

theorem State.sendPkt_canon (s : State) (c : CoreId) (h : BitVec 16) (i : Nat) (dst : BitVec 12) (body : FabBody) (ws : s.MemoryCanonical) : (State.sendPkt s c h i dst body).MemoryCanonical := by
  unfold State.sendPkt
  with_reducible apply State.canon_mk
  with_reducible assumption

theorem State.sendDue_canon (s : State) (ws : s.MemoryCanonical) : (State.sendDue s).MemoryCanonical := by
  unfold State.sendDue
  with_reducible apply State.canon_ite
  · with_reducible assumption
  · with_reducible apply State.canon_mk
    with_reducible assumption

theorem State.startSend_canon (s : State) (c : CoreId) (h : BitVec 16) (i : Nat) (b : BitVec 512) (ws : s.MemoryCanonical) : (State.startSend s c h i b).MemoryCanonical := by
  unfold State.startSend
  split
  · with_reducible apply State.stepFail_canon
    with_reducible assumption
  · with_reducible apply State.canon_ite
    · with_reducible apply State.stepFail_canon
      with_reducible assumption
    · split
      · with_reducible apply State.stepFail_canon
        with_reducible assumption
      · with_reducible apply State.canon_ite
        · with_reducible apply State.stepFail_canon
          with_reducible assumption
        · split
          · with_reducible apply State.stepFail_canon
            with_reducible assumption
          · extract_lets -underBinder +onlyGivenNames job
            extract_lets -underBinder +onlyGivenNames s1
            have ws1 : s1.MemoryCanonical := by
              unfold s1
              refine canon_foldl _ (fun _ _ _ => ?_) _ _ ?_
              · refine canon_foldl _ (fun _ _ _ => ?_) _ _ ?_
                · with_reducible apply State.sendPkt_canon
                  with_reducible assumption
                · with_reducible assumption
              · with_reducible assumption
            clear_value s1
            with_reducible apply State.modStep_canon
            with_reducible assumption

theorem State.recvInto_canon (s : State) (r : Recv) (p : FabPkt) (job : BitVec 32) (off : Nat) (bs : List Byte) (ws : s.MemoryCanonical) : (State.recvInto s r p job off bs).MemoryCanonical := by
  unfold State.recvInto
  extract_lets -underBinder +onlyGivenNames part
  extract_lets -underBinder +onlyGivenNames run
  have wrun : run.s.MemoryCanonical := by
    unfold run
    with_reducible apply State.stepWrite_canon
    with_reducible assumption
  clear_value run
  split
  · with_reducible apply State.stepFail_canon
    with_reducible apply State.ackPkt_canon
    with_reducible assumption
  · extract_lets -underBinder +onlyGivenNames w
    extract_lets -underBinder +onlyGivenNames s1
    have ws1 : s1.MemoryCanonical := by
      unfold s1
      with_reducible apply State.modSeen_canon
      with_reducible apply State.ackPkt_canon
      with_reducible assumption
    clear_value s1
    extract_lets -underBinder +onlyGivenNames r1
    with_reducible apply State.canon_ite
    · extract_lets -underBinder +onlyGivenNames s2
      have ws2 : s2.MemoryCanonical := by
        unfold s2
        with_reducible apply State.canon_mk
        with_reducible assumption
      clear_value s2
      with_reducible apply State.modStep_canon
      with_reducible assumption
    · with_reducible apply State.canon_mk
      with_reducible assumption

theorem State.sendArrives_canon (s : State) (p : FabPkt) (chan : BitVec 8) (job : BitVec 32) (off : Nat) (bs : List Byte) (ws : s.MemoryCanonical) : (State.sendArrives s p chan job off bs).MemoryCanonical := by
  unfold State.sendArrives
  with_reducible apply State.canon_ite
  · with_reducible apply State.ackPkt_canon
    with_reducible assumption
  · split
    · with_reducible apply State.recvInto_canon
      with_reducible assumption
    · with_reducible apply State.canon_mk
      with_reducible assumption

theorem State.startRecv_canon (s : State) (c : CoreId) (h : BitVec 16) (i : Nat) (b : BitVec 512) (ws : s.MemoryCanonical) : (State.startRecv s c h i b).MemoryCanonical := by
  unfold State.startRecv
  extract_lets -underBinder +onlyGivenNames dst
  extract_lets -underBinder +onlyGivenNames len
  with_reducible apply State.canon_ite
  · with_reducible apply State.stepFail_canon
    with_reducible assumption
  · extract_lets -underBinder +onlyGivenNames r
    extract_lets -underBinder +onlyGivenNames mine
    extract_lets -underBinder +onlyGivenNames s1
    have ws1 : s1.MemoryCanonical := by
      unfold s1
      with_reducible apply State.canon_mk
      with_reducible assumption
    clear_value s1
    extract_lets -underBinder +onlyGivenNames l
    refine canon_foldl _ (fun _ _ _ => ?_) _ _ ?_
    · split
      · with_reducible apply State.sendArrives_canon
        with_reducible assumption
      · with_reducible assumption
    · with_reducible assumption

theorem State.collFailed_canon (s : State) (g : Nat) (m : Nat) (ws : s.MemoryCanonical) : (State.collFailed s g m).MemoryCanonical := by
  unfold State.collFailed
  with_reducible apply State.canon_mk
  with_reducible assumption

theorem State.collTry_canon (s : State) (c : CoreId) (h : BitVec 16) (i : Nat) (b : BitVec 512) (k : CStep) (ws : s.MemoryCanonical) : (State.collTry s c h i b k).MemoryCanonical := by
  unfold State.collTry
  split
  · with_reducible assumption
  · extract_lets -underBinder +onlyGivenNames n
    extract_lets -underBinder +onlyGivenNames ranks
    extract_lets -underBinder +onlyGivenNames all
    extract_lets -underBinder +onlyGivenNames drop
    with_reducible apply State.canon_ite
    · with_reducible assumption
    · with_reducible apply State.canon_ite
      · with_reducible apply State.stepFail_canon
        unfold drop
        refine canon_foldl _ (fun _ _ _ => ?_) _ _ ?_
        · with_reducible apply State.ackPkt_canon
          with_reducible assumption
        · with_reducible apply State.canon_mk
          with_reducible apply State.collFailed_canon
          with_reducible assumption
      · extract_lets -underBinder +onlyGivenNames need
        extract_lets -underBinder +onlyGivenNames got
        with_reducible apply State.canon_ite
        · with_reducible assumption
        · extract_lets -underBinder +onlyGivenNames run
          have wrun : run.s.MemoryCanonical := by
            unfold run
            with_reducible apply State.stepWrite_canon
            with_reducible assumption
          clear_value run
          split
          · with_reducible apply State.stepFail_canon
            unfold drop
            refine canon_foldl _ (fun _ _ _ => ?_) _ _ ?_
            · with_reducible apply State.ackPkt_canon
              with_reducible assumption
            · with_reducible apply State.canon_mk
              with_reducible assumption
          · with_reducible apply State.modStep_canon
            unfold drop
            refine canon_foldl _ (fun _ _ _ => ?_) _ _ ?_
            · with_reducible apply State.ackPkt_canon
              with_reducible assumption
            · with_reducible apply State.canon_mk
              with_reducible assumption

theorem State.startColl_canon (s : State) (c : CoreId) (h : BitVec 16) (i : Nat) (m : Nat) (b : BitVec 512) (ws : s.MemoryCanonical) : (State.startColl s c h i m b).MemoryCanonical := by
  unfold State.startColl
  split
  · with_reducible apply State.stepFail_canon
    with_reducible assumption
  · with_reducible apply State.canon_ite
    · with_reducible apply State.stepFail_canon
      with_reducible assumption
    · extract_lets -underBinder +onlyGivenNames n
      split
      · with_reducible apply State.stepFail_canon
        with_reducible assumption
      · extract_lets -underBinder +onlyGivenNames s1
        have ws1 : s1.MemoryCanonical := by
          unfold s1
          with_reducible apply State.modStep_canon
          with_reducible assumption
        clear_value s1
        extract_lets -underBinder +onlyGivenNames s2
        have ws2 : s2.MemoryCanonical := by
          unfold s2
          refine canon_foldl _ (fun _ _ _ => ?_) _ _ ?_
          · with_reducible apply State.canon_ite
            · with_reducible assumption
            · extract_lets -underBinder +onlyGivenNames part
              refine canon_foldl _ (fun _ _ _ => ?_) _ _ ?_
              · with_reducible apply State.sendPkt_canon
                with_reducible assumption
              · with_reducible assumption
          · with_reducible assumption
        clear_value s2
        with_reducible apply State.collTry_canon
        with_reducible assumption

theorem State.startFsend_canon (s : State) (c : CoreId) (h : BitVec 16) (i : Nat) (b : BitVec 512) (ws : s.MemoryCanonical) : (State.startFsend s c h i b).MemoryCanonical := by
  unfold State.startFsend
  split
  · with_reducible apply State.stepFail_canon
    with_reducible assumption
  · with_reducible apply State.modStep_canon
    with_reducible assumption

theorem State.fsendGo_canon (s : State) (c : CoreId) (h : BitVec 16) (i : Nat) (b : BitVec 512) (k : CStep) (ws : s.MemoryCanonical) : (State.fsendGo s c h i b k).MemoryCanonical := by
  unfold State.fsendGo
  split
  · with_reducible assumption
  · with_reducible apply State.canon_ite
    · with_reducible apply State.modStep_canon
      with_reducible apply State.canon_mk
      with_reducible assumption
    · with_reducible assumption

theorem State.stepStartAt_canon (s : State) (c : CoreId) (t : CTable) (i : Nat) (ws : s.MemoryCanonical) : (State.stepStartAt s c t i).MemoryCanonical := by
  unfold State.stepStartAt
  extract_lets -underBinder +onlyGivenNames b
  extract_lets -underBinder +onlyGivenNames m
  extract_lets -underBinder +onlyGivenNames s1
  have ws1 : s1.MemoryCanonical := by
    unfold s1
    with_reducible apply State.modTable_canon
    with_reducible apply State.performStores_canon
    with_reducible assumption
  clear_value s1
  split
  · with_reducible apply State.startSend_canon
    with_reducible assumption
  · with_reducible apply State.startRecv_canon
    with_reducible assumption
  · with_reducible apply State.startFsend_canon
    with_reducible assumption
  · with_reducible apply State.startColl_canon
    with_reducible assumption

theorem State.collStart_canon (s : State) (c : CoreId) (ws : s.MemoryCanonical) : (State.collStart s c).MemoryCanonical := by
  unfold State.collStart
  split
  · with_reducible apply State.canon_ite
    · with_reducible apply State.stepStartAt_canon
      with_reducible assumption
    · with_reducible assumption
  · with_reducible assumption

theorem execCollectiveStepStart_canon (core : CoreId) (s : State) (ws : s.MemoryCanonical) : CanonNext (execCollectiveStepStart core s) := by
  unfold execCollectiveStepStart
  with_reducible apply canonNext_next
  with_reducible apply State.collStart_canon
  with_reducible assumption

theorem State.stepClose_canon (s : State) (c : CoreId) (h : BitVec 16) (i : Nat) (ws : s.MemoryCanonical) : (State.stepClose s c h i).MemoryCanonical := by
  unfold State.stepClose
  extract_lets -underBinder +onlyGivenNames s1
  have ws1 : s1.MemoryCanonical := by
    unfold s1
    with_reducible apply State.modTable_canon
    with_reducible assumption
  clear_value s1
  with_reducible apply State.modCtx_canon
  with_reducible assumption

theorem State.stepFinish_canon (s : State) (c : CoreId) (h : BitVec 16) (i : Nat) (b : BitVec 512) (k : CStep) (ws : s.MemoryCanonical) : (State.stepFinish s c h i b k).MemoryCanonical := by
  unfold State.stepFinish
  split
  · with_reducible apply State.canon_ite
    · with_reducible apply State.itemReport_canon
      with_reducible apply State.stepClose_canon
      with_reducible assumption
    · with_reducible assumption
  · with_reducible apply State.canon_ite
    · with_reducible apply State.canon_ite
      · split
        · with_reducible apply State.stepClose_canon
          refine canon_of_fst (by assumption) ?_
          with_reducible apply State.tgtArrival_canon
          with_reducible assumption
        · with_reducible apply State.stepFail_canon
          refine canon_of_fst (by assumption) ?_
          with_reducible apply State.tgtArrival_canon
          with_reducible assumption
      · with_reducible apply State.stepClose_canon
        with_reducible assumption
    · with_reducible assumption

theorem State.collFinish_canon (s : State) (c : CoreId) (ws : s.MemoryCanonical) : (State.collFinish s c).MemoryCanonical := by
  unfold State.collFinish
  refine canon_foldl _ (fun _ _ _ => ?_) _ _ ?_
  · extract_lets -underBinder +onlyGivenNames get
    extract_lets -underBinder +onlyGivenNames s1
    have ws1 : s1.MemoryCanonical := by
      unfold s1
      split
      · with_reducible apply State.canon_ite
        · with_reducible apply State.fsendGo_canon
          with_reducible assumption
        · with_reducible apply State.canon_ite
          · with_reducible apply State.collTry_canon
            with_reducible assumption
          · with_reducible assumption
      · with_reducible assumption
    clear_value s1
    split
    · with_reducible apply State.stepFinish_canon
      with_reducible assumption
    · with_reducible assumption
  · with_reducible assumption

theorem execCollectiveStepComplete_canon (core : CoreId) (s : State) (ws : s.MemoryCanonical) : CanonNext (execCollectiveStepComplete core s) := by
  unfold execCollectiveStepComplete
  with_reducible apply canonNext_next
  with_reducible apply State.collFinish_canon
  with_reducible assumption

theorem State.collTurn_canon (s : State) (c : CoreId) (ws : s.MemoryCanonical) : (State.collTurn s c).MemoryCanonical := by
  unfold State.collTurn
  with_reducible apply State.canon_ite
  · with_reducible assumption
  · with_reducible apply State.collFinish_canon
    with_reducible apply State.collStart_canon
    with_reducible assumption

theorem State.collArrives_canon (s : State) (p : FabPkt) (ws : s.MemoryCanonical) : (State.collArrives s p).MemoryCanonical := by
  unfold State.collArrives
  split
  · with_reducible apply State.canon_ite
    · with_reducible apply State.ackPkt_canon
      with_reducible assumption
    · with_reducible apply State.canon_mk
      with_reducible assumption
  · with_reducible apply State.canon_mk
    with_reducible assumption

theorem State.replayPkt_canon (s : State) (p : FabPkt) (q : SeenPkt) (ws : s.MemoryCanonical) : (State.replayPkt s p q).MemoryCanonical := by
  unfold State.replayPkt
  split
  · with_reducible assumption
  · with_reducible apply State.ackPkt_canon
    with_reducible apply State.writeAgain_canon
    with_reducible assumption

theorem execFabricPacketReceive_canon (p : FabPkt) (s : State) (ws : s.MemoryCanonical) : CanonNext (execFabricPacketReceive p s) := by
  unfold execFabricPacketReceive
  with_reducible apply canonNext_next
  with_reducible apply State.canon_ite
  · with_reducible apply State.canon_ite
    · with_reducible apply State.canon_mk
      with_reducible assumption
    · with_reducible assumption
  · split
    · with_reducible apply State.replayPkt_canon
      with_reducible assumption
    · extract_lets -underBinder +onlyGivenNames s1
      have ws1 : s1.MemoryCanonical := by
        unfold s1
        with_reducible apply State.canon_mk
        with_reducible assumption
      clear_value s1
      split
      · with_reducible apply State.sendArrives_canon
        with_reducible assumption
      · with_reducible apply State.collArrives_canon
        with_reducible assumption

theorem execFabricAck_canon (id : BitVec 32) (cause : BitVec 8) (s : State) (ws : s.MemoryCanonical) : CanonNext (execFabricAck id cause s) := by
  unfold execFabricAck
  with_reducible apply canonNext_next
  split
  · with_reducible assumption
  · extract_lets -underBinder +onlyGivenNames s1
    have ws1 : s1.MemoryCanonical := by
      unfold s1
      with_reducible apply State.canon_mk
      with_reducible assumption
    clear_value s1
    with_reducible apply State.canon_ite
    · with_reducible assumption
    · with_reducible apply State.stepFail_canon
      with_reducible assumption

theorem execLinkTimeout_canon (id : BitVec 32) (s : State) (ws : s.MemoryCanonical) : CanonNext (execLinkTimeout id s) := by
  unfold execLinkTimeout
  with_reducible apply canonNext_next
  split
  · with_reducible assumption
  · with_reducible apply State.canon_ite
    · with_reducible apply State.stepFail_canon
      with_reducible assumption
    · with_reducible assumption

theorem State.modPort_canon (s : State) (p : Nat) (f : Port → Port) (ws : s.MemoryCanonical) : (State.modPort s p f).MemoryCanonical := by
  unfold State.modPort
  with_reducible apply State.canon_mk
  with_reducible assumption

theorem execLinkTrainingDone_canon (port : BitVec 4) (s : State) (ws : s.MemoryCanonical) : CanonNext (execLinkTrainingDone port s) := by
  unfold execLinkTrainingDone
  with_reducible apply canonNext_next
  with_reducible apply State.modPort_canon
  with_reducible assumption

theorem execLinkLoss_canon (port : BitVec 4) (s : State) (ws : s.MemoryCanonical) : CanonNext (execLinkLoss port s) := by
  unfold execLinkLoss
  with_reducible apply canonNext_next
  with_reducible apply State.modPort_canon
  with_reducible assumption

theorem execPtpEventFrame_canon (port : BitVec 4) (offset : BitVec 64) (rate : BitVec 32) (s : State) (ws : s.MemoryCanonical) : CanonNext (execPtpEventFrame port offset rate s) := by
  unfold execPtpEventFrame
  with_reducible apply canonNext_next
  with_reducible apply State.canon_ite
  · extract_lets -underBinder +onlyGivenNames m
    extract_lets -underBinder +onlyGivenNames m
    with_reducible apply State.canon_ite
    · with_reducible apply State.canon_mk
      with_reducible assumption
    · with_reducible apply State.canon_mk
      with_reducible assumption
  · with_reducible assumption

theorem State.queueDrop_canon (s : State) (q : Nat) (u : Ingest) (ws : s.MemoryCanonical) : (State.queueDrop s q u).MemoryCanonical := by
  unfold State.queueDrop
  with_reducible apply State.canon_mk
  with_reducible assumption

theorem State.ringWrite_canon (s : State) (asid : BitVec 16) (va : Nat) (bs : List Byte) (ws : s.MemoryCanonical) : ExcBoth (State.ringWrite s asid va bs) := by
  unfold State.ringWrite
  with_reducible apply State.devWrite_canon
  with_reducible assumption

theorem State.ingestFrame_canon (s : State) (port : Nat) (q : Nat) (u : Ingest) (bs : List Byte) (ws : s.MemoryCanonical) : (State.ingestFrame s port q u bs).MemoryCanonical := by
  unfold State.ingestFrame
  extract_lets -underBinder +onlyGivenNames size
  extract_lets -underBinder +onlyGivenNames ring
  extract_lets -underBinder +onlyGivenNames pos
  extract_lets -underBinder +onlyGivenNames pad
  split
  · with_reducible apply State.queueDrop_canon
    with_reducible assumption
  · with_reducible apply State.canon_ite
    · with_reducible apply State.queueDrop_canon
      with_reducible assumption
    · extract_lets -underBinder +onlyGivenNames stamp
      extract_lets -underBinder +onlyGivenNames head
      extract_lets -underBinder +onlyGivenNames padded
      unfold padded
      split
      · with_reducible apply State.queueDrop_canon
        refine canon_of_errorBoth (by assumption) ?_
        with_reducible apply ExcBoth.at_ite
        · with_reducible apply ExcBoth.at_ok
          with_reducible assumption
        · with_reducible apply State.ringWrite_canon
          with_reducible assumption
      · extract_lets -underBinder +onlyGivenNames seq
        split
        · with_reducible apply State.queueDrop_canon
          refine canon_of_errorBoth (by assumption) ?_
          with_reducible apply State.ringWrite_canon
          refine canon_of_okBoth (by assumption) ?_
          with_reducible apply ExcBoth.at_ite
          · with_reducible apply ExcBoth.at_ok
            with_reducible assumption
          · with_reducible apply State.ringWrite_canon
            with_reducible assumption
        · with_reducible apply State.canon_mk
          refine canon_of_okBoth (by assumption) ?_
          with_reducible apply State.ringWrite_canon
          refine canon_of_okBoth (by assumption) ?_
          with_reducible apply ExcBoth.at_ite
          · with_reducible apply ExcBoth.at_ok
            with_reducible assumption
          · with_reducible apply State.ringWrite_canon
            with_reducible assumption

theorem execFrameReceive_canon (port : BitVec 4) (bytes : List Byte) (fcsOk : Bool) (s : State) (ws : s.MemoryCanonical) : CanonNext (execFrameReceive port bytes fcsOk s) := by
  unfold execFrameReceive
  with_reducible apply canonNext_next
  extract_lets -underBinder +onlyGivenNames p
  with_reducible apply State.canon_ite
  · with_reducible assumption
  · extract_lets -underBinder +onlyGivenNames drop
    have wdrop : drop.MemoryCanonical := by
      unfold drop
      with_reducible apply State.modPort_canon
      with_reducible assumption
    clear_value drop
    extract_lets -underBinder +onlyGivenNames h
    with_reducible apply State.canon_ite
    · with_reducible assumption
    · with_reducible apply State.canon_ite
      · with_reducible assumption
      · split
        · with_reducible assumption
        · split
          · with_reducible assumption
          · with_reducible apply State.canon_ite
            · with_reducible assumption
            · with_reducible apply State.ingestFrame_canon
              with_reducible assumption

/-! ### What Machine/Mgmt.lean defines -/

theorem State.reply_canon (s : State) (h : Toc) (st : Nat) (data : List Nat) (ws : s.MemoryCanonical) : (State.reply s h st data).MemoryCanonical := by
  unfold State.reply
  with_reducible apply State.canon_mk
  with_reducible assumption

theorem State.toclIn_canon (s : State) (h : Toc) (f : Option (BitVec 16) → State → State) (ws : s.MemoryCanonical) (wf : ∀ y0 y1, State.MemoryCanonical y1 → (f y0 y1).MemoryCanonical) : (State.toclIn s h f).MemoryCanonical := by
  unfold State.toclIn
  split
  · with_reducible apply State.canon_mk
    with_reducible assumption
  · split
    · with_reducible apply State.canon_ite
      · with_reducible apply wf
        with_reducible apply State.canon_mk
        with_reducible assumption
      · with_reducible assumption
    · split
      · with_reducible apply State.reply_canon
        with_reducible assumption
      · split
        · with_reducible apply State.reply_canon
          with_reducible assumption
        · with_reducible apply State.canon_ite
          · with_reducible apply wf
            with_reducible apply State.canon_mk
            with_reducible assumption
          · with_reducible assumption

theorem State.taskReq_canon (s : State) (h : Toc) (f : BitVec 16 → State → State) (ws : s.MemoryCanonical) (wf : ∀ y0 y1, State.MemoryCanonical y1 → (f y0 y1).MemoryCanonical) : (State.taskReq s h f).MemoryCanonical := by
  unfold State.taskReq
  with_reducible apply State.toclIn_canon
  · with_reducible assumption
  · intro _ _ _
    split
    · with_reducible apply State.reply_canon
      with_reducible assumption
    · with_reducible apply wf
      with_reducible assumption

theorem State.mgmtReq_canon (s : State) (h : Toc) (f : Option (BitVec 16) → State → State) (ws : s.MemoryCanonical) (wf : ∀ y0 y1, State.MemoryCanonical y1 → (f y0 y1).MemoryCanonical) : (State.mgmtReq s h f).MemoryCanonical := by
  unfold State.mgmtReq
  with_reducible apply State.canon_ite
  · with_reducible apply State.toclIn_canon
    · with_reducible assumption
    · intro _ _ _
      with_reducible apply wf
      with_reducible assumption
  · with_reducible assumption

theorem State.ctlReq_canon (s : State) (h : Toc) (f : State → State) (ws : s.MemoryCanonical) (wf : ∀ y0, State.MemoryCanonical y0 → (f y0).MemoryCanonical) : (State.ctlReq s h f).MemoryCanonical := by
  unfold State.ctlReq
  with_reducible apply State.mgmtReq_canon
  · with_reducible assumption
  · intro _ _ _
    split
    · with_reducible apply wf
      with_reducible assumption
    · with_reducible apply State.reply_canon
      with_reducible assumption

theorem State.asidReq_canon (s : State) (h : Toc) (asid : BitVec 16) (f : State → State) (ws : s.MemoryCanonical) (wf : ∀ y0, State.MemoryCanonical y0 → (f y0).MemoryCanonical) : (State.asidReq s h asid f).MemoryCanonical := by
  unfold State.asidReq
  with_reducible apply State.mgmtReq_canon
  · with_reducible assumption
  · intro _ _ _
    with_reducible apply State.canon_ite
    · with_reducible apply State.reply_canon
      with_reducible assumption
    · with_reducible apply wf
      with_reducible assumption

theorem execToclLaunch_canon (h : Toc) (q : BitVec 6) (pkt : BitVec 1024) (s : State) (ws : s.MemoryCanonical) : CanonNext (execToclLaunch h q pkt s) := by
  unfold execToclLaunch
  with_reducible apply canonNext_next
  with_reducible apply State.taskReq_canon
  · with_reducible assumption
  · intro _ _ _
    extract_lets -underBinder +onlyGivenNames r
    with_reducible apply State.reply_canon
    unfold r
    with_reducible apply State.offer_canon
    with_reducible assumption

theorem execToclCancel_canon (h : Toc) (lvl : BitVec 3) (id : BitVec 32) (tidx : BitVec 24) (s : State) (ws : s.MemoryCanonical) : CanonNext (execToclCancel h lvl id tidx s) := by
  unfold execToclCancel
  with_reducible apply canonNext_next
  with_reducible apply State.taskReq_canon
  · with_reducible assumption
  · intro _ _ _
    with_reducible apply State.canon_ite
    · with_reducible apply State.reply_canon
      with_reducible assumption
    · split
      · with_reducible apply State.reply_canon
        with_reducible assumption
      · split
        with_reducible apply State.canon_ite
        · with_reducible apply State.reply_canon
          refine canon_of_fst (by assumption) ?_
          with_reducible apply State.cancelTasks_canon
          with_reducible assumption
        · with_reducible apply State.canon_mk
          refine canon_of_fst (by assumption) ?_
          with_reducible apply State.cancelTasks_canon
          with_reducible assumption

theorem State.cancelAnswers_canon (s : State) (ws : s.MemoryCanonical) : (State.cancelAnswers s).MemoryCanonical := by
  unfold State.cancelAnswers
  extract_lets -underBinder +onlyGivenNames done
  with_reducible apply State.canon_mk
  with_reducible assumption

theorem execToclWrite_canon (h : Toc) (va : VAddr) (bytes : List Byte) (s : State) (ws : s.MemoryCanonical) : CanonNext (execToclWrite h va bytes s) := by
  unfold execToclWrite
  with_reducible apply canonNext_next
  with_reducible apply State.taskReq_canon
  · with_reducible assumption
  · intro _ _ _
    with_reducible apply State.canon_ite
    · with_reducible apply State.reply_canon
      with_reducible assumption
    · split
      · with_reducible apply State.reply_canon
        with_reducible apply State.fltVirt_canon
        with_reducible assumption
      · with_reducible apply State.canon_ite
        · with_reducible apply State.reply_canon
          with_reducible apply State.setFlt_canon
          with_reducible assumption
        · extract_lets -underBinder +onlyGivenNames excess
          with_reducible apply State.reply_canon
          with_reducible apply State.performWrite_canon
          with_reducible assumption

theorem execToclRead_canon (h : Toc) (va : VAddr) (len : BitVec 13) (s : State) (ws : s.MemoryCanonical) : CanonNext (execToclRead h va len s) := by
  unfold execToclRead
  with_reducible apply canonNext_next
  with_reducible apply State.taskReq_canon
  · with_reducible assumption
  · intro _ _ _
    with_reducible apply State.canon_ite
    · with_reducible apply State.reply_canon
      with_reducible assumption
    · split
      · with_reducible apply State.reply_canon
        with_reducible assumption
      · split
        · with_reducible apply State.reply_canon
          with_reducible assumption
        · with_reducible apply State.reply_canon
          with_reducible assumption

theorem execFreeze_canon (h : Toc) (s : State) (ws : s.MemoryCanonical) : CanonNext (execFreeze h s) := by
  unfold execFreeze
  with_reducible apply canonNext_next
  with_reducible apply State.toclIn_canon
  · with_reducible assumption
  · intro _ _ _
    split
    · with_reducible apply State.canon_mk
      with_reducible assumption
    · with_reducible apply State.reply_canon
      with_reducible assumption

theorem execRegionCreate_canon (h : Toc) (die : BitVec 2) (idx : BitVec 16) (w0 : Word) (w1 : Word) (w2 : Word) (w3 : Word) (w4 : Word) (s : State) (ws : s.MemoryCanonical) : CanonNext (execRegionCreate h die idx w0 w1 w2 w3 w4 s) := by
  unfold execRegionCreate
  with_reducible apply canonNext_next
  with_reducible apply State.asidReq_canon
  · with_reducible assumption
  · intro _ _
    extract_lets -underBinder +onlyGivenNames id
    split
    · with_reducible apply State.reply_canon
      with_reducible assumption
    · extract_lets -underBinder +onlyGivenNames gen
      extract_lets -underBinder +onlyGivenNames r
      with_reducible apply State.canon_ite
      · with_reducible apply State.reply_canon
        with_reducible assumption
      · with_reducible apply State.reply_canon
        with_reducible apply State.canon_mk
        with_reducible assumption

theorem State.entryReq_canon (s : State) (h : Toc) (id : Nat) (f : Region → State → State) (ws : s.MemoryCanonical) (wf : ∀ y0 y1, State.MemoryCanonical y1 → (f y0 y1).MemoryCanonical) : (State.entryReq s h id f).MemoryCanonical := by
  unfold State.entryReq
  with_reducible apply State.mgmtReq_canon
  · with_reducible assumption
  · intro _ _ _
    split
    · with_reducible apply State.reply_canon
      with_reducible assumption
    · with_reducible apply State.canon_ite
      · with_reducible apply State.reply_canon
        with_reducible assumption
      · with_reducible apply wf
        with_reducible assumption

theorem execRegionDestroy_canon (h : Toc) (die : BitVec 2) (idx : BitVec 16) (s : State) (ws : s.MemoryCanonical) : CanonNext (execRegionDestroy h die idx s) := by
  unfold execRegionDestroy
  with_reducible apply canonNext_next
  with_reducible apply State.entryReq_canon
  · with_reducible assumption
  · intro _ _ _
    with_reducible apply State.canon_ite
    · with_reducible apply State.reply_canon
      with_reducible assumption
    · with_reducible apply State.reply_canon
      with_reducible apply State.canon_mk
      with_reducible assumption

theorem execRegionRead_canon (h : Toc) (die : BitVec 2) (idx : BitVec 16) (s : State) (ws : s.MemoryCanonical) : CanonNext (execRegionRead h die idx s) := by
  unfold execRegionRead
  with_reducible apply canonNext_next
  with_reducible apply State.entryReq_canon
  · with_reducible assumption
  · intro _ _ _
    with_reducible apply State.canon_ite
    · with_reducible apply State.reply_canon
      with_reducible assumption
    · with_reducible apply State.reply_canon
      with_reducible assumption

theorem execCounterSet_canon (h : Toc) (kind : CtrKind) (n : BitVec 12) (target : BitVec 32) (clk : Bool) (s : State) (ws : s.MemoryCanonical) : CanonNext (execCounterSet h kind n target clk s) := by
  unfold execCounterSet
  with_reducible apply canonNext_next
  with_reducible apply State.mgmtReq_canon
  · with_reducible assumption
  · intro _ _ _
    extract_lets -underBinder +onlyGivenNames i
    split
    · with_reducible apply State.canon_ite
      · with_reducible apply State.reply_canon
        with_reducible assumption
      · with_reducible apply State.reply_canon
        with_reducible apply State.canon_mk
        with_reducible assumption
    · with_reducible apply State.canon_ite
      · with_reducible apply State.reply_canon
        with_reducible assumption
      · with_reducible apply State.reply_canon
        with_reducible apply State.canon_mk
        with_reducible assumption
    · with_reducible apply State.canon_ite
      · with_reducible apply State.reply_canon
        with_reducible assumption
      · with_reducible apply State.reply_canon
        with_reducible apply State.canon_mk
        with_reducible assumption

theorem execSessionBind_canon (h : Toc) (n : BitVec 4) (asid : BitVec 16) (unbind : Bool) (s : State) (ws : s.MemoryCanonical) : CanonNext (execSessionBind h n asid unbind s) := by
  unfold execSessionBind
  with_reducible apply canonNext_next
  with_reducible apply State.ctlReq_canon
  · with_reducible assumption
  · intro _ _
    with_reducible apply State.canon_ite
    · with_reducible apply State.reply_canon
      with_reducible assumption
    · with_reducible apply State.reply_canon
      with_reducible apply State.canon_mk
      with_reducible assumption

theorem execGroupSet_canon (h : Toc) (g : BitVec 6) (asid : BitVec 16) (devs : List (BitVec 12)) (rank : BitVec 4) (s : State) (ws : s.MemoryCanonical) : CanonNext (execGroupSet h g asid devs rank s) := by
  unfold execGroupSet
  with_reducible apply canonNext_next
  with_reducible apply State.asidReq_canon
  · with_reducible assumption
  · intro _ _
    with_reducible apply State.canon_ite
    · with_reducible apply State.reply_canon
      with_reducible assumption
    · with_reducible apply State.reply_canon
      with_reducible apply State.canon_mk
      with_reducible assumption

theorem State.portWrite_canon (s : State) (p : Nat) (v : Word) (ws : s.MemoryCanonical) : (State.portWrite s p v).MemoryCanonical := by
  unfold State.portWrite
  with_reducible apply State.modPort_canon
  with_reducible assumption

theorem execPortSet_canon (h : Toc) (port : BitVec 4) (v : Word) (s : State) (ws : s.MemoryCanonical) : CanonNext (execPortSet h port v s) := by
  unfold execPortSet
  with_reducible apply canonNext_next
  with_reducible apply State.ctlReq_canon
  · with_reducible assumption
  · intro _ _
    with_reducible apply State.canon_ite
    · with_reducible apply State.reply_canon
      with_reducible assumption
    · with_reducible apply State.reply_canon
      with_reducible apply State.portWrite_canon
      with_reducible assumption

theorem execRuleSet_canon (h : Toc) (port : BitVec 4) (rule : BitVec 6) (v : Word) (s : State) (ws : s.MemoryCanonical) : CanonNext (execRuleSet h port rule v s) := by
  unfold execRuleSet
  with_reducible apply canonNext_next
  with_reducible apply State.ctlReq_canon
  · with_reducible assumption
  · intro _ _
    with_reducible apply State.reply_canon
    with_reducible apply State.modPort_canon
    with_reducible assumption

theorem execRouteSet_canon (h : Toc) (dev : BitVec 12) (port : RouteDest) (s : State) (ws : s.MemoryCanonical) : CanonNext (execRouteSet h dev port s) := by
  unfold execRouteSet
  with_reducible apply canonNext_next
  with_reducible apply State.ctlReq_canon
  · with_reducible assumption
  · intro _ _
    split
    · with_reducible apply State.reply_canon
      with_reducible apply State.canon_mk
      with_reducible assumption
    · with_reducible apply State.reply_canon
      with_reducible apply State.canon_mk
      with_reducible assumption

theorem execIngestSet_canon (h : Toc) (q : BitVec 6) (w0 : Word) (w1 : Word) (w2 : Word) (s : State) (ws : s.MemoryCanonical) : CanonNext (execIngestSet h q w0 w1 w2 s) := by
  unfold execIngestSet
  with_reducible apply canonNext_next
  with_reducible apply State.asidReq_canon
  · with_reducible assumption
  · intro _ _
    extract_lets -underBinder +onlyGivenNames asid
    extract_lets -underBinder +onlyGivenNames k
    extract_lets -underBinder +onlyGivenNames mode
    extract_lets -underBinder +onlyGivenNames slot
    extract_lets -underBinder +onlyGivenNames hi
    extract_lets -underBinder +onlyGivenNames base
    extract_lets -underBinder +onlyGivenNames other
    extract_lets -underBinder +onlyGivenNames s0
    have ws0 : s0.MemoryCanonical := by
      unfold s0
      with_reducible apply State.canon_mk
      with_reducible assumption
    clear_value s0
    with_reducible apply State.canon_ite
    · with_reducible apply State.reply_canon
      with_reducible assumption
    · with_reducible apply State.canon_ite
      · with_reducible apply State.reply_canon
        with_reducible assumption
      · with_reducible apply State.canon_ite
        · with_reducible apply State.reply_canon
          with_reducible assumption
        · with_reducible apply State.canon_ite
          · with_reducible apply State.reply_canon
            with_reducible assumption
          · with_reducible apply State.canon_ite
            · with_reducible apply State.reply_canon
              with_reducible assumption
            · extract_lets -underBinder +onlyGivenNames u
              with_reducible apply State.reply_canon
              with_reducible apply State.canon_mk
              with_reducible assumption

theorem execQueueSet_canon (h : Toc) (q : BitVec 6) (level : BitVec 3) (asid : BitVec 16) (base : VAddr) (k : BitVec 6) (cons : VAddr) (s : State) (ws : s.MemoryCanonical) : CanonNext (execQueueSet h q level asid base k cons s) := by
  unfold execQueueSet
  with_reducible apply canonNext_next
  with_reducible apply State.ctlReq_canon
  · with_reducible assumption
  · intro _ _
    extract_lets -underBinder +onlyGivenNames old
    with_reducible apply State.canon_ite
    · with_reducible apply State.reply_canon
      with_reducible assumption
    · split
      extract_lets -underBinder +onlyGivenNames u
      with_reducible apply State.reply_canon
      with_reducible apply State.canon_mk
      with_reducible assumption

theorem execSaveSet_canon (h : Toc) (asid : BitVec 16) (base : VAddr) (size : BitVec 64) (s : State) (ws : s.MemoryCanonical) : CanonNext (execSaveSet h asid base size s) := by
  unfold execSaveSet
  with_reducible apply canonNext_next
  with_reducible apply State.asidReq_canon
  · with_reducible assumption
  · intro _ _
    split
    · with_reducible apply State.reply_canon
      with_reducible assumption
    · extract_lets -underBinder +onlyGivenNames inOld
      extract_lets -underBinder +onlyGivenNames covered
      with_reducible apply State.canon_ite
      · with_reducible apply State.reply_canon
        with_reducible assumption
      · with_reducible apply State.reply_canon
        with_reducible apply State.canon_mk
        with_reducible assumption

theorem execSubSet_canon (h : Toc) (n : BitVec 8) (w0 : Word) (w1 : Word) (w2 : Word) (w3 : Word) (w4 : Word) (s : State) (ws : s.MemoryCanonical) : CanonNext (execSubSet h n w0 w1 w2 w3 w4 s) := by
  unfold execSubSet
  with_reducible apply canonNext_next
  with_reducible apply State.asidReq_canon
  · with_reducible assumption
  · intro _ _
    extract_lets -underBinder +onlyGivenNames asid
    extract_lets -underBinder +onlyGivenNames k
    extract_lets -underBinder +onlyGivenNames kind
    extract_lets -underBinder +onlyGivenNames index
    extract_lets -underBinder +onlyGivenNames hi
    extract_lets -underBinder +onlyGivenNames base
    extract_lets -underBinder +onlyGivenNames other
    extract_lets -underBinder +onlyGivenNames s0
    have ws0 : s0.MemoryCanonical := by
      unfold s0
      with_reducible apply State.canon_mk
      with_reducible assumption
    clear_value s0
    with_reducible apply State.canon_ite
    · with_reducible apply State.reply_canon
      with_reducible assumption
    · with_reducible apply State.canon_ite
      · with_reducible apply State.reply_canon
        with_reducible assumption
      · with_reducible apply State.canon_ite
        · with_reducible apply State.reply_canon
          with_reducible assumption
        · with_reducible apply State.canon_ite
          · with_reducible apply State.reply_canon
            with_reducible assumption
          · with_reducible apply State.canon_ite
            · with_reducible apply State.reply_canon
              with_reducible assumption
            · extract_lets -underBinder +onlyGivenNames u
              with_reducible apply State.reply_canon
              with_reducible apply State.canon_mk
              with_reducible assumption

theorem execRegRead_canon (h : Toc) (num : BitVec 12) (s : State) (ws : s.MemoryCanonical) : CanonNext (execRegRead h num s) := by
  unfold execRegRead
  with_reducible apply canonNext_next
  with_reducible apply State.mgmtReq_canon
  · with_reducible assumption
  · intro _ _ _
    split
    · with_reducible apply State.reply_canon
      with_reducible assumption
    · with_reducible apply State.reply_canon
      with_reducible assumption

theorem State.regSet_canon (s : State) (n : Nat) (v : Word) (ws : s.MemoryCanonical) : OptCanon (State.regSet s n v) := by
  unfold State.regSet
  with_reducible apply OptCanon.at_ite
  · with_reducible apply OptCanon.at_some
    with_reducible apply State.portWrite_canon
    with_reducible assumption
  · with_reducible apply OptCanon.at_ite
    · with_reducible apply OptCanon.at_some
      with_reducible apply State.canon_mk
      with_reducible assumption
    · with_reducible apply OptCanon.at_ite
      · with_reducible apply OptCanon.at_some
        with_reducible apply State.canon_mk
        with_reducible assumption
      · with_reducible apply OptCanon.at_ite
        · with_reducible apply OptCanon.at_some
          with_reducible apply State.canon_mk
          with_reducible assumption
        · exact OptCanon.at_none

theorem State.regPut_canon (s : State) (n : Nat) (v : Word) (ws : s.MemoryCanonical) : OptCanon (State.regPut s n v) := by
  unfold State.regPut
  split
  · with_reducible apply OptCanon.at_some
    refine canon_of_some (by assumption) ?_
    with_reducible apply State.regSet_canon
    with_reducible assumption
  · with_reducible apply OptCanon.at_ite
    · with_reducible apply OptCanon.at_some
      with_reducible apply State.canon_mk
      with_reducible assumption
    · exact OptCanon.at_none

theorem State.portReply_canon (s : State) (st : Nat) (data : List Nat) (ws : s.MemoryCanonical) : (State.portReply s st data).MemoryCanonical := by
  unfold State.portReply
  with_reducible apply State.canon_mk
  with_reducible assumption

theorem State.botraReq_canon (s : State) (f : State → State) (ws : s.MemoryCanonical) (wf : ∀ y0, State.MemoryCanonical y0 → (f y0).MemoryCanonical) : (State.botraReq s f).MemoryCanonical := by
  unfold State.botraReq
  with_reducible apply State.canon_ite
  · with_reducible apply wf
    with_reducible assumption
  · with_reducible assumption

theorem execRegWrite_canon (h : Giver) (num : BitVec 12) (v : Word) (s : State) (ws : s.MemoryCanonical) : CanonNext (execRegWrite h num v s) := by
  unfold execRegWrite
  with_reducible apply canonNext_next
  split
  · with_reducible apply State.ctlReq_canon
    · with_reducible assumption
    · intro _ _
      split
      · with_reducible apply State.reply_canon
        refine canon_of_some (by assumption) ?_
        with_reducible apply State.regSet_canon
        with_reducible assumption
      · with_reducible apply State.reply_canon
        with_reducible assumption
  · with_reducible apply State.botraReq_canon
    · with_reducible assumption
    · intro _ _
      split
      · with_reducible apply State.portReply_canon
        refine canon_of_some (by assumption) ?_
        with_reducible apply State.regPut_canon
        with_reducible assumption
      · with_reducible apply State.portReply_canon
        with_reducible assumption

/-! ### What Machine/Power.lean defines -/

theorem State.botraOnly_canon (s : State) (who : Giver) (f : State → State) (ws : s.MemoryCanonical) (wf : ∀ y0, State.MemoryCanonical y0 → (f y0).MemoryCanonical) : (State.botraOnly s who f).MemoryCanonical := by
  unfold State.botraOnly
  split
  · with_reducible apply State.mgmtReq_canon
    · with_reducible assumption
    · intro _ _ _
      with_reducible apply State.reply_canon
      with_reducible assumption
  · with_reducible apply State.botraReq_canon
    · with_reducible assumption
    · intro _ _
      with_reducible apply wf
      with_reducible assumption

theorem execTrimSet_canon (island : Given (BitVec 10)) (mv : BitVec 16) (s : State) (ws : s.MemoryCanonical) : CanonNext (execTrimSet island mv s) := by
  unfold execTrimSet
  with_reducible apply canonNext_next
  with_reducible apply State.botraOnly_canon
  · with_reducible assumption
  · intro _ _
    with_reducible apply State.canon_ite
    · with_reducible apply State.portReply_canon
      with_reducible apply State.canon_mk
      with_reducible assumption
    · with_reducible apply State.portReply_canon
      with_reducible assumption

theorem State.slewTrims_canon (s : State) (ws : s.MemoryCanonical) : (State.slewTrims s).MemoryCanonical := by
  unfold State.slewTrims
  refine canon_foldl _ (fun _ _ _ => ?_) _ _ ?_
  · extract_lets -underBinder +onlyGivenNames v
    with_reducible apply State.canon_mk
    with_reducible assumption
  · with_reducible assumption

theorem execClkSet_canon (req : Given (BitVec 8)) (s : State) (ws : s.MemoryCanonical) : CanonNext (execClkSet req s) := by
  unfold execClkSet
  with_reducible apply canonNext_next
  with_reducible apply State.botraOnly_canon
  · with_reducible assumption
  · intro _ _
    with_reducible apply State.canon_ite
    · with_reducible apply State.portReply_canon
      with_reducible apply State.canon_mk
      with_reducible assumption
    · with_reducible apply State.portReply_canon
      with_reducible assumption

theorem State.notify_canon (s : State) (n : Nat) (u : Sub) (edge : Bool) (v : Word) (ws : s.MemoryCanonical) : (State.notify s n u edge v).MemoryCanonical := by
  unfold State.notify
  extract_lets -underBinder +onlyGivenNames drop
  split
  · unfold drop
    with_reducible apply State.canon_mk
    with_reducible assumption
  · with_reducible apply State.canon_ite
    · split
      · unfold drop
        with_reducible apply State.canon_mk
        refine canon_of_errorBoth (by assumption) ?_
        with_reducible apply State.devWrite_canon
        with_reducible assumption
      · with_reducible apply State.canon_mk
        refine canon_of_okBoth (by assumption) ?_
        with_reducible apply State.devWrite_canon
        with_reducible assumption
    · unfold drop
      with_reducible apply State.canon_mk
      with_reducible assumption

theorem State.subSample_canon (s : State) (n : Nat) (v : Word) (ws : s.MemoryCanonical) : (State.subSample s n v).MemoryCanonical := by
  unfold State.subSample
  split
  · with_reducible assumption
  · with_reducible apply State.canon_ite
    · with_reducible apply State.notify_canon
      with_reducible assumption
    · with_reducible apply State.canon_ite
      · with_reducible apply State.notify_canon
        with_reducible assumption
      · with_reducible assumption

theorem State.sampleSensor_canon (s : State) (k : Nat) (us : Nat) (v : Word) (ws : s.MemoryCanonical) : (State.sampleSensor s k us v).MemoryCanonical := by
  unfold State.sampleSensor
  refine canon_foldl _ (fun _ _ _ => ?_) _ _ ?_
  · with_reducible apply State.subSample_canon
    with_reducible assumption
  · with_reducible apply State.canon_mk
    with_reducible assumption

theorem execSensorSample_canon (n : BitVec 8) (v : Word) (s : State) (ws : s.MemoryCanonical) : CanonNext (execSensorSample n v s) := by
  unfold execSensorSample
  with_reducible apply canonNext_next
  split
  · with_reducible assumption
  · extract_lets -underBinder +onlyGivenNames us
    with_reducible apply State.canon_ite
    · with_reducible assumption
    · with_reducible apply State.sampleSensor_canon
      with_reducible assumption

theorem State.sampleRest_canon (s : State) (us : Nat) (ws : s.MemoryCanonical) : (State.sampleRest s us).MemoryCanonical := by
  unfold State.sampleRest
  refine canon_foldl _ (fun _ _ _ => ?_) _ _ ?_
  · with_reducible apply State.canon_ite
    · with_reducible assumption
    · with_reducible apply State.sampleSensor_canon
      with_reducible assumption
  · with_reducible assumption

theorem State.microActs_canon (s : State) (old : Word) (ws : s.MemoryCanonical) : (State.microActs s old).MemoryCanonical := by
  unfold State.microActs
  with_reducible apply State.canon_ite
  · with_reducible assumption
  · with_reducible apply State.freeGovernors_canon
    with_reducible apply State.slewTrims_canon
    with_reducible apply State.sampleRest_canon
    with_reducible assumption

theorem State.holdStart_canon (s : State) (c : CoreId) (ws : s.MemoryCanonical) : (State.holdStart s c).MemoryCanonical := by
  unfold State.holdStart
  split
  · with_reducible apply State.canon_ite
    · with_reducible apply State.modCore_canon
      with_reducible assumption
    · with_reducible assumption
  · with_reducible assumption

theorem execHoldTimerExpiry_canon (core : CoreId) (s : State) (ws : s.MemoryCanonical) : CanonNext (execHoldTimerExpiry core s) := by
  unfold execHoldTimerExpiry
  with_reducible apply canonNext_next
  with_reducible apply State.modCore_canon
  with_reducible assumption

theorem State.wake_canon (s : State) (c : CoreId) (t : Nat) (ws : s.MemoryCanonical) : (State.wake s c t).MemoryCanonical := by
  unfold State.wake
  split
  · with_reducible apply State.modCore_canon
    with_reducible assumption
  · extract_lets -underBinder +onlyGivenNames die
    extract_lets -underBinder +onlyGivenNames l
    extract_lets -underBinder +onlyGivenNames q
    extract_lets -underBinder +onlyGivenNames s1
    have ws1 : s1.MemoryCanonical := by
      unfold s1
      with_reducible apply State.canon_mk
      with_reducible assumption
    clear_value s1
    with_reducible apply State.modCore_canon
    with_reducible assumption
  · with_reducible assumption

theorem execWakeRequest_canon (core : CoreId) (s : State) (ws : s.MemoryCanonical) : CanonNext (execWakeRequest core s) := by
  unfold execWakeRequest
  with_reducible apply canonNext_next
  with_reducible apply State.wake_canon
  with_reducible assumption

theorem State.admitWake_canon (s : State) (die : Nat) (ws : s.MemoryCanonical) : (State.admitWake s die).MemoryCanonical := by
  unfold State.admitWake
  split
  · with_reducible assumption
  · with_reducible apply State.canon_ite
    · extract_lets -underBinder +onlyGivenNames s1
      have ws1 : s1.MemoryCanonical := by
        unfold s1
        with_reducible apply State.canon_mk
        with_reducible assumption
      clear_value s1
      with_reducible apply State.modCore_canon
      with_reducible assumption
    · with_reducible assumption

theorem execWakeAdmit_canon (die : BitVec 2) (s : State) (ws : s.MemoryCanonical) : CanonNext (execWakeAdmit die s) := by
  unfold execWakeAdmit
  with_reducible apply canonNext_next
  with_reducible apply State.admitWake_canon
  with_reducible assumption

theorem State.wakeDone_canon (s : State) (c : CoreId) (ws : s.MemoryCanonical) : (State.wakeDone s c).MemoryCanonical := by
  unfold State.wakeDone
  split
  · with_reducible apply State.canon_ite
    · with_reducible apply State.modCore_canon
      with_reducible assumption
    · with_reducible assumption
  · with_reducible assumption

theorem State.lostTask_canon (s : State) (c : CoreId) (ws : s.MemoryCanonical) : (State.lostTask s c).MemoryCanonical := by
  unfold State.lostTask
  split
  · with_reducible assumption
  · split
    · with_reducible assumption
    · with_reducible apply State.canon_ite
      · with_reducible apply State.withdraw_canon
        with_reducible assumption
      · with_reducible apply State.taskFails_canon
        with_reducible apply State.modCore_canon
        with_reducible assumption

theorem State.retentionLost_canon (s : State) (c : CoreId) (ws : s.MemoryCanonical) : (State.retentionLost s c).MemoryCanonical := by
  unfold State.retentionLost
  extract_lets -underBinder +onlyGivenNames mates
  extract_lets -underBinder +onlyGivenNames off
  extract_lets -underBinder +onlyGivenNames s1
  have ws1 : s1.MemoryCanonical := by
    unfold s1
    refine canon_foldl _ (fun _ _ _ => ?_) _ _ ?_
    · with_reducible apply State.lostTask_canon
      with_reducible assumption
    · with_reducible assumption
  clear_value s1
  extract_lets -underBinder +onlyGivenNames s2
  have ws2 : s2.MemoryCanonical := by
    unfold s2
    with_reducible apply State.canon_mk
    with_reducible assumption
  clear_value s2
  refine canon_foldl _ (fun _ _ _ => ?_) _ _ ?_
  · with_reducible apply State.modCore_canon
    with_reducible assumption
  · with_reducible assumption

theorem execWakeRampDone_canon (core : CoreId) (parityOk : Bool) (s : State) (ws : s.MemoryCanonical) : CanonNext (execWakeRampDone core parityOk s) := by
  unfold execWakeRampDone
  with_reducible apply canonNext_next
  split
  · with_reducible apply State.canon_ite
    · with_reducible assumption
    · with_reducible apply State.canon_ite
      · with_reducible apply State.wakeDone_canon
        with_reducible assumption
      · with_reducible apply State.retentionLost_canon
        with_reducible assumption
  · with_reducible assumption

theorem State.reboot_canon (s : State) (ws : s.MemoryCanonical) : (State.reboot s).MemoryCanonical := by
  unfold State.reboot
  extract_lets -underBinder +onlyGivenNames s1
  have ws1 : s1.MemoryCanonical := by
    unfold s1
    with_reducible apply State.reset_canon
  clear_value s1
  extract_lets -underBinder +onlyGivenNames s1
  have ws1 : s1.MemoryCanonical := by
    unfold s1
    with_reducible apply State.canon_mk
    with_reducible assumption
  clear_value s1
  extract_lets -underBinder +onlyGivenNames n
  extract_lets -underBinder +onlyGivenNames log
  split
  · with_reducible apply State.canon_mk
    with_reducible assumption
  · with_reducible apply State.canon_mk
    with_reducible assumption

theorem execPackageReset_canon (s : State) (ws : s.MemoryCanonical) : CanonNext (execPackageReset s) := by
  unfold execPackageReset
  with_reducible apply canonNext_next
  with_reducible apply State.reboot_canon
  with_reducible assumption

theorem execAttest_canon (h : Toc) (nonce : BitVec 256) (s : State) (ws : s.MemoryCanonical) : CanonNext (execAttest h nonce s) := by
  unfold execAttest
  with_reducible apply canonNext_next
  with_reducible apply State.mgmtReq_canon
  · with_reducible assumption
  · intro _ _ _
    with_reducible apply State.reply_canon
    with_reducible assumption

theorem execFwStage_canon (h : Toc) (r : FwRec) (s : State) (ws : s.MemoryCanonical) : CanonNext (execFwStage h r s) := by
  unfold execFwStage
  with_reducible apply canonNext_next
  with_reducible apply State.ctlReq_canon
  · with_reducible assumption
  · intro _ _
    with_reducible apply State.reply_canon
    with_reducible apply State.canon_mk
    with_reducible assumption

theorem State.attest_canon (s : State) (typ : Nat) (version : Nat) (digest : BitVec 512) (ws : s.MemoryCanonical) : (State.attest s typ version digest).MemoryCanonical := by
  unfold State.attest
  with_reducible apply State.canon_mk
  with_reducible assumption

theorem execFwCommit_canon (h : Toc) (s : State) (ws : s.MemoryCanonical) : CanonNext (execFwCommit h s) := by
  unfold execFwCommit
  with_reducible apply canonNext_next
  with_reducible apply State.ctlReq_canon
  · with_reducible assumption
  · intro _ _
    split
    · with_reducible apply State.reply_canon
      with_reducible assumption
    · with_reducible apply State.canon_ite
      · with_reducible apply State.reply_canon
        extract_lets -underBinder +onlyGivenNames __src
        have w__src : __src.MemoryCanonical := by
          unfold __src
          with_reducible apply State.attest_canon
          with_reducible assumption
        clear_value __src
        with_reducible apply State.canon_mk
        with_reducible assumption
      · with_reducible apply State.reply_canon
        with_reducible assumption

theorem State.resumeMgmt_canon (s : State) (t : Nat) (ws : s.MemoryCanonical) : (State.resumeMgmt s t).MemoryCanonical := by
  unfold State.resumeMgmt
  extract_lets -underBinder +onlyGivenNames now
  with_reducible apply State.canon_mk
  with_reducible assumption

theorem execHandoverReady_canon (s : State) (ws : s.MemoryCanonical) : CanonNext (execHandoverReady s) := by
  unfold execHandoverReady
  with_reducible apply canonNext_next
  split
  · with_reducible assumption
  · extract_lets -underBinder +onlyGivenNames n
    extract_lets -underBinder +onlyGivenNames v
    extract_lets -underBinder +onlyGivenNames __src
    have w__src : __src.MemoryCanonical := by
      unfold __src
      with_reducible apply State.resumeMgmt_canon
      with_reducible assumption
    clear_value __src
    with_reducible apply State.canon_mk
    with_reducible assumption

theorem State.handoverLate_canon (s : State) (ws : s.MemoryCanonical) : (State.handoverLate s).MemoryCanonical := by
  unfold State.handoverLate
  split
  · with_reducible assumption
  · with_reducible apply State.canon_ite
    · extract_lets -underBinder +onlyGivenNames e
      with_reducible apply State.attest_canon
      with_reducible apply State.resumeMgmt_canon
      with_reducible assumption
    · with_reducible assumption

theorem execHandoverTimeout_canon (s : State) (ws : s.MemoryCanonical) : CanonNext (execHandoverTimeout s) := by
  unfold execHandoverTimeout
  with_reducible apply canonNext_next
  with_reducible apply State.handoverLate_canon
  with_reducible assumption

/-! ### What Machine/Levels.lean defines -/

theorem State.answerKind_canon (s : State) (c : CoreId) (e : Strm) (p : Req → Bool) (ws : s.MemoryCanonical) : (State.answerKind s c e p).MemoryCanonical := by
  unfold State.answerKind
  split
  · with_reducible apply State.canon_ite
    · with_reducible apply State.answer_canon
      with_reducible assumption
    · with_reducible assumption
  · with_reducible assumption

theorem execHomeAtomic_canon (core : CoreId) (s : State) (ws : s.MemoryCanonical) : CanonNext (execHomeAtomic core s) := by
  unfold execHomeAtomic
  with_reducible apply canonNext_next
  with_reducible apply State.answerKind_canon
  with_reducible assumption

theorem execHomeControllerAnswer_canon (core : CoreId) (e : Strm) (s : State) (ws : s.MemoryCanonical) : CanonNext (execHomeControllerAnswer core e s) := by
  unfold execHomeControllerAnswer
  with_reducible apply canonNext_next
  with_reducible apply State.answerKind_canon
  with_reducible assumption

theorem execSealComplete_canon (core : CoreId) (s : State) (ws : s.MemoryCanonical) : CanonNext (execSealComplete core s) := by
  unfold execSealComplete
  with_reducible apply canonNext_next
  with_reducible apply State.answerKind_canon
  with_reducible assumption

theorem execUnsealComplete_canon (core : CoreId) (s : State) (ws : s.MemoryCanonical) : CanonNext (execUnsealComplete core s) := by
  unfold execUnsealComplete
  with_reducible apply canonNext_next
  with_reducible apply State.answerKind_canon
  with_reducible assumption

theorem execStorePerformed_canon (core : CoreId) (s : State) (ws : s.MemoryCanonical) : CanonNext (execStorePerformed core s) := by
  unfold execStorePerformed
  with_reducible apply canonNext_next
  with_reducible apply State.performStores_canon
  with_reducible assumption

theorem execBarwBoundExpiry_canon (core : CoreId) (s : State) (ws : s.MemoryCanonical) : CanonNext (execBarwBoundExpiry core s) := by
  unfold execBarwBoundExpiry
  split
  · with_reducible apply canonNext_ite
    · with_reducible apply execBarw_canon
      with_reducible apply State.canon_mk
      with_reducible assumption
    · with_reducible apply canonNext_next
      with_reducible assumption
  · with_reducible apply canonNext_next
    with_reducible assumption

theorem execAwaitBoundExpiry_canon (core : CoreId) (s : State) (ws : s.MemoryCanonical) : CanonNext (execAwaitBoundExpiry core s) := by
  unfold execAwaitBoundExpiry
  split
  · with_reducible apply canonNext_ite
    · with_reducible apply execAwait_canon
      with_reducible apply State.canon_mk
      with_reducible assumption
    · with_reducible apply canonNext_next
      with_reducible assumption
  · with_reducible apply canonNext_next
    with_reducible assumption

theorem execRegionCount_canon (die : BitVec 2) (idx : BitVec 16) (s : State) (ws : s.MemoryCanonical) : CanonNext (execRegionCount die idx s) := by
  unfold execRegionCount
  with_reducible apply canonNext_next
  split
  · with_reducible apply State.canon_ite
    · with_reducible apply State.countDie_canon
      with_reducible apply State.canon_mk
      with_reducible assumption
    · with_reducible assumption
  · with_reducible assumption

theorem State.refireDie_canon (s : State) (id : Nat) (ws : s.MemoryCanonical) : (State.refireDie s id).MemoryCanonical := by
  unfold State.refireDie
  split
  · with_reducible assumption
  · with_reducible apply State.canon_ite
    · with_reducible apply State.dieFired_canon
      with_reducible apply State.canon_mk
      with_reducible assumption
    · with_reducible assumption

theorem State.refireCore_canon (s : State) (c : CoreId) (slot : Nat) (ws : s.MemoryCanonical) : (State.refireCore s c slot).MemoryCanonical := by
  unfold State.refireCore
  split
  · with_reducible assumption
  · with_reducible apply State.canon_ite
    · with_reducible apply State.coreFired_canon
      with_reducible apply State.setCoreEntry_canon
      with_reducible assumption
    · with_reducible assumption

theorem execRearmRefire_canon (die : BitVec 2) (idx : BitVec 16) (s : State) (ws : s.MemoryCanonical) : CanonNext (execRearmRefire die idx s) := by
  unfold execRearmRefire
  with_reducible apply canonNext_next
  with_reducible apply State.canon_ite
  · with_reducible apply State.refireDie_canon
    with_reducible assumption
  · with_reducible assumption

theorem State.bump_canon (s : State) (asid : Nat) (ws : s.MemoryCanonical) : (State.bump s asid).MemoryCanonical := by
  unfold State.bump
  split
  · with_reducible assumption
  · with_reducible apply State.canon_ite
    · with_reducible assumption
    · with_reducible apply State.canon_mk
      with_reducible assumption

theorem execGenerationBump_canon (asid : BitVec 16) (s : State) (ws : s.MemoryCanonical) : CanonNext (execGenerationBump asid s) := by
  unfold execGenerationBump
  with_reducible apply canonNext_next
  with_reducible apply State.canon_ite
  · with_reducible apply State.bump_canon
    with_reducible assumption
  · with_reducible assumption

theorem execRequestReplay_canon (core : CoreId) (e : Strm) (s : State) (ws : s.MemoryCanonical) : CanonNext (execRequestReplay core e s) := by
  unfold execRequestReplay
  with_reducible apply canonNext_next
  split
  · with_reducible apply State.canon_ite
    · with_reducible apply State.modStr_canon
      with_reducible assumption
    · with_reducible assumption
  · with_reducible apply State.replayWrites_canon
    with_reducible assumption

theorem State.sweepGens_canon (s : State) (asid : BitVec 16) (gen : BitVec 8) (ws : s.MemoryCanonical) : (State.sweepGens s asid gen).MemoryCanonical := by
  unfold State.sweepGens
  with_reducible apply State.canon_mk
  with_reducible assumption

theorem execSweepComplete_canon (asid : BitVec 16) (s : State) (ws : s.MemoryCanonical) : CanonNext (execSweepComplete asid s) := by
  unfold execSweepComplete
  with_reducible apply canonNext_next
  split
  · with_reducible assumption
  · with_reducible apply State.canon_ite
    · with_reducible apply State.sweepGens_canon
      with_reducible apply State.canon_mk
      with_reducible assumption
    · with_reducible assumption

theorem execReplicaPlacement_canon (die : BitVec 2) (idx : BitVec 16) (lvl : BitVec 3) (tdie : BitVec 2) (s : State) (ws : s.MemoryCanonical) : CanonNext (execReplicaPlacement die idx lvl tdie s) := by
  unfold execReplicaPlacement
  extract_lets -underBinder +onlyGivenNames id
  extract_lets -underBinder +onlyGivenNames p
  with_reducible apply canonNext_next
  split
  · with_reducible assumption
  · with_reducible apply State.canon_ite
    · with_reducible apply State.canon_mk
      with_reducible assumption
    · with_reducible assumption

theorem execBankMarkFailing_canon (die : BitVec 2) (lvl : BitVec 3) (bank : SpareUnit) (s : State) (ws : s.MemoryCanonical) : CanonNext (execBankMarkFailing die lvl bank s) := by
  unfold execBankMarkFailing
  extract_lets -underBinder +onlyGivenNames g
  extract_lets -underBinder +onlyGivenNames b
  with_reducible apply canonNext_next
  with_reducible apply State.canon_ite
  · with_reducible apply State.canon_mk
    with_reducible assumption
  · with_reducible assumption

theorem State.capsBits_canon (s : State) (die : Nat) (lvl : Nat) (degr : Bool) (shed : Bool) (ws : s.MemoryCanonical) : (State.capsBits s die lvl degr shed).MemoryCanonical := by
  unfold State.capsBits
  extract_lets -underBinder +onlyGivenNames m0
  extract_lets -underBinder +onlyGivenNames m1
  extract_lets -underBinder +onlyGivenNames v
  extract_lets -underBinder +onlyGivenNames v1
  extract_lets -underBinder +onlyGivenNames v2
  with_reducible apply State.canon_mk
  with_reducible assumption

theorem execLayerFailureNoSpare_canon (die : BitVec 2) (lvl : BitVec 3) (bank : SpareUnit) (s : State) (ws : s.MemoryCanonical) : CanonNext (execLayerFailureNoSpare die lvl bank s) := by
  unfold execLayerFailureNoSpare
  extract_lets -underBinder +onlyGivenNames n
  with_reducible apply canonNext_next
  with_reducible apply State.canon_ite
  · extract_lets -underBinder +onlyGivenNames b
    extract_lets -underBinder +onlyGivenNames s1
    have ws1 : s1.MemoryCanonical := by
      unfold s1
      with_reducible apply State.canon_mk
      with_reducible assumption
    clear_value s1
    split
    · with_reducible apply State.capsBits_canon
      with_reducible apply State.canon_mk
      with_reducible assumption
    · with_reducible assumption
  · with_reducible assumption

theorem execRecoveryPoint_canon (die : BitVec 2) (lvl : BitVec 3) (s : State) (ws : s.MemoryCanonical) : CanonNext (execRecoveryPoint die lvl s) := by
  unfold execRecoveryPoint
  extract_lets -underBinder +onlyGivenNames n
  with_reducible apply canonNext_next
  split
  · with_reducible apply State.canon_ite
    · with_reducible assumption
    · extract_lets -underBinder +onlyGivenNames s1
      have ws1 : s1.MemoryCanonical := by
        unfold s1
        with_reducible apply State.canon_mk
        with_reducible assumption
      clear_value s1
      refine canon_foldl _ (fun _ _ _ => ?_) _ _ ?_
      · extract_lets -underBinder +onlyGivenNames c
        with_reducible apply State.canon_ite
        · with_reducible apply State.startSave_canon
          with_reducible assumption
        · with_reducible assumption
      · with_reducible assumption
  · with_reducible assumption

theorem State.shedSweep_canon (s : State) (n : Nat) (ws : s.MemoryCanonical) : (State.shedSweep s n).MemoryCanonical := by
  unfold State.shedSweep
  split
  · extract_lets -underBinder +onlyGivenNames die
    extract_lets -underBinder +onlyGivenNames lvl
    extract_lets -underBinder +onlyGivenNames maps
    extract_lets -underBinder +onlyGivenNames busy
    extract_lets -underBinder +onlyGivenNames going
    with_reducible apply State.canon_ite
    · with_reducible assumption
    · extract_lets -underBinder +onlyGivenNames s1
      have ws1 : s1.MemoryCanonical := by
        unfold s1
        with_reducible apply State.canon_mk
        with_reducible assumption
      clear_value s1
      refine canon_foldl _ (fun _ _ _ => ?_) _ _ ?_
      · with_reducible apply State.bump_canon
        with_reducible assumption
      · with_reducible assumption
  · with_reducible assumption

theorem execShedComplete_canon (die : BitVec 2) (lvl : BitVec 3) (s : State) (ws : s.MemoryCanonical) : CanonNext (execShedComplete die lvl s) := by
  unfold execShedComplete
  extract_lets -underBinder +onlyGivenNames n
  with_reducible apply canonNext_next
  split
  · with_reducible apply State.canon_ite
    · with_reducible assumption
    · with_reducible apply State.capsBits_canon
      with_reducible apply State.canon_mk
      with_reducible assumption
  · with_reducible assumption

theorem State.markWord_canon (s : State) (die : Nat) (lvl : Nat) (w : Nat) (ws : s.MemoryCanonical) : (State.markWord s die lvl w).MemoryCanonical := by
  unfold State.markWord
  split
  · with_reducible apply State.modCore_canon
    with_reducible assumption
  · with_reducible apply State.canon_mk
    with_reducible assumption
  · with_reducible apply State.canon_mk
    with_reducible assumption

theorem State.lpReport_canon (s : State) (word : Nat) (words : Nat) (bad : Bool) (ws : s.MemoryCanonical) : (State.lpReport s word words bad).MemoryCanonical := by
  unfold State.lpReport
  extract_lets -underBinder +onlyGivenNames l
  with_reducible apply State.canon_ite
  · with_reducible assumption
  · with_reducible apply State.canon_ite
    · with_reducible apply State.canon_mk
      with_reducible assumption
    · extract_lets -underBinder +onlyGivenNames n
      with_reducible apply State.canon_mk
      with_reducible assumption

theorem State.bufReport_canon (s : State) (die : Nat) (w : Nat) (bad : Bool) (ws : s.MemoryCanonical) : (State.bufReport s die w bad).MemoryCanonical := by
  unfold State.bufReport
  extract_lets -underBinder +onlyGivenNames c
  split
  · with_reducible assumption
  · extract_lets -underBinder +onlyGivenNames u
    with_reducible apply State.canon_ite
    · with_reducible assumption
    · with_reducible apply State.canon_ite
      · with_reducible apply State.modCore_canon
        with_reducible assumption
      · with_reducible apply State.canon_ite
        · with_reducible apply State.canon_mk
          with_reducible assumption
        · with_reducible assumption

theorem execPatrolScrub_canon (die : BitVec 2) (lvl : BitVec 3) (word : EccReport) (s : State) (ws : s.MemoryCanonical) : CanonNext (execPatrolScrub die lvl word s) := by
  unfold execPatrolScrub
  extract_lets -underBinder +onlyGivenNames w
  with_reducible apply canonNext_next
  with_reducible apply State.canon_ite
  · with_reducible apply State.bufReport_canon
    with_reducible assumption
  · with_reducible apply State.canon_ite
    · with_reducible apply State.lpReport_canon
      with_reducible assumption
    · with_reducible apply State.canon_ite
      · with_reducible apply State.canon_ite
        · with_reducible apply State.markWord_canon
          with_reducible assumption
        · with_reducible apply State.canon_mk
          with_reducible assumption
      · with_reducible assumption

theorem State.drainQueue_canon (s : State) (q : Nat) (ws : s.MemoryCanonical) : (State.drainQueue s q).MemoryCanonical := by
  unfold State.drainQueue
  split
  · with_reducible apply State.drainRecs_canon
    with_reducible assumption
  · with_reducible assumption

theorem execErrorRecordDrain_canon (q : BitVec 6) (s : State) (ws : s.MemoryCanonical) : CanonNext (execErrorRecordDrain q s) := by
  unfold execErrorRecordDrain
  with_reducible apply canonNext_next
  with_reducible apply State.drainQueue_canon
  with_reducible assumption

end Sys2Proof.Machine
end

