-- ==== Sys2Proof/Laws/CanonicalExec.lean ====
section
/-!
SUPPORT. Memory's canonical form is kept by every instruction (`exec_canon`, arm by arm) and by every turn of the
machine: a stream's, an engine's, an offered event's, and the cycle that ends a round.
-/

namespace Sys2Proof.Machine

/-! ### What Machine/Scalar.lean defines -/

theorem scalarOp_canon (lat : Nat) (r : Ring) (d : SReg) (f : Ctx → Word) (s : State) (ws : s.MemoryCanonical) : CanonNext (scalarOp lat r d f s) := by
  unfold scalarOp
  with_reducible apply issue_canon
  · with_reducible assumption
  · intro _ _ _
    with_reducible apply Res.canon_ok
    with_reducible apply Done.one_canon
    with_reducible assumption

theorem predOp_canon (r : Ring) (pd : PReg) (f : Ctx → Bool) (s : State) (ws : s.MemoryCanonical) : CanonNext (predOp r pd f s) := by
  unfold predOp
  with_reducible apply issue_canon
  · with_reducible assumption
  · intro _ _ _
    with_reducible apply Res.canon_ok
    with_reducible apply Done.one_canon
    with_reducible assumption

theorem execAdd_canon (r : Ring) (d : SReg) (a : SReg) (b : SReg) (s : State) (ws : s.MemoryCanonical) : CanonNext (execAdd r d a b s) := by
  unfold execAdd
  with_reducible apply scalarOp_canon
  with_reducible assumption

theorem execSub_canon (r : Ring) (d : SReg) (a : SReg) (b : SReg) (s : State) (ws : s.MemoryCanonical) : CanonNext (execSub r d a b s) := by
  unfold execSub
  with_reducible apply scalarOp_canon
  with_reducible assumption

theorem execAnd_canon (r : Ring) (d : SReg) (a : SReg) (b : SReg) (s : State) (ws : s.MemoryCanonical) : CanonNext (execAnd r d a b s) := by
  unfold execAnd
  with_reducible apply scalarOp_canon
  with_reducible assumption

theorem execOr_canon (r : Ring) (d : SReg) (a : SReg) (b : SReg) (s : State) (ws : s.MemoryCanonical) : CanonNext (execOr r d a b s) := by
  unfold execOr
  with_reducible apply scalarOp_canon
  with_reducible assumption

theorem execXor_canon (r : Ring) (d : SReg) (a : SReg) (b : SReg) (s : State) (ws : s.MemoryCanonical) : CanonNext (execXor r d a b s) := by
  unfold execXor
  with_reducible apply scalarOp_canon
  with_reducible assumption

theorem execAndn_canon (r : Ring) (d : SReg) (a : SReg) (b : SReg) (s : State) (ws : s.MemoryCanonical) : CanonNext (execAndn r d a b s) := by
  unfold execAndn
  with_reducible apply scalarOp_canon
  with_reducible assumption

theorem execOrn_canon (r : Ring) (d : SReg) (a : SReg) (b : SReg) (s : State) (ws : s.MemoryCanonical) : CanonNext (execOrn r d a b s) := by
  unfold execOrn
  with_reducible apply scalarOp_canon
  with_reducible assumption

theorem execSll_canon (r : Ring) (d : SReg) (a : SReg) (b : SReg) (s : State) (ws : s.MemoryCanonical) : CanonNext (execSll r d a b s) := by
  unfold execSll
  with_reducible apply scalarOp_canon
  with_reducible assumption

theorem execSrl_canon (r : Ring) (d : SReg) (a : SReg) (b : SReg) (s : State) (ws : s.MemoryCanonical) : CanonNext (execSrl r d a b s) := by
  unfold execSrl
  with_reducible apply scalarOp_canon
  with_reducible assumption

theorem execSra_canon (r : Ring) (d : SReg) (a : SReg) (b : SReg) (s : State) (ws : s.MemoryCanonical) : CanonNext (execSra r d a b s) := by
  unfold execSra
  with_reducible apply scalarOp_canon
  with_reducible assumption

theorem execRol_canon (r : Ring) (d : SReg) (a : SReg) (b : SReg) (s : State) (ws : s.MemoryCanonical) : CanonNext (execRol r d a b s) := by
  unfold execRol
  with_reducible apply scalarOp_canon
  with_reducible assumption

theorem execRor_canon (r : Ring) (d : SReg) (a : SReg) (b : SReg) (s : State) (ws : s.MemoryCanonical) : CanonNext (execRor r d a b s) := by
  unfold execRor
  with_reducible apply scalarOp_canon
  with_reducible assumption

theorem execSel_canon (r : Ring) (d : SReg) (a : SReg) (b : SReg) (s : State) (ws : s.MemoryCanonical) : CanonNext (execSel r d a b s) := by
  unfold execSel
  with_reducible apply scalarOp_canon
  with_reducible assumption

theorem execMin_canon (r : Ring) (d : SReg) (a : SReg) (b : SReg) (s : State) (ws : s.MemoryCanonical) : CanonNext (execMin r d a b s) := by
  unfold execMin
  with_reducible apply scalarOp_canon
  with_reducible assumption

theorem execMax_canon (r : Ring) (d : SReg) (a : SReg) (b : SReg) (s : State) (ws : s.MemoryCanonical) : CanonNext (execMax r d a b s) := by
  unfold execMax
  with_reducible apply scalarOp_canon
  with_reducible assumption

theorem execMinn_canon (r : Ring) (d : SReg) (a : SReg) (b : SReg) (s : State) (ws : s.MemoryCanonical) : CanonNext (execMinn r d a b s) := by
  unfold execMinn
  with_reducible apply scalarOp_canon
  with_reducible assumption

theorem execMaxn_canon (r : Ring) (d : SReg) (a : SReg) (b : SReg) (s : State) (ws : s.MemoryCanonical) : CanonNext (execMaxn r d a b s) := by
  unfold execMaxn
  with_reducible apply scalarOp_canon
  with_reducible assumption

theorem execMul_canon (r : Ring) (d : SReg) (a : SReg) (b : SReg) (s : State) (ws : s.MemoryCanonical) : CanonNext (execMul r d a b s) := by
  unfold execMul
  with_reducible apply scalarOp_canon
  with_reducible assumption

theorem execMulh_canon (r : Ring) (d : SReg) (a : SReg) (b : SReg) (s : State) (ws : s.MemoryCanonical) : CanonNext (execMulh r d a b s) := by
  unfold execMulh
  with_reducible apply scalarOp_canon
  with_reducible assumption

theorem execMulhn_canon (r : Ring) (d : SReg) (a : SReg) (b : SReg) (s : State) (ws : s.MemoryCanonical) : CanonNext (execMulhn r d a b s) := by
  unfold execMulhn
  with_reducible apply scalarOp_canon
  with_reducible assumption

theorem execDiv_canon (r : Ring) (d : SReg) (a : SReg) (b : SReg) (s : State) (ws : s.MemoryCanonical) : CanonNext (execDiv r d a b s) := by
  unfold execDiv
  with_reducible apply scalarOp_canon
  with_reducible assumption

theorem execDivn_canon (r : Ring) (d : SReg) (a : SReg) (b : SReg) (s : State) (ws : s.MemoryCanonical) : CanonNext (execDivn r d a b s) := by
  unfold execDivn
  with_reducible apply scalarOp_canon
  with_reducible assumption

theorem execRem_canon (r : Ring) (d : SReg) (a : SReg) (b : SReg) (s : State) (ws : s.MemoryCanonical) : CanonNext (execRem r d a b s) := by
  unfold execRem
  with_reducible apply scalarOp_canon
  with_reducible assumption

theorem execRemn_canon (r : Ring) (d : SReg) (a : SReg) (b : SReg) (s : State) (ws : s.MemoryCanonical) : CanonNext (execRemn r d a b s) := by
  unfold execRemn
  with_reducible apply scalarOp_canon
  with_reducible assumption

theorem execClz_canon (r : Ring) (d : SReg) (a : SReg) (s : State) (ws : s.MemoryCanonical) : CanonNext (execClz r d a s) := by
  unfold execClz
  with_reducible apply scalarOp_canon
  with_reducible assumption

theorem execCtz_canon (r : Ring) (d : SReg) (a : SReg) (s : State) (ws : s.MemoryCanonical) : CanonNext (execCtz r d a s) := by
  unfold execCtz
  with_reducible apply scalarOp_canon
  with_reducible assumption

theorem execPopc_canon (r : Ring) (d : SReg) (a : SReg) (s : State) (ws : s.MemoryCanonical) : CanonNext (execPopc r d a s) := by
  unfold execPopc
  with_reducible apply scalarOp_canon
  with_reducible assumption

theorem execBrev_canon (r : Ring) (d : SReg) (a : SReg) (s : State) (ws : s.MemoryCanonical) : CanonNext (execBrev r d a s) := by
  unfold execBrev
  with_reducible apply scalarOp_canon
  with_reducible assumption

theorem execBswap_canon (r : Ring) (d : SReg) (a : SReg) (s : State) (ws : s.MemoryCanonical) : CanonNext (execBswap r d a s) := by
  unfold execBswap
  with_reducible apply scalarOp_canon
  with_reducible assumption

theorem execSext_canon (r : Ring) (d : SReg) (a : SReg) (w1 : BitVec 6) (s : State) (ws : s.MemoryCanonical) : CanonNext (execSext r d a w1 s) := by
  unfold execSext
  with_reducible apply scalarOp_canon
  with_reducible assumption

theorem execZext_canon (r : Ring) (d : SReg) (a : SReg) (w1 : BitVec 6) (s : State) (ws : s.MemoryCanonical) : CanonNext (execZext r d a w1 s) := by
  unfold execZext
  with_reducible apply scalarOp_canon
  with_reducible assumption

theorem execAddi_canon (r : Ring) (d : SReg) (a : SReg) (imm : BitVec 10) (s : State) (ws : s.MemoryCanonical) : CanonNext (execAddi r d a imm s) := by
  unfold execAddi
  with_reducible apply scalarOp_canon
  with_reducible assumption

theorem execAndi_canon (r : Ring) (d : SReg) (a : SReg) (imm : BitVec 10) (s : State) (ws : s.MemoryCanonical) : CanonNext (execAndi r d a imm s) := by
  unfold execAndi
  with_reducible apply scalarOp_canon
  with_reducible assumption

theorem execOri_canon (r : Ring) (d : SReg) (a : SReg) (imm : BitVec 10) (s : State) (ws : s.MemoryCanonical) : CanonNext (execOri r d a imm s) := by
  unfold execOri
  with_reducible apply scalarOp_canon
  with_reducible assumption

theorem execXori_canon (r : Ring) (d : SReg) (a : SReg) (imm : BitVec 10) (s : State) (ws : s.MemoryCanonical) : CanonNext (execXori r d a imm s) := by
  unfold execXori
  with_reducible apply scalarOp_canon
  with_reducible assumption

theorem execMuli_canon (r : Ring) (d : SReg) (a : SReg) (imm : BitVec 10) (s : State) (ws : s.MemoryCanonical) : CanonNext (execMuli r d a imm s) := by
  unfold execMuli
  with_reducible apply scalarOp_canon
  with_reducible assumption

theorem execSlli_canon (r : Ring) (d : SReg) (a : SReg) (sh : BitVec 6) (s : State) (ws : s.MemoryCanonical) : CanonNext (execSlli r d a sh s) := by
  unfold execSlli
  with_reducible apply scalarOp_canon
  with_reducible assumption

theorem execSrli_canon (r : Ring) (d : SReg) (a : SReg) (sh : BitVec 6) (s : State) (ws : s.MemoryCanonical) : CanonNext (execSrli r d a sh s) := by
  unfold execSrli
  with_reducible apply scalarOp_canon
  with_reducible assumption

theorem execSrai_canon (r : Ring) (d : SReg) (a : SReg) (sh : BitVec 6) (s : State) (ws : s.MemoryCanonical) : CanonNext (execSrai r d a sh s) := by
  unfold execSrai
  with_reducible apply scalarOp_canon
  with_reducible assumption

theorem execRori_canon (r : Ring) (d : SReg) (a : SReg) (sh : BitVec 6) (s : State) (ws : s.MemoryCanonical) : CanonNext (execRori r d a sh s) := by
  unfold execRori
  with_reducible apply scalarOp_canon
  with_reducible assumption

theorem execMovi_canon (r : Ring) (d : SReg) (imm : BitVec 16) (s : State) (ws : s.MemoryCanonical) : CanonNext (execMovi r d imm s) := by
  unfold execMovi
  with_reducible apply scalarOp_canon
  with_reducible assumption

theorem execMovk_canon (r : Ring) (d : SReg) (imm : BitVec 16) (s : State) (ws : s.MemoryCanonical) : CanonNext (execMovk r d imm s) := by
  unfold execMovk
  with_reducible apply scalarOp_canon
  with_reducible assumption

theorem execAddpc_canon (r : Ring) (d : SReg) (imm : BitVec 16) (s : State) (ws : s.MemoryCanonical) : CanonNext (execAddpc r d imm s) := by
  unfold execAddpc
  with_reducible apply scalarOp_canon
  with_reducible assumption

theorem execBfx_canon (r : Ring) (d : SReg) (a : SReg) (b : SReg) (s : State) (ws : s.MemoryCanonical) : CanonNext (execBfx r d a b s) := by
  unfold execBfx
  with_reducible apply scalarOp_canon
  with_reducible assumption

theorem execBfxn_canon (r : Ring) (d : SReg) (a : SReg) (b : SReg) (s : State) (ws : s.MemoryCanonical) : CanonNext (execBfxn r d a b s) := by
  unfold execBfxn
  with_reducible apply scalarOp_canon
  with_reducible assumption

theorem execBfi_canon (r : Ring) (d : SReg) (a : SReg) (b : SReg) (s : State) (ws : s.MemoryCanonical) : CanonNext (execBfi r d a b s) := by
  unfold execBfi
  with_reducible apply scalarOp_canon
  with_reducible assumption

theorem execFshl_canon (r : Ring) (d : SReg) (a : SReg) (b : SReg) (s : State) (ws : s.MemoryCanonical) : CanonNext (execFshl r d a b s) := by
  unfold execFshl
  with_reducible apply scalarOp_canon
  with_reducible assumption

theorem execFshr_canon (r : Ring) (d : SReg) (a : SReg) (b : SReg) (s : State) (ws : s.MemoryCanonical) : CanonNext (execFshr r d a b s) := by
  unfold execFshr
  with_reducible apply scalarOp_canon
  with_reducible assumption

theorem execMulw_canon (r : Ring) (d : SReg) (a : SReg) (b : SReg) (s : State) (ws : s.MemoryCanonical) : CanonNext (execMulw r d a b s) := by
  unfold execMulw
  with_reducible apply issue_canon
  · with_reducible assumption
  · intro _ _ _
    extract_lets -underBinder +onlyGivenNames x
    with_reducible apply Res.canon_ok
    with_reducible apply Done.one_canon
    with_reducible apply State.countDeprecated_canon
    with_reducible assumption

theorem execCmp_canon (r : Ring) (pd : PReg) (cond : Cond) (a : SReg) (b : SReg) (s : State) (ws : s.MemoryCanonical) : CanonNext (execCmp r pd cond a b s) := by
  unfold execCmp
  with_reducible apply predOp_canon
  with_reducible assumption

theorem execCmpAnd_canon (r : Ring) (pd : PReg) (cond : Cond) (a : SReg) (b : SReg) (s : State) (ws : s.MemoryCanonical) : CanonNext (execCmpAnd r pd cond a b s) := by
  unfold execCmpAnd
  with_reducible apply predOp_canon
  with_reducible assumption

theorem execCmpOr_canon (r : Ring) (pd : PReg) (cond : Cond) (a : SReg) (b : SReg) (s : State) (ws : s.MemoryCanonical) : CanonNext (execCmpOr r pd cond a b s) := by
  unfold execCmpOr
  with_reducible apply predOp_canon
  with_reducible assumption

theorem execCmpi_canon (r : Ring) (pd : PReg) (cond : Cond) (a : SReg) (imm : BitVec 10) (s : State) (ws : s.MemoryCanonical) : CanonNext (execCmpi r pd cond a imm s) := by
  unfold execCmpi
  with_reducible apply predOp_canon
  with_reducible assumption

theorem execPand_canon (r : Ring) (pd : PReg) (pa : PReg) (pb : PReg) (s : State) (ws : s.MemoryCanonical) : CanonNext (execPand r pd pa pb s) := by
  unfold execPand
  with_reducible apply predOp_canon
  with_reducible assumption

theorem execPor_canon (r : Ring) (pd : PReg) (pa : PReg) (pb : PReg) (s : State) (ws : s.MemoryCanonical) : CanonNext (execPor r pd pa pb s) := by
  unfold execPor
  with_reducible apply predOp_canon
  with_reducible assumption

theorem execPxor_canon (r : Ring) (pd : PReg) (pa : PReg) (pb : PReg) (s : State) (ws : s.MemoryCanonical) : CanonNext (execPxor r pd pa pb s) := by
  unfold execPxor
  with_reducible apply predOp_canon
  with_reducible assumption

theorem execPnot_canon (r : Ring) (pd : PReg) (pa : PReg) (s : State) (ws : s.MemoryCanonical) : CanonNext (execPnot r pd pa s) := by
  unfold execPnot
  with_reducible apply predOp_canon
  with_reducible assumption

theorem execPmov_canon (r : Ring) (pd : PReg) (pa : PReg) (s : State) (ws : s.MemoryCanonical) : CanonNext (execPmov r pd pa s) := by
  unfold execPmov
  with_reducible apply predOp_canon
  with_reducible assumption

/-! ### What Machine/VArith.lean defines -/

theorem vecRed_canon (f : Fmt) (op : RedOp) (vd : VReg) (va : VReg) (e : Bool) (c : CoreId) (s : State) (ws : s.MemoryCanonical) : (vecRed f op vd va e c s).Canon := by
  unfold vecRed
  with_reducible apply vecWhole_canon
  with_reducible assumption

theorem vecScan_canon (f : Fmt) (op : RedOp) (vd : VReg) (va : VReg) (e : Bool) (c : CoreId) (s : State) (ws : s.MemoryCanonical) : (vecScan f op vd va e c s).Canon := by
  unfold vecScan
  with_reducible apply vecWhole_canon
  with_reducible assumption

theorem fusedOp_canon (np : Bool) (nc : Bool) (f : Fmt) (vd : VReg5) (va : VReg5) (vb : VReg5) (vc : VReg5) (e : Bool) (c : CoreId) (s : State) (ws : s.MemoryCanonical) : (fusedOp np nc f vd va vb vc e c s).Canon := by
  unfold fusedOp
  with_reducible apply vecMap_canon
  with_reducible assumption

theorem execVadd_canon (r : Ring) (t : Fmt) (e : Bool) (vd : VReg) (va : VReg) (vb : VReg) (s : State) (ws : s.MemoryCanonical) : CanonNext (execVadd r t e vd va vb s) := by
  unfold execVadd
  with_reducible apply issue_canon
  · with_reducible assumption
  · intro _ _ _
    with_reducible apply vecMap_canon
    with_reducible assumption

theorem execVsub_canon (r : Ring) (t : Fmt) (e : Bool) (vd : VReg) (va : VReg) (vb : VReg) (s : State) (ws : s.MemoryCanonical) : CanonNext (execVsub r t e vd va vb s) := by
  unfold execVsub
  with_reducible apply issue_canon
  · with_reducible assumption
  · intro _ _ _
    with_reducible apply vecMap_canon
    with_reducible assumption

theorem execVmul_canon (r : Ring) (t : Fmt) (e : Bool) (vd : VReg) (va : VReg) (vb : VReg) (s : State) (ws : s.MemoryCanonical) : CanonNext (execVmul r t e vd va vb s) := by
  unfold execVmul
  with_reducible apply issue_canon
  · with_reducible assumption
  · intro _ _ _
    with_reducible apply vecMap_canon
    with_reducible assumption

theorem execVmin_canon (r : Ring) (t : Fmt) (e : Bool) (vd : VReg) (va : VReg) (vb : VReg) (s : State) (ws : s.MemoryCanonical) : CanonNext (execVmin r t e vd va vb s) := by
  unfold execVmin
  with_reducible apply issue_canon
  · with_reducible assumption
  · intro _ _ _
    with_reducible apply vecMap_canon
    with_reducible assumption

theorem execVmax_canon (r : Ring) (t : Fmt) (e : Bool) (vd : VReg) (va : VReg) (vb : VReg) (s : State) (ws : s.MemoryCanonical) : CanonNext (execVmax r t e vd va vb s) := by
  unfold execVmax
  with_reducible apply issue_canon
  · with_reducible assumption
  · intro _ _ _
    with_reducible apply vecMap_canon
    with_reducible assumption

theorem execVdiv_canon (r : Ring) (t : Fmt) (e : Bool) (vd : VReg) (va : VReg) (vb : VReg) (s : State) (ws : s.MemoryCanonical) : CanonNext (execVdiv r t e vd va vb s) := by
  unfold execVdiv
  with_reducible apply issue_canon
  · with_reducible assumption
  · intro _ _ _
    with_reducible apply vecMap_canon
    with_reducible assumption

theorem execVscale_canon (r : Ring) (t : Fmt) (e : Bool) (vd : VReg) (va : VReg) (vb : VReg) (s : State) (ws : s.MemoryCanonical) : CanonNext (execVscale r t e vd va vb s) := by
  unfold execVscale
  with_reducible apply issue_canon
  · with_reducible assumption
  · intro _ _ _
    with_reducible apply vecMap_canon
    with_reducible assumption

theorem execVmulh_canon (r : Ring) (t : Fmt) (e : Bool) (vd : VReg) (va : VReg) (vb : VReg) (s : State) (ws : s.MemoryCanonical) : CanonNext (execVmulh r t e vd va vb s) := by
  unfold execVmulh
  with_reducible apply issue_canon
  · with_reducible assumption
  · intro _ _ _
    with_reducible apply vecMap_canon
    with_reducible assumption

theorem execVadds_canon (r : Ring) (t : Fmt) (e : Bool) (vd : VReg) (va : VReg) (vb : VReg) (s : State) (ws : s.MemoryCanonical) : CanonNext (execVadds r t e vd va vb s) := by
  unfold execVadds
  with_reducible apply issue_canon
  · with_reducible assumption
  · intro _ _ _
    with_reducible apply vecMap_canon
    with_reducible assumption

theorem execVsubs_canon (r : Ring) (t : Fmt) (e : Bool) (vd : VReg) (va : VReg) (vb : VReg) (s : State) (ws : s.MemoryCanonical) : CanonNext (execVsubs r t e vd va vb s) := by
  unfold execVsubs
  with_reducible apply issue_canon
  · with_reducible assumption
  · intro _ _ _
    with_reducible apply vecMap_canon
    with_reducible assumption

theorem execVbfx_canon (r : Ring) (t : Fmt) (e : Bool) (vd : VReg) (va : VReg) (vb : VReg) (s : State) (ws : s.MemoryCanonical) : CanonNext (execVbfx r t e vd va vb s) := by
  unfold execVbfx
  with_reducible apply issue_canon
  · with_reducible assumption
  · intro _ _ _
    with_reducible apply vecMap_canon
    with_reducible assumption

theorem execVfmaF32F64_canon (r : Ring) (vd : VReg5) (e : Bool) (va : VReg5) (vb : VReg5) (vc : VReg5) (t : Bool) (s : State) (ws : s.MemoryCanonical) : CanonNext (execVfmaF32F64 r vd e va vb vc t s) := by
  unfold execVfmaF32F64
  with_reducible apply issue_canon
  · with_reducible assumption
  · intro _ _ _
    with_reducible apply fusedOp_canon
    with_reducible assumption

theorem execVfmaBf16F16_canon (r : Ring) (vd : VReg5) (e : Bool) (va : VReg5) (vb : VReg5) (vc : VReg5) (t : Bool) (s : State) (ws : s.MemoryCanonical) : CanonNext (execVfmaBf16F16 r vd e va vb vc t s) := by
  unfold execVfmaBf16F16
  with_reducible apply issue_canon
  · with_reducible assumption
  · intro _ _ _
    with_reducible apply fusedOp_canon
    with_reducible assumption

theorem execVfmsF32F64_canon (r : Ring) (vd : VReg5) (e : Bool) (va : VReg5) (vb : VReg5) (vc : VReg5) (t : Bool) (s : State) (ws : s.MemoryCanonical) : CanonNext (execVfmsF32F64 r vd e va vb vc t s) := by
  unfold execVfmsF32F64
  with_reducible apply issue_canon
  · with_reducible assumption
  · intro _ _ _
    with_reducible apply fusedOp_canon
    with_reducible assumption

theorem execVfmsBf16F16_canon (r : Ring) (vd : VReg5) (e : Bool) (va : VReg5) (vb : VReg5) (vc : VReg5) (t : Bool) (s : State) (ws : s.MemoryCanonical) : CanonNext (execVfmsBf16F16 r vd e va vb vc t s) := by
  unfold execVfmsBf16F16
  with_reducible apply issue_canon
  · with_reducible assumption
  · intro _ _ _
    with_reducible apply fusedOp_canon
    with_reducible assumption

theorem execVfnmaF32F64_canon (r : Ring) (vd : VReg5) (e : Bool) (va : VReg5) (vb : VReg5) (vc : VReg5) (t : Bool) (s : State) (ws : s.MemoryCanonical) : CanonNext (execVfnmaF32F64 r vd e va vb vc t s) := by
  unfold execVfnmaF32F64
  with_reducible apply issue_canon
  · with_reducible assumption
  · intro _ _ _
    with_reducible apply fusedOp_canon
    with_reducible assumption

theorem execVfnmaBf16F16_canon (r : Ring) (vd : VReg5) (e : Bool) (va : VReg5) (vb : VReg5) (vc : VReg5) (t : Bool) (s : State) (ws : s.MemoryCanonical) : CanonNext (execVfnmaBf16F16 r vd e va vb vc t s) := by
  unfold execVfnmaBf16F16
  with_reducible apply issue_canon
  · with_reducible assumption
  · intro _ _ _
    with_reducible apply fusedOp_canon
    with_reducible assumption

theorem execVabs_canon (r : Ring) (t : Fmt) (e : Bool) (vd : VReg) (va : VReg) (s : State) (ws : s.MemoryCanonical) : CanonNext (execVabs r t e vd va s) := by
  unfold execVabs
  with_reducible apply issue_canon
  · with_reducible assumption
  · intro _ _ _
    with_reducible apply vecMap_canon
    with_reducible assumption

theorem execVneg_canon (r : Ring) (t : Fmt) (e : Bool) (vd : VReg) (va : VReg) (s : State) (ws : s.MemoryCanonical) : CanonNext (execVneg r t e vd va s) := by
  unfold execVneg
  with_reducible apply issue_canon
  · with_reducible assumption
  · intro _ _ _
    with_reducible apply vecMap_canon
    with_reducible assumption

theorem execVsqrt_canon (r : Ring) (t : Fmt) (e : Bool) (vd : VReg) (va : VReg) (s : State) (ws : s.MemoryCanonical) : CanonNext (execVsqrt r t e vd va s) := by
  unfold execVsqrt
  with_reducible apply issue_canon
  · with_reducible assumption
  · intro _ _ _
    with_reducible apply vecMap_canon
    with_reducible assumption

theorem execVrcp_canon (r : Ring) (t : Fmt) (e : Bool) (vd : VReg) (va : VReg) (s : State) (ws : s.MemoryCanonical) : CanonNext (execVrcp r t e vd va s) := by
  unfold execVrcp
  with_reducible apply issue_canon
  · with_reducible assumption
  · intro _ _ _
    with_reducible apply vecMap_canon
    with_reducible assumption

theorem execVrsq_canon (r : Ring) (t : Fmt) (e : Bool) (vd : VReg) (va : VReg) (s : State) (ws : s.MemoryCanonical) : CanonNext (execVrsq r t e vd va s) := by
  unfold execVrsq
  with_reducible apply issue_canon
  · with_reducible assumption
  · intro _ _ _
    with_reducible apply vecMap_canon
    with_reducible assumption

theorem execVexp2_canon (r : Ring) (t : Fmt) (e : Bool) (vd : VReg) (va : VReg) (s : State) (ws : s.MemoryCanonical) : CanonNext (execVexp2 r t e vd va s) := by
  unfold execVexp2
  with_reducible apply issue_canon
  · with_reducible assumption
  · intro _ _ _
    with_reducible apply vecMap_canon
    with_reducible assumption

theorem execVlog2_canon (r : Ring) (t : Fmt) (e : Bool) (vd : VReg) (va : VReg) (s : State) (ws : s.MemoryCanonical) : CanonNext (execVlog2 r t e vd va s) := by
  unfold execVlog2
  with_reducible apply issue_canon
  · with_reducible assumption
  · intro _ _ _
    with_reducible apply vecMap_canon
    with_reducible assumption

theorem execVpopc_canon (r : Ring) (t : Wd) (e : Bool) (vd : VReg) (va : VReg) (s : State) (ws : s.MemoryCanonical) : CanonNext (execVpopc r t e vd va s) := by
  unfold execVpopc
  with_reducible apply issue_canon
  · with_reducible assumption
  · intro _ _ _
    with_reducible apply vecMap_canon
    with_reducible assumption

theorem execVclz_canon (r : Ring) (t : Wd) (e : Bool) (vd : VReg) (va : VReg) (s : State) (ws : s.MemoryCanonical) : CanonNext (execVclz r t e vd va s) := by
  unfold execVclz
  with_reducible apply issue_canon
  · with_reducible assumption
  · intro _ _ _
    with_reducible apply vecMap_canon
    with_reducible assumption

theorem execVand_canon (r : Ring) (e : Bool) (vd : VReg) (va : VReg) (vb : VReg) (s : State) (ws : s.MemoryCanonical) : CanonNext (execVand r e vd va vb s) := by
  unfold execVand
  with_reducible apply issue_canon
  · with_reducible assumption
  · intro _ _ _
    with_reducible apply vecMap_canon
    with_reducible assumption

theorem execVor_canon (r : Ring) (e : Bool) (vd : VReg) (va : VReg) (vb : VReg) (s : State) (ws : s.MemoryCanonical) : CanonNext (execVor r e vd va vb s) := by
  unfold execVor
  with_reducible apply issue_canon
  · with_reducible assumption
  · intro _ _ _
    with_reducible apply vecMap_canon
    with_reducible assumption

theorem execVxor_canon (r : Ring) (e : Bool) (vd : VReg) (va : VReg) (vb : VReg) (s : State) (ws : s.MemoryCanonical) : CanonNext (execVxor r e vd va vb s) := by
  unfold execVxor
  with_reducible apply issue_canon
  · with_reducible assumption
  · intro _ _ _
    with_reducible apply vecMap_canon
    with_reducible assumption

theorem execVsll_canon (r : Ring) (t : Wd) (e : Bool) (vd : VReg) (va : VReg) (vb : VReg) (s : State) (ws : s.MemoryCanonical) : CanonNext (execVsll r t e vd va vb s) := by
  unfold execVsll
  with_reducible apply issue_canon
  · with_reducible assumption
  · intro _ _ _
    with_reducible apply vecMap_canon
    with_reducible assumption

theorem execVsrl_canon (r : Ring) (t : Wd) (e : Bool) (vd : VReg) (va : VReg) (vb : VReg) (s : State) (ws : s.MemoryCanonical) : CanonNext (execVsrl r t e vd va vb s) := by
  unfold execVsrl
  with_reducible apply issue_canon
  · with_reducible assumption
  · intro _ _ _
    with_reducible apply vecMap_canon
    with_reducible assumption

theorem execVsra_canon (r : Ring) (t : Wd) (e : Bool) (vd : VReg) (va : VReg) (vb : VReg) (s : State) (ws : s.MemoryCanonical) : CanonNext (execVsra r t e vd va vb s) := by
  unfold execVsra
  with_reducible apply issue_canon
  · with_reducible assumption
  · intro _ _ _
    with_reducible apply vecMap_canon
    with_reducible assumption

theorem execVfsh_canon (r : Ring) (t : Wd) (e : Bool) (vd : VReg) (va : VReg) (vb : VReg) (s : State) (ws : s.MemoryCanonical) : CanonNext (execVfsh r t e vd va vb s) := by
  unfold execVfsh
  with_reducible apply issue_canon
  · with_reducible assumption
  · intro _ _ _
    with_reducible apply vecMap_canon
    with_reducible assumption

theorem execVcmp_canon (r : Ring) (md : KReg) (cond : Cond) (va : VReg) (vb : VReg) (t : Fmt) (s : State) (ws : s.MemoryCanonical) : CanonNext (execVcmp r md cond va vb t s) := by
  unfold execVcmp
  with_reducible apply issue_canon
  · with_reducible assumption
  · intro _ _ _
    with_reducible apply vecTest_canon
    with_reducible assumption

theorem execVclass_canon (r : Ring) (md : KReg) (va : VReg) (set : BitVec 6) (t : Fmt) (s : State) (ws : s.MemoryCanonical) : CanonNext (execVclass r md va set t s) := by
  unfold execVclass
  with_reducible apply issue_canon
  · with_reducible assumption
  · intro _ _ _
    with_reducible apply vecTest_canon
    with_reducible assumption

theorem execVsel_canon (r : Ring) (e : Bool) (vd : VReg) (va : VReg) (vb : VReg) (s : State) (ws : s.MemoryCanonical) : CanonNext (execVsel r e vd va vb s) := by
  unfold execVsel
  with_reducible apply issue_canon
  · with_reducible assumption
  · intro _ _ _
    with_reducible apply vecWhole_canon
    with_reducible assumption

theorem execVmov_canon (r : Ring) (e : Bool) (vd : VReg) (va : VReg) (s : State) (ws : s.MemoryCanonical) : CanonNext (execVmov r e vd va s) := by
  unfold execVmov
  with_reducible apply issue_canon
  · with_reducible assumption
  · intro _ _ _
    with_reducible apply vecMap_canon
    with_reducible assumption

theorem execVmsel_canon (r : Ring) (mk : KReg) (s : State) (ws : s.MemoryCanonical) : CanonNext (execVmsel r mk s) := by
  unfold execVmsel
  with_reducible apply issue_canon
  · with_reducible assumption
  · intro _ _ _
    with_reducible apply Res.canon_ok
    with_reducible apply Done.plain_canon
    with_reducible apply State.modCtx_canon
    with_reducible assumption

theorem execVredSum_canon (r : Ring) (t : Fmt) (e : Bool) (vd : VReg) (va : VReg) (s : State) (ws : s.MemoryCanonical) : CanonNext (execVredSum r t e vd va s) := by
  unfold execVredSum
  with_reducible apply issue_canon
  · with_reducible assumption
  · intro _ _ _
    with_reducible apply vecRed_canon
    with_reducible assumption

theorem execVredMin_canon (r : Ring) (t : Fmt) (e : Bool) (vd : VReg) (va : VReg) (s : State) (ws : s.MemoryCanonical) : CanonNext (execVredMin r t e vd va s) := by
  unfold execVredMin
  with_reducible apply issue_canon
  · with_reducible assumption
  · intro _ _ _
    with_reducible apply vecRed_canon
    with_reducible assumption

theorem execVredMax_canon (r : Ring) (t : Fmt) (e : Bool) (vd : VReg) (va : VReg) (s : State) (ws : s.MemoryCanonical) : CanonNext (execVredMax r t e vd va s) := by
  unfold execVredMax
  with_reducible apply issue_canon
  · with_reducible assumption
  · intro _ _ _
    with_reducible apply vecRed_canon
    with_reducible assumption

theorem execVscanSum_canon (r : Ring) (t : Fmt) (e : Bool) (vd : VReg) (va : VReg) (s : State) (ws : s.MemoryCanonical) : CanonNext (execVscanSum r t e vd va s) := by
  unfold execVscanSum
  with_reducible apply issue_canon
  · with_reducible assumption
  · intro _ _ _
    with_reducible apply vecScan_canon
    with_reducible assumption

theorem execVscanMin_canon (r : Ring) (t : Fmt) (e : Bool) (vd : VReg) (va : VReg) (s : State) (ws : s.MemoryCanonical) : CanonNext (execVscanMin r t e vd va s) := by
  unfold execVscanMin
  with_reducible apply issue_canon
  · with_reducible assumption
  · intro _ _ _
    with_reducible apply vecScan_canon
    with_reducible assumption

theorem execVscanMax_canon (r : Ring) (t : Fmt) (e : Bool) (vd : VReg) (va : VReg) (s : State) (ws : s.MemoryCanonical) : CanonNext (execVscanMax r t e vd va s) := by
  unfold execVscanMax
  with_reducible apply issue_canon
  · with_reducible assumption
  · intro _ _ _
    with_reducible apply vecScan_canon
    with_reducible assumption

/-! ### What Machine/VConv.lean defines -/

theorem vecCvt_canon (vd : VReg) (vp : BitVec 5) (e : Bool) (fs : Fmt) (fd : Fmt) (c : CoreId) (s : State) (ws : s.MemoryCanonical) : (vecCvt vd vp e fs fd c s).Canon := by
  unfold vecCvt
  extract_lets -underBinder +onlyGivenNames sr
  extract_lets -underBinder +onlyGivenNames srcs
  with_reducible apply vecRead_canon
  · with_reducible assumption
  · intro _ _ _
    extract_lets -underBinder +onlyGivenNames x
    extract_lets -underBinder +onlyGivenNames a
    extract_lets -underBinder +onlyGivenNames b
    extract_lets -underBinder +onlyGivenNames n
    extract_lets -underBinder +onlyGivenNames act
    extract_lets -underBinder +onlyGivenNames rs
    extract_lets -underBinder +onlyGivenNames top
    with_reducible apply Res.canon_ok
    with_reducible apply vecDone_canon
    with_reducible assumption

theorem vecPack_canon (vd : VReg) (vp : BitVec 5) (e : Bool) (fs : Fmt) (fd : Fmt) (c : CoreId) (s : State) (ws : s.MemoryCanonical) : (vecPack vd vp e fs fd c s).Canon := by
  unfold vecPack
  with_reducible apply vecWhole_canon
  with_reducible assumption

theorem vecUnpk_canon (vd : VReg) (vp : BitVec 5) (fs : Fmt) (fd : Fmt) (c : CoreId) (s : State) (ws : s.MemoryCanonical) : (vecUnpk vd vp fs fd c s).Canon := by
  unfold vecUnpk
  extract_lets -underBinder +onlyGivenNames g
  extract_lets -underBinder +onlyGivenNames src
  extract_lets -underBinder +onlyGivenNames dsts
  with_reducible apply vecRead_canon
  · with_reducible assumption
  · intro _ _ _
    extract_lets -underBinder +onlyGivenNames x
    extract_lets -underBinder +onlyGivenNames a
    extract_lets -underBinder +onlyGivenNames per
    extract_lets -underBinder +onlyGivenNames lands
    with_reducible apply Res.canon_ok
    with_reducible apply Done.canon_mk
    with_reducible assumption

theorem execVcvt_canon (r : Ring) (vd : VReg) (vp : BitVec 5) (e : Bool) (fs : Fmt) (fd : Fmt) (s : State) (ws : s.MemoryCanonical) : CanonNext (execVcvt r vd vp e fs fd s) := by
  unfold execVcvt
  with_reducible apply issue_canon
  · with_reducible assumption
  · intro _ _ _
    with_reducible apply vecCvt_canon
    with_reducible assumption

theorem execVpack_canon (r : Ring) (vd : VReg) (vp : BitVec 5) (e : Bool) (fs : Fmt) (fd : Fmt) (s : State) (ws : s.MemoryCanonical) : CanonNext (execVpack r vd vp e fs fd s) := by
  unfold execVpack
  with_reducible apply issue_canon
  · with_reducible assumption
  · intro _ _ _
    with_reducible apply vecPack_canon
    with_reducible assumption

theorem execVunpk_canon (r : Ring) (vd : VReg) (vp : BitVec 5) (fs : Fmt) (fd : Fmt) (s : State) (ws : s.MemoryCanonical) : CanonNext (execVunpk r vd vp fs fd s) := by
  unfold execVunpk
  with_reducible apply issue_canon
  · with_reducible assumption
  · intro _ _ _
    with_reducible apply vecUnpk_canon
    with_reducible assumption

theorem vecQnt_canon (t : Fmt) (e : Bool) (vd : VReg) (va : VReg) (sx : XReg) (g : QGeo) (c : CoreId) (s : State) (ws : s.MemoryCanonical) : (vecQnt t e vd va sx g c s).Canon := by
  unfold vecQnt
  extract_lets -underBinder +onlyGivenNames a
  with_reducible apply vecRead_canon
  · with_reducible assumption
  · intro _ _ _
    extract_lets -underBinder +onlyGivenNames x
    extract_lets -underBinder +onlyGivenNames v
    extract_lets -underBinder +onlyGivenNames len
    extract_lets -underBinder +onlyGivenNames z
    extract_lets -underBinder +onlyGivenNames ctl
    extract_lets -underBinder +onlyGivenNames ctl
    extract_lets -underBinder +onlyGivenNames bs
    extract_lets -underBinder +onlyGivenNames scales
    extract_lets -underBinder +onlyGivenNames ev
    extract_lets -underBinder +onlyGivenNames lat
    extract_lets -underBinder +onlyGivenNames dv
    with_reducible apply Res.canon_ok
    with_reducible apply Done.canon_mk
    with_reducible assumption

theorem vecDqnt_canon (t : Fmt) (e : Bool) (vd : VReg) (va : VReg) (sx : XReg) (g : QGeo) (c : CoreId) (s : State) (ws : s.MemoryCanonical) : (vecDqnt t e vd va sx g c s).Canon := by
  unfold vecDqnt
  extract_lets -underBinder +onlyGivenNames a
  with_reducible apply vecRead_canon
  · with_reducible assumption
  · intro _ _ _
    extract_lets -underBinder +onlyGivenNames v
    extract_lets -underBinder +onlyGivenNames geo
    extract_lets -underBinder +onlyGivenNames len
    extract_lets -underBinder +onlyGivenNames z
    extract_lets -underBinder +onlyGivenNames as
    split
    · exact Res.canon_fault
    · extract_lets -underBinder +onlyGivenNames rs
      extract_lets -underBinder +onlyGivenNames s1
      have ws1 : s1.MemoryCanonical := by
        unfold s1
        with_reducible apply State.oorNote_canon
        with_reducible assumption
      clear_value s1
      with_reducible apply Res.canon_ok
      with_reducible apply vecDone_canon
      with_reducible assumption

theorem execVqnt_canon (r : Ring) (t : Fmt) (e : Bool) (vd : VReg) (va : VReg) (sx : XReg) (g : QGeo) (s : State) (ws : s.MemoryCanonical) : CanonNext (execVqnt r t e vd va sx g s) := by
  unfold execVqnt
  with_reducible apply issue_canon
  · with_reducible assumption
  · intro _ _ _
    with_reducible apply vecQnt_canon
    with_reducible assumption

theorem execVdqnt_canon (r : Ring) (t : Fmt) (e : Bool) (vd : VReg) (va : VReg) (sx : XReg) (g : QGeo) (s : State) (ws : s.MemoryCanonical) : CanonNext (execVdqnt r t e vd va sx g s) := by
  unfold execVdqnt
  with_reducible apply issue_canon
  · with_reducible assumption
  · intro _ _ _
    with_reducible apply vecDqnt_canon
    with_reducible assumption

theorem execVbcast_canon (r : Ring) (t : Wd) (e : Bool) (vd : VReg) (sx : XReg) (s : State) (ws : s.MemoryCanonical) : CanonNext (execVbcast r t e vd sx s) := by
  unfold execVbcast
  with_reducible apply issue_canon
  · with_reducible assumption
  · intro _ _ _
    with_reducible apply vecMove_canon
    with_reducible assumption

theorem vecExt_canon (t : Wd) (sd : XReg) (va : VReg) (sx : XReg) (c : CoreId) (s : State) (ws : s.MemoryCanonical) : (vecExt t sd va sx c s).Canon := by
  unfold vecExt
  with_reducible apply vecRead_canon
  · with_reducible assumption
  · intro _ _ _
    extract_lets -underBinder +onlyGivenNames x
    extract_lets -underBinder +onlyGivenNames v
    extract_lets -underBinder +onlyGivenNames lat
    with_reducible apply Res.canon_ok
    extract_lets -underBinder +onlyGivenNames __src
    have w__src : __src.s.MemoryCanonical := by
      unfold __src
      with_reducible apply Done.one_canon
      with_reducible assumption
    clear_value __src
    with_reducible apply Done.canon_mk
    with_reducible assumption

theorem execVext_canon (r : Ring) (t : Wd) (sd : XReg) (va : VReg) (sx : XReg) (s : State) (ws : s.MemoryCanonical) : CanonNext (execVext r t sd va sx s) := by
  unfold execVext
  with_reducible apply issue_canon
  · with_reducible assumption
  · intro _ _ _
    with_reducible apply vecExt_canon
    with_reducible assumption

theorem execVins_canon (r : Ring) (t : Wd) (e : Bool) (vd : VReg) (va : VReg) (sx : XReg) (s : State) (ws : s.MemoryCanonical) : CanonNext (execVins r t e vd va sx s) := by
  unfold execVins
  with_reducible apply issue_canon
  · with_reducible assumption
  · intro _ _ _
    with_reducible apply vecMove_canon
    with_reducible assumption

theorem execVperm_canon (r : Ring) (t : Wd) (e : Bool) (vd : VReg) (va : VReg) (vb : VReg) (s : State) (ws : s.MemoryCanonical) : CanonNext (execVperm r t e vd va vb s) := by
  unfold execVperm
  with_reducible apply issue_canon
  · with_reducible assumption
  · intro _ _ _
    with_reducible apply vecMove_canon
    with_reducible assumption

theorem execVrotDn_canon (r : Ring) (t : Wd) (e : Bool) (vd : VReg) (va : VReg) (sx : XReg) (s : State) (ws : s.MemoryCanonical) : CanonNext (execVrotDn r t e vd va sx s) := by
  unfold execVrotDn
  with_reducible apply issue_canon
  · with_reducible assumption
  · intro _ _ _
    with_reducible apply vecMove_canon
    with_reducible assumption

theorem execVrotUp_canon (r : Ring) (t : Wd) (e : Bool) (vd : VReg) (va : VReg) (sx : XReg) (s : State) (ws : s.MemoryCanonical) : CanonNext (execVrotUp r t e vd va sx s) := by
  unfold execVrotUp
  with_reducible apply issue_canon
  · with_reducible assumption
  · intro _ _ _
    with_reducible apply vecMove_canon
    with_reducible assumption

theorem execVslideDn_canon (r : Ring) (t : Wd) (e : Bool) (vd : VReg) (va : VReg) (sx : XReg) (s : State) (ws : s.MemoryCanonical) : CanonNext (execVslideDn r t e vd va sx s) := by
  unfold execVslideDn
  with_reducible apply issue_canon
  · with_reducible assumption
  · intro _ _ _
    with_reducible apply vecMove_canon
    with_reducible assumption

theorem execVslideUp_canon (r : Ring) (t : Wd) (e : Bool) (vd : VReg) (va : VReg) (sx : XReg) (s : State) (ws : s.MemoryCanonical) : CanonNext (execVslideUp r t e vd va sx s) := by
  unfold execVslideUp
  with_reducible apply issue_canon
  · with_reducible assumption
  · intro _ _ _
    with_reducible apply vecMove_canon
    with_reducible assumption

theorem vecLoad_canon (w : Nat) (sp : Space) (srcs : List VReg) (vd : VReg) (e : Bool) (occ : Nat) (mis : Ctx → Option Word) (at_ : Ctx → List Vec → Nat → Word) (c : CoreId) (s : State) (ws : s.MemoryCanonical) : (vecLoad w sp srcs vd e occ mis at_ c s).Canon := by
  unfold vecLoad
  with_reducible apply vecRead_canon
  · with_reducible assumption
  · intro _ _ _
    extract_lets -underBinder +onlyGivenNames x
    extract_lets -underBinder +onlyGivenNames n
    extract_lets -underBinder +onlyGivenNames vs
    extract_lets -underBinder +onlyGivenNames spanOf
    extract_lets -underBinder +onlyGivenNames as
    extract_lets -underBinder +onlyGivenNames reads
    split
    · exact Res.canon_fault
    · extract_lets -underBinder +onlyGivenNames codes
      extract_lets -underBinder +onlyGivenNames s1
      have ws1 : s1.MemoryCanonical := by
        unfold s1
        with_reducible apply State.oorNote_canon
        with_reducible assumption
      clear_value s1
      extract_lets -underBinder +onlyGivenNames lat
      with_reducible apply Res.canon_ok
      with_reducible apply Done.canon_mk
      with_reducible assumption

theorem vecStore_canon (w : Nat) (sp : Space) (idx : List VReg) (vd : VReg) (occ : Nat) (mis : Ctx → Option Word) (at_ : Ctx → List Vec → Nat → Word) (ea : Ctx → List Vec → Nat → Word) (c : CoreId) (s : State) (ws : s.MemoryCanonical) : (vecStore w sp idx vd occ mis at_ ea c s).Canon := by
  unfold vecStore
  with_reducible apply vecRead_canon
  · with_reducible assumption
  · intro _ _ _
    extract_lets -underBinder +onlyGivenNames x
    extract_lets -underBinder +onlyGivenNames n
    extract_lets -underBinder +onlyGivenNames vs
    extract_lets -underBinder +onlyGivenNames v
    extract_lets -underBinder +onlyGivenNames parts
    with_reducible apply streamStores_canon
    · with_reducible assumption
    · intro _ _
      with_reducible apply Res.canon_ok
      extract_lets -underBinder +onlyGivenNames __src
      have w__src : __src.s.MemoryCanonical := by
        unfold __src
        with_reducible apply Done.plain_canon
        with_reducible assumption
      clear_value __src
      with_reducible apply Done.canon_mk
      with_reducible assumption

theorem execVld_canon (r : Ring) (e : Bool) (vd : VReg) (sa : XReg) (sb : XReg) (sp : VSp) (s : State) (ws : s.MemoryCanonical) : CanonNext (execVld r e vd sa sb sp s) := by
  unfold execVld
  with_reducible apply issue_canon
  · with_reducible assumption
  · intro _ _ _
    with_reducible apply vecLoad_canon
    with_reducible assumption

theorem execVst_canon (r : Ring) (vd : VReg) (sa : XReg) (sb : XReg) (sp : VSp) (s : State) (ws : s.MemoryCanonical) : CanonNext (execVst r vd sa sb sp s) := by
  unfold execVst
  with_reducible apply issue_canon
  · with_reducible assumption
  · intro _ _ _
    with_reducible apply vecStore_canon
    with_reducible assumption

theorem execVlds_canon (r : Ring) (t : Wd) (e : Bool) (vd : VReg) (sa : XReg) (sb : XReg) (sp : VSp) (s : State) (ws : s.MemoryCanonical) : CanonNext (execVlds r t e vd sa sb sp s) := by
  unfold execVlds
  with_reducible apply issue_canon
  · with_reducible assumption
  · intro _ _ _
    with_reducible apply vecLoad_canon
    with_reducible assumption

theorem execVsts_canon (r : Ring) (t : Wd) (vd : VReg) (sa : XReg) (sb : XReg) (sp : VSp) (s : State) (ws : s.MemoryCanonical) : CanonNext (execVsts r t vd sa sb sp s) := by
  unfold execVsts
  with_reducible apply issue_canon
  · with_reducible assumption
  · intro _ _ _
    with_reducible apply vecStore_canon
    with_reducible assumption

theorem execVgath_canon (r : Ring) (t : Wd) (e : Bool) (vd : VReg) (va : VReg) (sa : XReg) (s : State) (ws : s.MemoryCanonical) : CanonNext (execVgath r t e vd va sa s) := by
  unfold execVgath
  with_reducible apply issue_canon
  · with_reducible assumption
  · intro _ _ _
    with_reducible apply vecLoad_canon
    with_reducible assumption

theorem execVscat_canon (r : Ring) (t : Wd) (vd : VReg) (va : VReg) (sa : XReg) (s : State) (ws : s.MemoryCanonical) : CanonNext (execVscat r t vd va sa s) := by
  unfold execVscat
  with_reducible apply issue_canon
  · with_reducible assumption
  · intro _ _ _
    with_reducible apply vecStore_canon
    with_reducible assumption

theorem execVlut_canon (r : Ring) (t : Wd) (e : Bool) (vd : VReg) (va : VReg) (sa : XReg) (s : State) (ws : s.MemoryCanonical) : CanonNext (execVlut r t e vd va sa s) := by
  unfold execVlut
  with_reducible apply issue_canon
  · with_reducible assumption
  · intro _ _ _
    with_reducible apply vecLoad_canon
    with_reducible assumption

/-! ### What Machine/Xfer.lean defines -/

theorem enqueue.go_canon (k : CmdKind) (nest : Bool) (ix : Option Nat) (r : Ring) (addr : Word) (c : CoreId) (b : BitVec 512) (t : BitVec 512) (s : State) (ws : s.MemoryCanonical) : (enqueue.go k nest ix r addr c b t s).Canon := by
  unfold enqueue.go
  split
  · with_reducible apply Res.canon_faultIn
    with_reducible assumption
  · extract_lets -underBinder +onlyGivenNames cmd
    with_reducible apply Res.canon_ok
    extract_lets -underBinder +onlyGivenNames __src
    have w__src : __src.s.MemoryCanonical := by
      unfold __src
      with_reducible apply Done.plain_canon
      with_reducible apply State.modCtx_canon
      with_reducible assumption
    clear_value __src
    with_reducible apply Done.canon_mk
    with_reducible assumption

theorem enqueue_canon (k : CmdKind) (nest : Bool) (ix : Option Nat) (r : Ring) (addr : Word) (bs : List Byte) (c : CoreId) (s : State) (ws : s.MemoryCanonical) : (enqueue k nest ix r addr bs c s).Canon := by
  unfold enqueue
  extract_lets -underBinder +onlyGivenNames b
  extract_lets -underBinder +onlyGivenNames t
  split
  · with_reducible apply Res.canon_faultIn
    with_reducible assumption
  · split
    · with_reducible apply Res.canon_ite
      · with_reducible apply Res.canon_faultIn
        with_reducible assumption
      · with_reducible apply enqueue.go_canon
        with_reducible assumption
    · with_reducible apply enqueue.go_canon
      with_reducible assumption

theorem xIssue_canon (k : CmdKind) (nest : Bool) (r : Ring) (pb : XReg) (pv : Bool) (ax : Option XReg) (c : CoreId) (s : State) (ws : s.MemoryCanonical) : (xIssue k nest r pb pv ax c s).Canon := by
  unfold xIssue
  extract_lets -underBinder +onlyGivenNames x
  extract_lets -underBinder +onlyGivenNames addr
  extract_lets -underBinder +onlyGivenNames n
  extract_lets -underBinder +onlyGivenNames ix
  with_reducible apply Res.canon_ite
  · refine Res.canon_wait fun _ _ => ?_
    with_reducible apply id_canon
    with_reducible assumption
  · with_reducible apply Res.canon_ite
    · exact Res.canon_fault
    · with_reducible apply Res.canon_ite
      · with_reducible apply ask_canon
        · intro _ _ _
          split
          · with_reducible apply Res.canon_faultIn
            with_reducible assumption
          · with_reducible apply enqueue_canon
            with_reducible assumption
          · with_reducible apply Res.canon_ok
            with_reducible apply Done.plain_canon
            with_reducible assumption
        · with_reducible assumption
      · extract_lets -underBinder +onlyGivenNames as
        split
        · exact Res.canon_fault
        · with_reducible apply enqueue_canon
          with_reducible apply State.oorNote_canon
          with_reducible assumption

theorem execXcopy_canon (r : Ring) (pb : XReg) (pv : Bool) (s : State) (ws : s.MemoryCanonical) : CanonNext (execXcopy r pb pv s) := by
  unfold execXcopy
  with_reducible apply issue_canon
  · with_reducible assumption
  · intro _ _ _
    with_reducible apply xIssue_canon
    with_reducible assumption

theorem execXnestCopy_canon (r : Ring) (pb : XReg) (pv : Bool) (s : State) (ws : s.MemoryCanonical) : CanonNext (execXnestCopy r pb pv s) := by
  unfold execXnestCopy
  with_reducible apply issue_canon
  · with_reducible assumption
  · intro _ _ _
    with_reducible apply xIssue_canon
    with_reducible assumption

theorem execXnestAcc_canon (r : Ring) (pb : XReg) (pv : Bool) (s : State) (ws : s.MemoryCanonical) : CanonNext (execXnestAcc r pb pv s) := by
  unfold execXnestAcc
  with_reducible apply issue_canon
  · with_reducible assumption
  · intro _ _ _
    with_reducible apply xIssue_canon
    with_reducible assumption

theorem execXnestMcast_canon (r : Ring) (pb : XReg) (pv : Bool) (s : State) (ws : s.MemoryCanonical) : CanonNext (execXnestMcast r pb pv s) := by
  unfold execXnestMcast
  with_reducible apply issue_canon
  · with_reducible assumption
  · intro _ _ _
    with_reducible apply xIssue_canon
    with_reducible assumption

theorem execXnestStrm_canon (r : Ring) (pb : XReg) (pv : Bool) (s : State) (ws : s.MemoryCanonical) : CanonNext (execXnestStrm r pb pv s) := by
  unfold execXnestStrm
  with_reducible apply issue_canon
  · with_reducible assumption
  · intro _ _ _
    with_reducible apply xIssue_canon
    with_reducible assumption

theorem execXmcast_canon (r : Ring) (pb : XReg) (pv : Bool) (s : State) (ws : s.MemoryCanonical) : CanonNext (execXmcast r pb pv s) := by
  unfold execXmcast
  with_reducible apply issue_canon
  · with_reducible assumption
  · intro _ _ _
    with_reducible apply xIssue_canon
    with_reducible assumption

theorem execXacc_canon (r : Ring) (pb : XReg) (pv : Bool) (s : State) (ws : s.MemoryCanonical) : CanonNext (execXacc r pb pv s) := by
  unfold execXacc
  with_reducible apply issue_canon
  · with_reducible assumption
  · intro _ _ _
    with_reducible apply xIssue_canon
    with_reducible assumption

theorem execXstrm_canon (r : Ring) (pb : XReg) (pv : Bool) (s : State) (ws : s.MemoryCanonical) : CanonNext (execXstrm r pb pv s) := by
  unfold execXstrm
  with_reducible apply issue_canon
  · with_reducible assumption
  · intro _ _ _
    with_reducible apply xIssue_canon
    with_reducible assumption

theorem execXgath_canon (r : Ring) (pb : XReg) (ax : XReg) (pv : Bool) (s : State) (ws : s.MemoryCanonical) : CanonNext (execXgath r pb ax pv s) := by
  unfold execXgath
  with_reducible apply issue_canon
  · with_reducible assumption
  · intro _ _ _
    with_reducible apply xIssue_canon
    with_reducible assumption

theorem execXwait_canon (r : Ring) (n : BitVec 5) (s : State) (ws : s.MemoryCanonical) : CanonNext (execXwait r n s) := by
  unfold execXwait
  with_reducible apply issue_canon
  · with_reducible assumption
  · intro _ _ _
    with_reducible apply Res.canon_ite
    · with_reducible apply Res.canon_ok
      with_reducible apply Done.plain_canon
      with_reducible assumption
    · refine Res.canon_wait fun _ _ => ?_
      with_reducible apply id_canon
      with_reducible assumption

theorem fenceIssue_canon (r : Ring) (c : CoreId) (s : State) (ws : s.MemoryCanonical) : (fenceIssue r c s).Canon := by
  unfold fenceIssue
  with_reducible apply Res.canon_ite
  · refine Res.canon_wait fun _ _ => ?_
    with_reducible apply id_canon
    with_reducible assumption
  · extract_lets -underBinder +onlyGivenNames cmd
    with_reducible apply Res.canon_ok
    extract_lets -underBinder +onlyGivenNames __src
    have w__src : __src.s.MemoryCanonical := by
      unfold __src
      with_reducible apply Done.plain_canon
      with_reducible apply State.modCtx_canon
      with_reducible assumption
    clear_value __src
    with_reducible apply Done.canon_mk
    with_reducible assumption

theorem execXfence_canon (r : Ring) (s : State) (ws : s.MemoryCanonical) : CanonNext (execXfence r s) := by
  unfold execXfence
  with_reducible apply issue_canon
  · with_reducible assumption
  · intro _ _ _
    with_reducible apply fenceIssue_canon
    with_reducible assumption

theorem execParameterBlockRead_canon (core : CoreId) (s : State) (ws : s.MemoryCanonical) : CanonNext (execParameterBlockRead core s) := by
  unfold execParameterBlockRead
  with_reducible apply canonNext_next
  with_reducible apply State.answer_canon
  with_reducible assumption

theorem mnestIssue_canon (r : Ring) (c : CoreId) (s : State) (ws : s.MemoryCanonical) : (mnestIssue r c s).Canon := by
  unfold mnestIssue
  extract_lets -underBinder +onlyGivenNames x
  extract_lets -underBinder +onlyGivenNames t
  with_reducible apply Res.canon_ite
  · refine Res.canon_wait fun _ _ => ?_
    with_reducible apply id_canon
    with_reducible assumption
  · split
    · exact Res.canon_fault
    · with_reducible apply Res.canon_ite
      · exact Res.canon_fault
      · split
        · exact Res.canon_fault
        · extract_lets -underBinder +onlyGivenNames sc
          extract_lets -underBinder +onlyGivenNames k
          with_reducible apply Res.canon_ite
          · exact Res.canon_fault
          · split
            · exact Res.canon_fault
            · split
              · exact Res.canon_fault
              · with_reducible apply Res.canon_ite
                · exact Res.canon_fault
                · extract_lets -underBinder +onlyGivenNames n
                  with_reducible apply Res.canon_ok
                  extract_lets -underBinder +onlyGivenNames __src
                  have w__src : __src.s.MemoryCanonical := by
                    unfold __src
                    with_reducible apply Done.plain_canon
                    with_reducible apply State.setNest_canon
                    with_reducible assumption
                  clear_value __src
                  with_reducible apply Done.canon_mk
                  with_reducible assumption

theorem execMnest_canon (r : Ring) (s : State) (ws : s.MemoryCanonical) : CanonNext (execMnest r s) := by
  unfold execMnest
  with_reducible apply issue_canon
  · with_reducible assumption
  · intro _ _ _
    with_reducible apply mnestIssue_canon
    with_reducible assumption

/-! ### What Machine/Dispatch.lean defines -/

theorem exec_canon (i : Instr) (s : State) (hm : s.MemoryCanonical) : CanonNext (exec i s) :=
  match i with
  | .add r d a b => execAdd_canon r d a b s hm
  | .sub r d a b => execSub_canon r d a b s hm
  | .and r d a b => execAnd_canon r d a b s hm
  | .or r d a b => execOr_canon r d a b s hm
  | .xor r d a b => execXor_canon r d a b s hm
  | .andn r d a b => execAndn_canon r d a b s hm
  | .orn r d a b => execOrn_canon r d a b s hm
  | .sll r d a b => execSll_canon r d a b s hm
  | .srl r d a b => execSrl_canon r d a b s hm
  | .sra r d a b => execSra_canon r d a b s hm
  | .rol r d a b => execRol_canon r d a b s hm
  | .ror r d a b => execRor_canon r d a b s hm
  | .sel r d a b => execSel_canon r d a b s hm
  | .min r d a b => execMin_canon r d a b s hm
  | .max r d a b => execMax_canon r d a b s hm
  | .minn r d a b => execMinn_canon r d a b s hm
  | .mul r d a b => execMul_canon r d a b s hm
  | .mulh r d a b => execMulh_canon r d a b s hm
  | .mulhn r d a b => execMulhn_canon r d a b s hm
  | .div r d a b => execDiv_canon r d a b s hm
  | .divn r d a b => execDivn_canon r d a b s hm
  | .rem r d a b => execRem_canon r d a b s hm
  | .remn r d a b => execRemn_canon r d a b s hm
  | .maxn r d a b => execMaxn_canon r d a b s hm
  | .clz r d a => execClz_canon r d a s hm
  | .ctz r d a => execCtz_canon r d a s hm
  | .popc r d a => execPopc_canon r d a s hm
  | .brev r d a => execBrev_canon r d a s hm
  | .bswap r d a => execBswap_canon r d a s hm
  | .sext r d a w1 => execSext_canon r d a w1 s hm
  | .zext r d a w1 => execZext_canon r d a w1 s hm
  | .addi r d a imm => execAddi_canon r d a imm s hm
  | .andi r d a imm => execAndi_canon r d a imm s hm
  | .ori r d a imm => execOri_canon r d a imm s hm
  | .xori r d a imm => execXori_canon r d a imm s hm
  | .muli r d a imm => execMuli_canon r d a imm s hm
  | .slli r d a sh => execSlli_canon r d a sh s hm
  | .srli r d a sh => execSrli_canon r d a sh s hm
  | .srai r d a sh => execSrai_canon r d a sh s hm
  | .rori r d a sh => execRori_canon r d a sh s hm
  | .movi r d imm => execMovi_canon r d imm s hm
  | .movk r d imm => execMovk_canon r d imm s hm
  | .addpc r d imm => execAddpc_canon r d imm s hm
  | .bfx r d a b => execBfx_canon r d a b s hm
  | .bfxn r d a b => execBfxn_canon r d a b s hm
  | .bfi r d a b => execBfi_canon r d a b s hm
  | .fshl r d a b => execFshl_canon r d a b s hm
  | .fshr r d a b => execFshr_canon r d a b s hm
  | .cmp r pd cond a b => execCmp_canon r pd cond a b s hm
  | .cmpAnd r pd cond a b => execCmpAnd_canon r pd cond a b s hm
  | .cmpOr r pd cond a b => execCmpOr_canon r pd cond a b s hm
  | .cmpi r pd cond a imm => execCmpi_canon r pd cond a imm s hm
  | .pand r pd pa pb => execPand_canon r pd pa pb s hm
  | .por r pd pa pb => execPor_canon r pd pa pb s hm
  | .pxor r pd pa pb => execPxor_canon r pd pa pb s hm
  | .pnot r pd pa => execPnot_canon r pd pa s hm
  | .pmov r pd pa => execPmov_canon r pd pa s hm
  | .br r p neg off => execBr_canon r p neg off s hm
  | .jmp r off => execJmp_canon r off s hm
  | .call r off => execCall_canon r off s hm
  | .jr r a => execJr_canon r a s hm
  | .jalr r d a => execJalr_canon r d a s hm
  | .ret r => execRet_canon r s hm
  | .loop r d imm => execLoop_canon r d imm s hm
  | .nop r => execNop_canon r s hm
  | .skip r p neg n => execSkip_canon r p neg n s hm
  | .join r k => execJoin_canon r k s hm
  | .exit r => execExit_canon r s hm
  | .ld r d a sz sp off => execLd_canon r d a sz sp off s hm
  | .st r d a sz sp off => execSt_canon r d a sz sp off s hm
  | .ldx r d a b sz sp => execLdx_canon r d a b sz sp s hm
  | .stx r d a b sz sp => execStx_canon r d a b sz sp s hm
  | .pft r a sz sp off => execPft_canon r a sz sp off s hm
  | .ldVm r d a sz off => execLdVm_canon r d a sz off s hm
  | .stVm r d a sz off => execStVm_canon r d a sz off s hm
  | .ldxVm r d a b sz => execLdxVm_canon r d a b sz s hm
  | .stxVm r d a b sz => execStxVm_canon r d a b sz s hm
  | .pftVm r a sz off => execPftVm_canon r a sz off s hm
  | .amoAdd r d a b => execAmoAdd_canon r d a b s hm
  | .amoAnd r d a b => execAmoAnd_canon r d a b s hm
  | .amoOr r d a b => execAmoOr_canon r d a b s hm
  | .amoXor r d a b => execAmoXor_canon r d a b s hm
  | .amoMin r d a b => execAmoMin_canon r d a b s hm
  | .amoMax r d a b => execAmoMax_canon r d a b s hm
  | .amoMinn r d a b => execAmoMinn_canon r d a b s hm
  | .amoMaxn r d a b => execAmoMaxn_canon r d a b s hm
  | .amoSwap r d a b => execAmoSwap_canon r d a b s hm
  | .cas r d a b => execCas_canon r d a b s hm
  | .arm r d a b => execArm_canon r d a b s hm
  | .arrv r d a b => execArrv_canon r d a b s hm
  | .await r pd a b => execAwait_canon r pd a b s hm
  | .bari r sp a b => execBari_canon r sp a b s hm
  | .bara r sp a c1 drop => execBara_canon r sp a c1 drop s hm
  | .barw r pd a b => execBarw_canon r pd a b s hm
  | .seal r a => execSeal_canon r a s hm
  | .unseal r a => execUnseal_canon r a s hm
  | .fence r sc => execFence_canon r sc s hm
  | .csrr r g csr => execCsrr_canon r g csr s hm
  | .csrw r g csr => execCsrw_canon r g csr s hm
  | .csrs r g csr => execCsrs_canon r g csr s hm
  | .csrc r g csr => execCsrc_canon r g csr s hm
  | .time r g => execTime_canon r g s hm
  | .view r vd a => execView_canon r vd a s hm
  | .tdesc r d a b => execTdesc_canon r d a b s hm
  | .trap r code => execTrap_canon r code s hm
  | .eret r => execEret_canon r s hm
  | .token r dir n => execToken_canon r dir n s hm
  | .twait r dir n => execTwait_canon r dir n s hm
  | .launch r d a b => execLaunch_canon r d a b s hm
  | .launchCr r d a b => execLaunchCr_canon r d a b s hm
  | .cancelTask r d a b => execCancelTask_canon r d a b s hm
  | .cancelLaunch r d a => execCancelLaunch_canon r d a s hm
  | .cancelGraph r d a => execCancelGraph_canon r d a s hm
  | .cancelPhase r d a => execCancelPhase_canon r d a s hm
  | .cancelJob r d a => execCancelJob_canon r d a s hm
  | .phase r d => execPhase_canon r d s hm
  | .ckpt r d => execCkpt_canon r d s hm
  | .estim r a => execEstim_canon r a s hm
  | .clstep r d a b => execClstep_canon r d a b s hm
  | .clwait r pd a b => execClwait_canon r pd a b s hm
  | .mulw r d a b => execMulw_canon r d a b s hm
  | .dictionaryCode e ix => execDictionaryCode_canon e ix s hm
  | .vadd r t e vd va vb => execVadd_canon r t e vd va vb s hm
  | .vsub r t e vd va vb => execVsub_canon r t e vd va vb s hm
  | .vmul r t e vd va vb => execVmul_canon r t e vd va vb s hm
  | .vmin r t e vd va vb => execVmin_canon r t e vd va vb s hm
  | .vmax r t e vd va vb => execVmax_canon r t e vd va vb s hm
  | .vdiv r t e vd va vb => execVdiv_canon r t e vd va vb s hm
  | .vfmaF32F64 r vd e va vb vc t => execVfmaF32F64_canon r vd e va vb vc t s hm
  | .vfmaBf16F16 r vd e va vb vc t => execVfmaBf16F16_canon r vd e va vb vc t s hm
  | .vfmsF32F64 r vd e va vb vc t => execVfmsF32F64_canon r vd e va vb vc t s hm
  | .vfmsBf16F16 r vd e va vb vc t => execVfmsBf16F16_canon r vd e va vb vc t s hm
  | .vfnmaF32F64 r vd e va vb vc t => execVfnmaF32F64_canon r vd e va vb vc t s hm
  | .vfnmaBf16F16 r vd e va vb vc t => execVfnmaBf16F16_canon r vd e va vb vc t s hm
  | .vabs r t e vd va => execVabs_canon r t e vd va s hm
  | .vneg r t e vd va => execVneg_canon r t e vd va s hm
  | .vsqrt r t e vd va => execVsqrt_canon r t e vd va s hm
  | .vrcp r t e vd va => execVrcp_canon r t e vd va s hm
  | .vrsq r t e vd va => execVrsq_canon r t e vd va s hm
  | .vexp2 r t e vd va => execVexp2_canon r t e vd va s hm
  | .vlog2 r t e vd va => execVlog2_canon r t e vd va s hm
  | .vscale r t e vd va vb => execVscale_canon r t e vd va vb s hm
  | .vand r e vd va vb => execVand_canon r e vd va vb s hm
  | .vor r e vd va vb => execVor_canon r e vd va vb s hm
  | .vxor r e vd va vb => execVxor_canon r e vd va vb s hm
  | .vsll r t e vd va vb => execVsll_canon r t e vd va vb s hm
  | .vsrl r t e vd va vb => execVsrl_canon r t e vd va vb s hm
  | .vsra r t e vd va vb => execVsra_canon r t e vd va vb s hm
  | .vmulh r t e vd va vb => execVmulh_canon r t e vd va vb s hm
  | .vadds r t e vd va vb => execVadds_canon r t e vd va vb s hm
  | .vsubs r t e vd va vb => execVsubs_canon r t e vd va vb s hm
  | .vcmp r md cond va vb t => execVcmp_canon r md cond va vb t s hm
  | .vsel r e vd va vb => execVsel_canon r e vd va vb s hm
  | .vclass r md va set t => execVclass_canon r md va set t s hm
  | .vcvt r vd vp e fs fd => execVcvt_canon r vd vp e fs fd s hm
  | .vpack r vd vp e fs fd => execVpack_canon r vd vp e fs fd s hm
  | .vunpk r vd vp fs fd => execVunpk_canon r vd vp fs fd s hm
  | .vmov r e vd va => execVmov_canon r e vd va s hm
  | .vbcast r t e vd sx => execVbcast_canon r t e vd sx s hm
  | .vext r t sd va sx => execVext_canon r t sd va sx s hm
  | .vins r t e vd va sx => execVins_canon r t e vd va sx s hm
  | .vperm r t e vd va vb => execVperm_canon r t e vd va vb s hm
  | .vrotDn r t e vd va sx => execVrotDn_canon r t e vd va sx s hm
  | .vrotUp r t e vd va sx => execVrotUp_canon r t e vd va sx s hm
  | .vslideDn r t e vd va sx => execVslideDn_canon r t e vd va sx s hm
  | .vslideUp r t e vd va sx => execVslideUp_canon r t e vd va sx s hm
  | .vredSum r t e vd va => execVredSum_canon r t e vd va s hm
  | .vredMin r t e vd va => execVredMin_canon r t e vd va s hm
  | .vredMax r t e vd va => execVredMax_canon r t e vd va s hm
  | .vscanSum r t e vd va => execVscanSum_canon r t e vd va s hm
  | .vscanMin r t e vd va => execVscanMin_canon r t e vd va s hm
  | .vscanMax r t e vd va => execVscanMax_canon r t e vd va s hm
  | .vld r e vd sa sb sp => execVld_canon r e vd sa sb sp s hm
  | .vst r vd sa sb sp => execVst_canon r vd sa sb sp s hm
  | .vlds r t e vd sa sb sp => execVlds_canon r t e vd sa sb sp s hm
  | .vsts r t vd sa sb sp => execVsts_canon r t vd sa sb sp s hm
  | .vgath r t e vd va sa => execVgath_canon r t e vd va sa s hm
  | .vscat r t vd va sa => execVscat_canon r t vd va sa s hm
  | .vlut r t e vd va sa => execVlut_canon r t e vd va sa s hm
  | .vbfx r t e vd va vb => execVbfx_canon r t e vd va vb s hm
  | .vfsh r t e vd va vb => execVfsh_canon r t e vd va vb s hm
  | .vpopc r t e vd va => execVpopc_canon r t e vd va s hm
  | .vclz r t e vd va => execVclz_canon r t e vd va s hm
  | .vqnt r t e vd va sx g => execVqnt_canon r t e vd va sx g s hm
  | .vdqnt r t e vd va sx g => execVdqnt_canon r t e vd va sx g s hm
  | .vmsel r mk => execVmsel_canon r mk s hm
  | .vnop r => execVnop_canon r s hm
  | .vJoin r k => execVJoin_canon r k s hm
  | .vExit r => execVExit_canon r s hm
  | .mma r acc ta tb z w => execMma_canon r acc ta tb z w s hm
  | .mmai r acc ta tb z w g sx => execMmai_canon r acc ta tb z w g sx s hm
  | .mmax r acc ta tb z w g sx => execMmax_canon r acc ta tb z w g sx s hm
  | .aclr r x => execAclr_canon r x s hm
  | .aadd r x y z => execAadd_canon r x y z s hm
  | .ald r x y => execAld_canon r x y s hm
  | .ast r x y tr => execAst_canon r x y tr s hm
  | .acvt r x y sat scl sx => execAcvt_canon r x y sat scl sx s hm
  | .tld r x sx => execTld_canon r x sx s hm
  | .tst r x y sat => execTst_canon r x y sat s hm
  | .ttr r x y => execTtr_canon r x y s hm
  | .trepk r x y => execTrepk_canon r x y s hm
  | .trepkPk r x y => execTrepkPk_canon r x y s hm
  | .mnest r => execMnest_canon r s hm
  | .mwait r => execMwait_canon r s hm
  | .mstat r => execMstat_canon r s hm
  | .mstatClr r => execMstatClr_canon r s hm
  | .mnop r => execMnop_canon r s hm
  | .mJoin r k => execMJoin_canon r k s hm
  | .mExit r => execMExit_canon r s hm
  | .xcopy r pb pv => execXcopy_canon r pb pv s hm
  | .xnestCopy r pb pv => execXnestCopy_canon r pb pv s hm
  | .xnestAcc r pb pv => execXnestAcc_canon r pb pv s hm
  | .xnestMcast r pb pv => execXnestMcast_canon r pb pv s hm
  | .xnestStrm r pb pv => execXnestStrm_canon r pb pv s hm
  | .xmcast r pb pv => execXmcast_canon r pb pv s hm
  | .xacc r pb pv => execXacc_canon r pb pv s hm
  | .xstrm r pb pv => execXstrm_canon r pb pv s hm
  | .xgath r pb ax pv => execXgath_canon r pb ax pv s hm
  | .xwait r n => execXwait_canon r n s hm
  | .xfence r => execXfence_canon r s hm
  | .xnop r => execXnop_canon r s hm
  | .xJoin r k => execXJoin_canon r k s hm
  | .xExit r => execXExit_canon r s hm
  | .resultLanding core e => execResultLanding_canon core e s hm
  | .accumulatorRead core => execAccumulatorRead_canon core s hm
  | .ringTimeout core e => execRingTimeout_canon core e s hm
  | .handlerEntry core => execHandlerEntry_canon core s hm
  | .frozenTaskReport core => execFrozenTaskReport_canon core s hm
  | .deferredFaultDelivery core e => execDeferredFaultDelivery_canon core e s hm
  | .taskEnd core => execTaskEnd_canon core s hm
  | .launchAcceptance core => execLaunchAcceptance_canon core s hm
  | .placement core lid tidx budget => execPlacement_canon core lid tidx budget s hm
  | .ageLevelRise lid tidx => execAgeLevelRise_canon lid tidx s hm
  | .preload core => execPreload_canon core s hm
  | .withdrawal core => execWithdrawal_canon core s hm
  | .bindCommit core => execBindCommit_canon core s hm
  | .lateStart lid tidx => execLateStart_canon lid tidx s hm
  | .governorWindow core mw => execGovernorWindow_canon core mw s hm
  | .phaseBoundary ctr => execPhaseBoundary_canon ctr s hm
  | .phaseWatchdog core => execPhaseWatchdog_canon core s hm
  | .cancelRelease core => execCancelRelease_canon core s hm
  | .homeAtomic core => execHomeAtomic_canon core s hm
  | .barwBoundExpiry core => execBarwBoundExpiry_canon core s hm
  | .homeControllerAnswer core e => execHomeControllerAnswer_canon core e s hm
  | .storePerformed core => execStorePerformed_canon core s hm
  | .regionCount die idx => execRegionCount_canon die idx s hm
  | .rearmRefire die idx => execRearmRefire_canon die idx s hm
  | .awaitBoundExpiry core => execAwaitBoundExpiry_canon core s hm
  | .generationBump asid => execGenerationBump_canon asid s hm
  | .requestReplay core e => execRequestReplay_canon core e s hm
  | .sweepComplete asid => execSweepComplete_canon asid s hm
  | .sealComplete core => execSealComplete_canon core s hm
  | .unsealComplete core => execUnsealComplete_canon core s hm
  | .replicaPlacement die idx lvl tdie => execReplicaPlacement_canon die idx lvl tdie s hm
  | .bankMarkFailing die lvl bank => execBankMarkFailing_canon die lvl bank s hm
  | .layerFailureNoSpare die lvl bank => execLayerFailureNoSpare_canon die lvl bank s hm
  | .recoveryPoint die lvl => execRecoveryPoint_canon die lvl s hm
  | .shedComplete die lvl => execShedComplete_canon die lvl s hm
  | .patrolScrub die lvl word => execPatrolScrub_canon die lvl word s hm
  | .parameterBlockRead core => execParameterBlockRead_canon core s hm
  | .commandStart core => execCommandStart_canon core s hm
  | .itemPerformed core slot => execItemPerformed_canon core slot s hm
  | .commandComplete core slot => execCommandComplete_canon core slot s hm
  | .itemFailure core slot => execItemFailure_canon core slot s hm
  | .errorRecordDrain q => execErrorRecordDrain_canon q s hm
  | .nestStepStart core => execNestStepStart_canon core s hm
  | .nestStepWatchdog core => execNestStepWatchdog_canon core s hm
  | .nestComplete core => execNestComplete_canon core s hm
  | .preemptionChoice core lid tidx => execPreemptionChoice_canon core lid tidx s hm
  | .checkpointSettle core => execCheckpointSettle_canon core s hm
  | .checkpointWrite core => execCheckpointWrite_canon core s hm
  | .saveFaultService core served => execSaveFaultService_canon core served s hm
  | .checkpointRelease core => execCheckpointRelease_canon core s hm
  | .hangWatchdog core => execHangWatchdog_canon core s hm
  | .emergencyCopy lid tidx => execEmergencyCopy_canon lid tidx s hm
  | .restore core => execRestore_canon core s hm
  | .killAndRerun core => execKillAndRerun_canon core s hm
  | .budgetOverrun core => execBudgetOverrun_canon core s hm
  | .coreSelfCheckFailure core => execCoreSelfCheckFailure_canon core s hm
  | .regrow core => execRegrow_canon core s hm
  | .packageReset => execPackageReset_canon s hm
  | .packageFreeze => execPackageFreeze_canon s hm
  | .freeze h => execFreeze_canon h s hm
  | .freezeResume => execFreezeResume_canon s hm
  | .ptpEventFrame port offset rate => execPtpEventFrame_canon port offset rate s hm
  | .linkTrainingDone port => execLinkTrainingDone_canon port s hm
  | .linkLoss port => execLinkLoss_canon port s hm
  | .frameReceive port bytes fcsOk => execFrameReceive_canon port bytes fcsOk s hm
  | .fabricPacketReceive p => execFabricPacketReceive_canon p s hm
  | .fabricAck id cause => execFabricAck_canon id cause s hm
  | .linkTimeout id => execLinkTimeout_canon id s hm
  | .collectiveStepStart core => execCollectiveStepStart_canon core s hm
  | .collectiveStepComplete core => execCollectiveStepComplete_canon core s hm
  | .clwaitBoundExpiry core => execClwaitBoundExpiry_canon core s hm
  | .toclLaunch h q pkt => execToclLaunch_canon h q pkt s hm
  | .toclCancel h lvl id tidx => execToclCancel_canon h lvl id tidx s hm
  | .toclWrite h va bytes => execToclWrite_canon h va bytes s hm
  | .toclRead h va len => execToclRead_canon h va len s hm
  | .regionCreate h die idx w0 w1 w2 w3 w4 => execRegionCreate_canon h die idx w0 w1 w2 w3 w4 s hm
  | .regionDestroy h die idx => execRegionDestroy_canon h die idx s hm
  | .regionRead h die idx => execRegionRead_canon h die idx s hm
  | .counterSet h kind n target clk => execCounterSet_canon h kind n target clk s hm
  | .sessionBind h n asid unbind => execSessionBind_canon h n asid unbind s hm
  | .regRead h num => execRegRead_canon h num s hm
  | .regWrite h num v => execRegWrite_canon h num v s hm
  | .groupSet h g asid devs rank => execGroupSet_canon h g asid devs rank s hm
  | .ingestSet h q w0 w1 w2 => execIngestSet_canon h q w0 w1 w2 s hm
  | .portSet h port v => execPortSet_canon h port v s hm
  | .ruleSet h port rule v => execRuleSet_canon h port rule v s hm
  | .routeSet h dev port => execRouteSet_canon h dev port s hm
  | .queueSet h q level asid base k cons => execQueueSet_canon h q level asid base k cons s hm
  | .saveSet h asid base size => execSaveSet_canon h asid base size s hm
  | .subSet h n w0 w1 w2 w3 w4 => execSubSet_canon h n w0 w1 w2 w3 w4 s hm
  | .trimSet island mv => execTrimSet_canon island mv s hm
  | .clkSet req => execClkSet_canon req s hm
  | .attest h nonce => execAttest_canon h nonce s hm
  | .fwStage h r => execFwStage_canon h r s hm
  | .fwCommit h => execFwCommit_canon h s hm
  | .handoverReady => execHandoverReady_canon s hm
  | .handoverTimeout => execHandoverTimeout_canon s hm
  | .sensorSample n v => execSensorSample_canon n v s hm
  | .holdTimerExpiry core => execHoldTimerExpiry_canon core s hm
  | .wakeRequest core => execWakeRequest_canon core s hm
  | .wakeAdmit die => execWakeAdmit_canon die s hm
  | .wakeRampDone core parityOk => execWakeRampDone_canon core parityOk s hm
  | .encodingFault core e => execEncodingFault_canon core e s hm
  | .instructionFetchFault core e => execInstructionFetchFault_canon core e s hm
  | .parkedRecordWrite die ix core rec => execParkedRecordWrite_canon die ix core rec s hm

/-! ### What Machine/Turn.lean defines -/

theorem State.comeUp_canon (s : State) (c : CoreId) (e : Strm) (h : Held) (ws : s.MemoryCanonical) : CanonNext (State.comeUp s c e h) := by
  unfold State.comeUp
  split
  · with_reducible apply execEncodingFault_canon
    with_reducible assumption
  · with_reducible apply exec_canon
    with_reducible assumption

theorem State.tryIssue_canon (s : State) (c : CoreId) (e : Strm) (ws : s.MemoryCanonical) : CanonNext (State.tryIssue s c e) := by
  unfold State.tryIssue
  split
  · with_reducible apply State.comeUp_canon
    with_reducible assumption
  · split
    · with_reducible apply execInstructionFetchFault_canon
      with_reducible assumption
    · with_reducible apply execDictionaryCode_canon
      with_reducible assumption
    · with_reducible apply State.comeUp_canon
      with_reducible apply State.hold_canon
      with_reducible assumption

theorem State.settleTurn_canon (s : State) (c : CoreId) (ws : s.MemoryCanonical) : CanonNext (State.settleTurn s c) := by
  unfold State.settleTurn
  extract_lets -underBinder +onlyGivenNames t
  extract_lets -underBinder +onlyGivenNames faulted
  with_reducible apply canonNext_ite
  · with_reducible apply canonNext_next
    with_reducible apply State.modStr_canon
    with_reducible assumption
  · split
    · with_reducible apply State.comeUp_canon
      with_reducible assumption
    · with_reducible apply canonNext_next
      with_reducible assumption

theorem State.strmTurn_canon (s : State) (c : CoreId) (e : Strm) (ws : s.MemoryCanonical) : CanonNext (State.strmTurn s c e) := by
  unfold State.strmTurn
  extract_lets -underBinder +onlyGivenNames k
  extract_lets -underBinder +onlyGivenNames t
  with_reducible apply canonNext_ite
  · with_reducible apply canonNext_next
    with_reducible apply State.landingTurn_canon
    with_reducible assumption
  · extract_lets -underBinder +onlyGivenNames s
    have ws : s.MemoryCanonical := by
      unfold s
      with_reducible apply State.canon_mk
      with_reducible assumption
    clear_value s
    with_reducible apply canonNext_ite
    · with_reducible apply canonNext_next
      with_reducible apply State.canon_ite
      · with_reducible apply State.heldWait_canon
        with_reducible assumption
      · with_reducible assumption
    · with_reducible apply canonNext_ite
      · with_reducible apply canonNext_next
        with_reducible assumption
      · with_reducible apply canonNext_ite
        · with_reducible apply State.settleTurn_canon
          with_reducible assumption
        · with_reducible apply canonNext_ite
          · with_reducible apply execDeferredFaultDelivery_canon
            with_reducible assumption
          · with_reducible apply canonNext_ite
            · with_reducible apply canonNext_next
              with_reducible assumption
            · extract_lets -underBinder +onlyGivenNames s
              have ws : s.MemoryCanonical := by
                unfold s
                with_reducible apply State.modStr_canon
                with_reducible assumption
              clear_value s
              with_reducible apply canonNext_ite
              · with_reducible apply canonNext_next
                with_reducible apply State.annul_canon
                with_reducible assumption
              · with_reducible apply State.tryIssue_canon
                with_reducible assumption

theorem State.windowHook_canon (s : State) (c : CoreId) (ws : s.MemoryCanonical) : (State.windowHook s c).MemoryCanonical := by
  unfold State.windowHook
  with_reducible apply State.canon_ite
  · with_reducible apply State.freezeCore_canon
    with_reducible assumption
  · with_reducible assumption

theorem State.afterTurn_canon (old : State) (s : State) (c : CoreId) (wold : old.MemoryCanonical) (ws : s.MemoryCanonical) : (State.afterTurn old s c).MemoryCanonical := by
  unfold State.afterTurn
  extract_lets -underBinder +onlyGivenNames k0
  extract_lets -underBinder +onlyGivenNames k
  extract_lets -underBinder +onlyGivenNames s1
  have ws1 : s1.MemoryCanonical := by
    unfold s1
    with_reducible apply State.canon_ite
    · with_reducible apply State.withdraw_canon
      with_reducible assumption
    · with_reducible assumption
  clear_value s1
  with_reducible apply State.canon_ite
  · with_reducible assumption
  · with_reducible apply State.windowHook_canon
    with_reducible assumption

theorem State.streamStep_canon (s : State) (c : CoreId) (e : Strm) (ws : s.MemoryCanonical) : CanonNext (State.streamStep s c e) := by
  unfold State.streamStep
  split
  · with_reducible apply canonNext_next
    with_reducible apply State.afterTurn_canon
    · with_reducible assumption
    · refine canon_of_next (by assumption) ?_
      with_reducible apply State.strmTurn_canon
      with_reducible assumption
  · exact canonNext_fault
  · exact canonNext_refused

theorem State.engineStep_canon (s : State) (c : CoreId) (ws : s.MemoryCanonical) : (State.engineStep s c).MemoryCanonical := by
  unfold State.engineStep
  extract_lets -underBinder +onlyGivenNames s
  have ws : s.MemoryCanonical := by
    unfold s
    with_reducible apply State.canon_mk
    with_reducible assumption
  clear_value s
  with_reducible apply State.afterTurn_canon
  · with_reducible assumption
  · with_reducible apply State.collTurn_canon
    with_reducible apply State.engineTurn_canon
    with_reducible assumption

theorem State.afterEvent_canon (old : State) (s : State) (wold : old.MemoryCanonical) (ws : s.MemoryCanonical) : (State.afterEvent old s).MemoryCanonical := by
  unfold State.afterEvent
  refine canon_foldl _ (fun _ _ _ => ?_) _ _ ?_
  · with_reducible apply State.afterTurn_canon
    · with_reducible assumption
    · with_reducible assumption
  · with_reducible assumption

theorem State.offered_canon (s : State) (i : Instr) (ws : s.MemoryCanonical) : CanonNext (State.offered s i) := by
  unfold State.offered
  with_reducible apply canonNext_ite
  · with_reducible apply canonNext_ite
    · with_reducible apply canonNext_next
      with_reducible apply State.canon_mk
      with_reducible assumption
    · split
      · with_reducible apply canonNext_next
        with_reducible apply State.afterEvent_canon
        · with_reducible assumption
        · refine canon_of_next (by assumption) ?_
          with_reducible apply exec_canon
          with_reducible assumption
      · with_reducible apply exec_canon
        with_reducible assumption
  · with_reducible apply canonNext_next
    with_reducible assumption

theorem State.tryHeld_canon (s : State) (i : Instr) (ws : s.MemoryCanonical) : (State.tryHeld s i).MemoryCanonical := by
  unfold State.tryHeld
  with_reducible apply State.canon_ite
  · with_reducible assumption
  · split
    · refine canon_of_next (by assumption) ?_
      with_reducible apply exec_canon
      with_reducible apply State.canon_mk
      with_reducible assumption
    · with_reducible assumption

theorem State.heldReqs_canon (s : State) (ws : s.MemoryCanonical) : (State.heldReqs s).MemoryCanonical := by
  unfold State.heldReqs
  refine canon_foldl _ (fun _ _ _ => ?_) _ _ ?_
  · with_reducible apply State.tryHeld_canon
    with_reducible assumption
  · with_reducible assumption

/-! ### What Machine/Tick.lean defines -/

theorem State.advance_canon (s : State) (ws : s.MemoryCanonical) : (State.advance s).MemoryCanonical := by
  unfold State.advance
  extract_lets -underBinder +onlyGivenNames t
  with_reducible apply State.canon_mk
  with_reducible assumption

theorem State.each_canon (s : State) (l : List CoreId) (f : State → CoreId → State) (ws : s.MemoryCanonical) (wf : ∀ y0 y1, State.MemoryCanonical y0 → (f y0 y1).MemoryCanonical) : (State.each s l f).MemoryCanonical := by
  unfold State.each
  refine canon_foldl _ (fun _ _ _ => ?_) _ _ ?_
  · with_reducible apply wf
    with_reducible assumption
  · with_reducible assumption

theorem State.coreCycle_canon (s : State) (c : CoreId) (ws : s.MemoryCanonical) : (State.coreCycle s c).MemoryCanonical := by
  unfold State.coreCycle
  with_reducible apply State.modCore_canon
  with_reducible assumption

theorem State.refireCores_canon (s : State) (c : CoreId) (ws : s.MemoryCanonical) : (State.refireCores s c).MemoryCanonical := by
  unfold State.refireCores
  refine canon_foldl _ (fun _ _ _ => ?_) _ _ ?_
  · with_reducible apply State.refireCore_canon
    with_reducible assumption
  · with_reducible assumption

theorem State.homes_canon (s : State) (l : List CoreId) (ws : s.MemoryCanonical) : (State.homes s l).MemoryCanonical := by
  unfold State.homes
  extract_lets -underBinder +onlyGivenNames s1
  have ws1 : s1.MemoryCanonical := by
    unfold s1
    with_reducible apply State.canon_ite
    · with_reducible assumption
    · with_reducible apply State.each_canon
      · with_reducible assumption
      · intro _ _ _
        with_reducible apply State.performStores_canon
        with_reducible assumption
  clear_value s1
  extract_lets -underBinder +onlyGivenNames due
  extract_lets -underBinder +onlyGivenNames s2
  have ws2 : s2.MemoryCanonical := by
    unfold s2
    with_reducible apply State.retireAcks_canon
    refine canon_foldl _ (fun _ _ _ => ?_) _ _ ?_
    · with_reducible apply State.countDie_canon
      with_reducible assumption
    · with_reducible apply State.canon_mk
      with_reducible assumption
  clear_value s2
  extract_lets -underBinder +onlyGivenNames s3
  have ws3 : s3.MemoryCanonical := by
    unfold s3
    refine canon_foldl _ (fun _ _ _ => ?_) _ _ ?_
    · with_reducible apply State.refireDie_canon
      with_reducible assumption
    · with_reducible assumption
  clear_value s3
  extract_lets -underBinder +onlyGivenNames __src
  have w__src : __src.MemoryCanonical := by
    unfold __src
    with_reducible apply State.each_canon
    · with_reducible assumption
    · intro _ _ _
      with_reducible apply State.refireCores_canon
      with_reducible assumption
  clear_value __src
  with_reducible apply State.canon_mk
  with_reducible assumption

theorem State.frozenGivesBack_canon (s : State) (c : CoreId) (ws : s.MemoryCanonical) : (State.frozenGivesBack s c).MemoryCanonical := by
  unfold State.frozenGivesBack
  with_reducible apply State.canon_ite
  · with_reducible apply State.withdraw_canon
    with_reducible assumption
  · with_reducible assumption

theorem State.coreSelf_canon (s : State) (c : CoreId) (ws : s.MemoryCanonical) : (State.coreSelf s c).MemoryCanonical := by
  unfold State.coreSelf
  with_reducible apply State.budgetCheck_canon
  with_reducible apply State.taskEnd_canon
  with_reducible apply State.cancelEnds_canon
  with_reducible apply State.killEnds_canon
  with_reducible apply State.restoreStep_canon
  with_reducible apply State.hangCheck_canon
  with_reducible apply State.saveStep_canon
  with_reducible apply State.saveSettle_canon
  with_reducible apply State.frozenReport_canon
  with_reducible apply State.frozenGivesBack_canon
  with_reducible apply State.settle_canon
  with_reducible assumption

theorem State.commitTurn_canon (s : State) (c : CoreId) (ws : s.MemoryCanonical) : (State.commitTurn s c).MemoryCanonical := by
  unfold State.commitTurn
  with_reducible apply State.canon_ite
  · with_reducible apply State.commit_canon
    with_reducible assumption
  · with_reducible assumption

theorem State.wakeNeeded_canon (s : State) (l : List CoreId) (ws : s.MemoryCanonical) : (State.wakeNeeded s l).MemoryCanonical := by
  unfold State.wakeNeeded
  extract_lets -underBinder +onlyGivenNames ks
  refine canon_foldl _ (fun _ _ _ => ?_) _ _ ?_
  · with_reducible apply State.wake_canon
    with_reducible assumption
  · with_reducible assumption

theorem State.powerSelf_canon (s : State) (l : List CoreId) (ws : s.MemoryCanonical) : (State.powerSelf s l).MemoryCanonical := by
  unfold State.powerSelf
  extract_lets -underBinder +onlyGivenNames s1
  have ws1 : s1.MemoryCanonical := by
    unfold s1
    with_reducible apply State.each_canon
    · with_reducible assumption
    · intro _ _ _
      with_reducible apply State.wakeDone_canon
      with_reducible assumption
  clear_value s1
  extract_lets -underBinder +onlyGivenNames s2
  have ws2 : s2.MemoryCanonical := by
    unfold s2
    refine canon_foldl _ (fun _ _ _ => ?_) _ _ ?_
    · refine canon_foldl _ (fun _ _ _ => ?_) _ _ ?_
      · with_reducible apply State.admitWake_canon
        with_reducible assumption
      · with_reducible assumption
    · with_reducible assumption
  clear_value s2
  with_reducible apply State.each_canon
  · with_reducible assumption
  · intro _ _ _
    with_reducible apply State.holdStart_canon
    with_reducible assumption

theorem State.linkLate_canon (s : State) (ws : s.MemoryCanonical) : (State.linkLate s).MemoryCanonical := by
  unfold State.linkLate
  refine canon_foldl _ (fun _ _ _ => ?_) _ _ ?_
  · with_reducible apply State.canon_ite
    · with_reducible apply State.stepFail_canon
      with_reducible assumption
    · with_reducible assumption
  · with_reducible apply State.sendDue_canon
    with_reducible assumption

theorem State.selfActs_canon (s : State) (ws : s.MemoryCanonical) : (State.selfActs s).MemoryCanonical := by
  unfold State.selfActs
  extract_lets -underBinder +onlyGivenNames l
  extract_lets -underBinder +onlyGivenNames s1
  have ws1 : s1.MemoryCanonical := by
    unfold s1
    with_reducible apply State.each_canon
    · with_reducible assumption
    · intro _ _ _
      with_reducible apply State.coreSelf_canon
      with_reducible assumption
  clear_value s1
  extract_lets -underBinder +onlyGivenNames s2
  have ws2 : s2.MemoryCanonical := by
    unfold s2
    with_reducible apply State.cancelAnswers_canon
    with_reducible apply State.closeTasks_canon
    with_reducible apply State.lateTasks_canon
    with_reducible apply State.movesParked_canon
    with_reducible assumption
  clear_value s2
  extract_lets -underBinder +onlyGivenNames s3
  have ws3 : s3.MemoryCanonical := by
    unfold s3
    refine canon_foldl _ (fun _ _ _ => ?_) _ _ ?_
    · with_reducible apply State.phaseBoundary_canon
      with_reducible assumption
    · with_reducible assumption
  clear_value s3
  extract_lets -underBinder +onlyGivenNames s4
  have ws4 : s4.MemoryCanonical := by
    unfold s4
    with_reducible apply State.wakeNeeded_canon
    refine canon_foldl _ (fun _ _ _ => ?_) _ _ ?_
    · with_reducible apply State.commitTurn_canon
      with_reducible assumption
    · with_reducible assumption
  clear_value s4
  extract_lets -underBinder +onlyGivenNames s5
  have ws5 : s5.MemoryCanonical := by
    unfold s5
    with_reducible apply State.handoverLate_canon
    with_reducible apply State.linkLate_canon
    with_reducible apply State.powerSelf_canon
    with_reducible assumption
  clear_value s5
  extract_lets -underBinder +onlyGivenNames s6
  have ws6 : s6.MemoryCanonical := by
    unfold s6
    refine canon_foldl _ (fun _ _ _ => ?_) _ _ ?_
    · with_reducible apply State.shedSweep_canon
      with_reducible assumption
    · with_reducible assumption
  clear_value s6
  extract_lets -underBinder +onlyGivenNames s7
  have ws7 : s7.MemoryCanonical := by
    unfold s7
    refine canon_foldl _ (fun _ _ _ => ?_) _ _ ?_
    · with_reducible apply State.drainQueue_canon
      with_reducible assumption
    · with_reducible assumption
  clear_value s7
  with_reducible apply State.heldReqs_canon
  refine canon_foldl _ (fun _ _ _ => ?_) _ _ ?_
  · with_reducible apply State.drainHome_canon
    with_reducible assumption
  · with_reducible assumption

theorem State.cycleEnd_canon (s : State) (ws : s.MemoryCanonical) : (State.cycleEnd s).MemoryCanonical := by
  unfold State.cycleEnd
  extract_lets -underBinder +onlyGivenNames s1
  have ws1 : s1.MemoryCanonical := by
    unfold s1
    with_reducible apply State.homes_canon
    with_reducible assumption
  clear_value s1
  with_reducible apply State.each_canon
  · with_reducible assumption
  · intro _ _ _
    with_reducible apply State.coreCycle_canon
    with_reducible assumption

theorem State.tick_canon (s : State) (ws : s.MemoryCanonical) : (State.tick s).MemoryCanonical := by
  unfold State.tick
  extract_lets -underBinder +onlyGivenNames s1
  have ws1 : s1.MemoryCanonical := by
    unfold s1
    with_reducible apply State.advance_canon
    with_reducible apply State.cycleEnd_canon
    with_reducible assumption
  clear_value s1
  extract_lets -underBinder +onlyGivenNames s2
  have ws2 : s2.MemoryCanonical := by
    unfold s2
    with_reducible apply State.microActs_canon
    with_reducible apply State.selfActs_canon
    with_reducible apply State.ageTasks_canon
    with_reducible assumption
  clear_value s2
  with_reducible apply State.canon_mk
  with_reducible assumption

theorem State.loadTables_canon (s : State) (ws : s.MemoryCanonical) : (State.loadTables s).MemoryCanonical := by
  unfold State.loadTables
  with_reducible apply State.memWrite_canon
  with_reducible apply State.memWrite_canon
  with_reducible apply State.memWrite_canon
  with_reducible assumption

theorem State.loaded_canon (s : State) (e : Strm) (w : Nat) (ws : s.MemoryCanonical) : (State.loaded s e w).MemoryCanonical := by
  unfold State.loaded
  extract_lets -underBinder +onlyGivenNames s1
  have ws1 : s1.MemoryCanonical := by
    unfold s1
    with_reducible apply State.memWrite_canon
    with_reducible apply State.loadTables_canon
    with_reducible assumption
  clear_value s1
  extract_lets -underBinder +onlyGivenNames s2
  have ws2 : s2.MemoryCanonical := by
    unfold s2
    with_reducible apply State.canon_mk
    with_reducible assumption
  clear_value s2
  with_reducible apply State.modCore_canon
  with_reducible assumption

end Sys2Proof.Machine
end

