-- ==== Sys2Proof/Laws/Powers.lean ====
section
/-!
SUPPORT. Laws/Powers.lean: how far the fixed-point 2^x and log2 of Machine/Num.lean lie from the real functions (R178), closed by
exp2Num_bounds and log2Num_bounds.
-/
namespace Sys2Proof.Machine

/-! ### The bracket that settles an answer -/

theorem settle_bounds (out : Nat) (val : Nat → Nat) (T : ℝ) (hT : 0 ≤ T) :
    ∀ gs : List Nat, gs ≠ [] → (∀ g ∈ gs, 17 ≤ g ∧ |(val (out + g) : ℝ) - T * 2 ^ (out + g)| ≤ 2 ^ 16) →
      ((settle out val gs : ℕ) : ℝ) ≤ T * 2 ^ out ∧ T * 2 ^ out < (settle out val gs : ℕ) + 2 := by
  intro gs
  induction gs with
  | nil => intro h; exact absurd rfl h
  | cons g gs ih =>
    intro _ hb
    obtain ⟨hg, ha⟩ := hb g List.mem_cons_self
    set a := val (out + g) with ha'
    have hG : (0 : ℝ) < 2 ^ g := by positivity
    have hGn : 0 < 2 ^ g := by positivity
    obtain ⟨h1, h2⟩ := abs_le.1 ha
    have hsplit : T * 2 ^ (out + g) = (T * 2 ^ out) * 2 ^ g := by ring
    rw [hsplit] at h1 h2
    have hlo : (((a - 2 ^ 16) / 2 ^ g : ℕ) : ℝ) ≤ T * 2 ^ out := by
      have h3 : (((a - 2 ^ 16) / 2 ^ g : ℕ) : ℝ) * 2 ^ g ≤ ((a - 2 ^ 16 : ℕ) : ℝ) := by
        exact_mod_cast Nat.div_mul_le_self _ _
      by_cases h : 2 ^ 16 ≤ a
      · rw [Nat.cast_sub h] at h3
        push_cast at h3
        nlinarith
      · have : a - 2 ^ 16 = 0 := by omega
        rw [this]
        simp only [Nat.zero_div, Nat.cast_zero]
        positivity
    have hhi : T * 2 ^ out < (((a + 2 ^ 16) / 2 ^ g : ℕ) : ℝ) + 1 := by
      have h3 : ((a + 2 ^ 16 : ℕ) : ℝ) < ((((a + 2 ^ 16) / 2 ^ g : ℕ) : ℝ) + 1) * 2 ^ g := by
        have := Nat.lt_mul_div_succ (a + 2 ^ 16) hGn
        have h4 : ((a + 2 ^ 16 : ℕ) : ℝ) < ((2 ^ g * ((a + 2 ^ 16) / 2 ^ g + 1) : ℕ) : ℝ) := by exact_mod_cast this
        calc ((a + 2 ^ 16 : ℕ) : ℝ) < _ := h4
          _ = _ := by push_cast; ring
      push_cast at h3
      by_contra h
      push Not at h
      nlinarith
    have hnear : (a + 2 ^ 16) / 2 ^ g ≤ (a - 2 ^ 16) / 2 ^ g + 1 := by
      rw [← Nat.add_div_right _ hGn]
      apply Nat.div_le_div_right
      have : 2 ^ 17 ≤ 2 ^ g := Nat.pow_le_pow_right (by norm_num) hg
      omega
    have hnear' : (((a + 2 ^ 16) / 2 ^ g : ℕ) : ℝ) ≤ (((a - 2 ^ 16) / 2 ^ g : ℕ) : ℝ) + 1 := by exact_mod_cast hnear
    unfold settle
    simp only [← ha']
    split
    · exact ⟨hlo, by linarith⟩
    · cases gs with
      | nil => exact ⟨hlo, by linarith⟩
      | cons g' t => exact ih (by simp) fun q hq => hb q (List.mem_cons_of_mem _ hq)

/-! ### ln 2 -/

theorem ln2Sum_eq (n k p acc : Nat) :
    ln2Sum n k p acc = acc + ∑ i ∈ Finset.range n, 2 ^ p / ((k + i) * 2 ^ (k + i)) := by
  induction n generalizing k acc with
  | zero => simp [ln2Sum]
  | succ n ih =>
    rw [ln2Sum, ih, Finset.sum_range_succ', add_assoc, add_zero, add_comm (∑ _ ∈ _, _)]
    congr 2
    apply Finset.sum_congr rfl
    intro i _
    rw [show k + 1 + i = k + (i + 1) by ring]

theorem nat_div_bounds (a b : Nat) (hb : 0 < b) : (a : ℝ) / b - 1 < ((a / b : ℕ) : ℝ) ∧ ((a / b : ℕ) : ℝ) ≤ (a : ℝ) / b := by
  have hb' : (0 : ℝ) < b := by exact_mod_cast hb
  refine ⟨?_, Nat.cast_div_le⟩
  rw [sub_lt_iff_lt_add, div_lt_iff₀ hb']
  have := Nat.lt_mul_div_succ a hb
  have h4 : (a : ℝ) < ((b * (a / b + 1) : ℕ) : ℝ) := by exact_mod_cast this
  calc (a : ℝ) < _ := h4
    _ = _ := by push_cast; ring

theorem ln2Fix_near (p : Nat) : |(ln2Fix p : ℝ) - 2 ^ p * Real.log 2| ≤ p + 1 := by
  have hS : |∑ i ∈ Finset.range p, (1 / 2 : ℝ) ^ (i + 1) / (i + 1) - Real.log 2| ≤ (1 / 2) ^ p := by
    have := Real.abs_log_sub_add_sum_range_le (x := (1 / 2 : ℝ)) (by norm_num [abs_of_pos]) p
    have h2 : Real.log (1 - 1 / 2) = -Real.log 2 := by
      rw [show (1 - 1 / 2 : ℝ) = 2⁻¹ by norm_num, Real.log_inv]
    rw [h2] at this
    calc _ = |∑ i ∈ Finset.range p, (1 / 2 : ℝ) ^ (i + 1) / (i + 1) + -Real.log 2| := by rw [sub_eq_add_neg]
      _ ≤ _ := this
      _ = _ := by rw [abs_of_pos (by norm_num)]; ring
  set S := ∑ i ∈ Finset.range p, (1 / 2 : ℝ) ^ (i + 1) / (i + 1) with hSd
  have hL : (ln2Fix p : ℝ) = ∑ i ∈ Finset.range p, ((2 ^ p / ((i + 1) * 2 ^ (i + 1)) : ℕ) : ℝ) := by
    rw [ln2Fix, ln2Sum_eq]
    push_cast
    rw [zero_add]
    apply Finset.sum_congr rfl
    intro i _
    rw [add_comm 1 i]
  have hterm : ∀ i ∈ Finset.range p, |((2 ^ p / ((i + 1) * 2 ^ (i + 1)) : ℕ) : ℝ) - 2 ^ p * ((1 / 2 : ℝ) ^ (i + 1) / (i + 1))| ≤ 1 := by
    intro i _
    have := nat_div_bounds (2 ^ p) ((i + 1) * 2 ^ (i + 1)) (by positivity)
    have e : ((2 ^ p : ℕ) : ℝ) / (((i + 1) * 2 ^ (i + 1) : ℕ) : ℝ) = 2 ^ p * ((1 / 2 : ℝ) ^ (i + 1) / (i + 1)) := by
      push_cast
      rw [one_div, inv_pow]
      field_simp
    rw [e] at this
    rw [abs_le]
    constructor <;> linarith [this.1, this.2]
  have hsum : |(ln2Fix p : ℝ) - 2 ^ p * S| ≤ p := by
    rw [hL, hSd, Finset.mul_sum, ← Finset.sum_sub_distrib]
    calc _ ≤ ∑ i ∈ Finset.range p, |((2 ^ p / ((i + 1) * 2 ^ (i + 1)) : ℕ) : ℝ) - 2 ^ p * ((1 / 2 : ℝ) ^ (i + 1) / (i + 1))| :=
          Finset.abs_sum_le_sum_abs _ _
      _ ≤ ∑ i ∈ Finset.range p, (1 : ℝ) := Finset.sum_le_sum hterm
      _ = p := by simp
  have h3 : |(2 : ℝ) ^ p * S - 2 ^ p * Real.log 2| ≤ 1 := by
    rw [← mul_sub, abs_mul, abs_of_pos (by positivity : (0 : ℝ) < 2 ^ p)]
    calc (2 : ℝ) ^ p * |S - Real.log 2| ≤ 2 ^ p * (1 / 2) ^ p := by gcongr
      _ = 1 := by rw [← mul_pow]; norm_num
  calc _ = |((ln2Fix p : ℝ) - 2 ^ p * S) + (2 ^ p * S - 2 ^ p * Real.log 2)| := by ring_nf
    _ ≤ _ := abs_add_le _ _
    _ ≤ p + 1 := by linarith

/-! ### 2^f -/

/-- The k-th term of the series. -/
def expTerm (p z : Nat) (k : Nat) : Nat :=
  match k with
  | 0 => 2 ^ p
  | k + 1 => expTerm p z k * z / ((k + 1) * 2 ^ p)

theorem expSum_eq (n k p z acc : Nat) :
    expSum n (k + 1) p z (expTerm p z k) acc = acc + ∑ i ∈ Finset.range n, expTerm p z (k + i) := by
  induction n generalizing k acc with
  | zero => simp [expSum]
  | succ n ih =>
    rw [expSum, show expTerm p z k * z / ((k + 1) * 2 ^ p) = expTerm p z (k + 1) from rfl, ih, Finset.sum_range_succ', add_assoc,
      add_zero, add_comm (∑ _ ∈ _, _)]
    congr 2
    apply Finset.sum_congr rfl
    intro i _
    rw [show k + 1 + i = k + (i + 1) by ring]

theorem expTerm_near (p z k : Nat) (Z : ℝ) (hZ : (z : ℝ) = Z * 2 ^ p) (h0 : 0 ≤ Z) (h1 : Z ≤ 1) :
    (expTerm p z k : ℝ) ≤ 2 ^ p * (Z ^ k / k.factorial) ∧
      2 ^ p * (Z ^ k / k.factorial) - (if k = 0 then 0 else 2) ≤ (expTerm p z k : ℝ) := by
  induction k with
  | zero => simp [expTerm]
  | succ k ih =>
    obtain ⟨hu, hl⟩ := ih
    have hp : (0 : ℝ) < 2 ^ p := by positivity
    have hk : (0 : ℝ) < (k : ℝ) + 1 := by positivity
    have hf : (0 : ℝ) < (k.factorial : ℝ) := by exact_mod_cast k.factorial_pos
    have hd := nat_div_bounds (expTerm p z k * z) ((k + 1) * 2 ^ p) (by positivity)
    have e : ((expTerm p z k * z : ℕ) : ℝ) / (((k + 1) * 2 ^ p : ℕ) : ℝ) = (expTerm p z k : ℝ) * (Z / (k + 1)) := by
      push_cast
      rw [hZ]
      field_simp
    rw [e] at hd
    have e2 : (2 : ℝ) ^ p * (Z ^ (k + 1) / ((k + 1).factorial : ℝ)) = (2 ^ p * (Z ^ k / k.factorial)) * (Z / (k + 1)) := by
      rw [Nat.factorial_succ]
      push_cast
      field_simp
      ring
    have hq : 0 ≤ Z / ((k : ℝ) + 1) := by positivity
    change (((expTerm p z k * z / ((k + 1) * 2 ^ p) : ℕ)) : ℝ) ≤ _ ∧ _ ≤ (((expTerm p z k * z / ((k + 1) * 2 ^ p) : ℕ)) : ℝ)
    rw [e2]
    refine ⟨hd.2.trans (by gcongr), ?_⟩
    have hm : (2 ^ p * (Z ^ k / k.factorial)) * (Z / (k + 1)) - (if k = 0 then 0 else 2) * (Z / (k + 1)) ≤ (expTerm p z k : ℝ) * (Z / (k + 1)) := by
      rw [← sub_mul]
      gcongr
    have hs : (if k = 0 then (0 : ℝ) else 2) * (Z / (k + 1)) ≤ 1 := by
      split
      · simp
      · rename_i hk0
        have : (1 : ℝ) ≤ k := by exact_mod_cast Nat.one_le_iff_ne_zero.2 hk0
        rw [mul_div_assoc', div_le_one hk]
        linarith
    simp only [Nat.add_eq_zero_iff, one_ne_zero, and_false, if_false]
    linarith [hd.1]

theorem two_pow_le_factorial (n : Nat) (h : 3 ≤ n) : 4 ^ n ≤ n.factorial * 2 ^ 15 := by
  induction n, h using Nat.le_induction with
  | base => decide
  | succ n hn ih =>
    rw [Nat.factorial_succ, pow_succ]
    calc 4 ^ n * 4 ≤ (n.factorial * 2 ^ 15) * (n + 1) := Nat.mul_le_mul ih (by omega)
      _ = _ := by ring

theorem expSum_near (p z : Nat) (Z : ℝ) (hZ : (z : ℝ) = Z * 2 ^ p) (h0 : 0 ≤ Z) (h1 : Z ≤ 1) :
    |((expSum (p / 2 + 8) 1 p z (2 ^ p) 0 : ℕ) : ℝ) - 2 ^ p * Real.exp Z| ≤ p + 18 := by
  set N := p / 2 + 8 with hN
  have hp : (0 : ℝ) < 2 ^ p := by positivity
  have hE : ((expSum N 1 p z (2 ^ p) 0 : ℕ) : ℝ) = ∑ i ∈ Finset.range N, (expTerm p z i : ℝ) := by
    have := expSum_eq N 0 p z 0
    simp only [zero_add] at this
    rw [show expTerm p z 0 = 2 ^ p from rfl] at this
    rw [this]
    push_cast
    rfl
  rw [hE]
  have hterms : |∑ i ∈ Finset.range N, (expTerm p z i : ℝ) - 2 ^ p * ∑ i ∈ Finset.range N, Z ^ i / (i.factorial : ℝ)| ≤ 2 * N := by
    rw [Finset.mul_sum, ← Finset.sum_sub_distrib]
    calc _ ≤ ∑ i ∈ Finset.range N, |(expTerm p z i : ℝ) - 2 ^ p * (Z ^ i / (i.factorial : ℝ))| := Finset.abs_sum_le_sum_abs _ _
      _ ≤ ∑ i ∈ Finset.range N, (2 : ℝ) := by
        apply Finset.sum_le_sum
        intro i _
        have := expTerm_near p z i Z hZ h0 h1
        have h2 : (if i = 0 then (0 : ℝ) else 2) ≤ 2 := by split <;> norm_num
        rw [abs_le]
        constructor <;> linarith [this.1, this.2]
      _ = 2 * N := by simp [mul_comm]
  have hNpos : 0 < N := by omega
  have hupper := Real.exp_bound' h0 h1 hNpos
  have hlower := Real.sum_le_exp_of_nonneg h0 N
  have htail : (2 : ℝ) ^ p * (Z ^ N * (N + 1) / (N.factorial * N)) ≤ 2 := by
    have hN1 : (1 : ℝ) ≤ N := by exact_mod_cast hNpos
    have hf : (0 : ℝ) < (N.factorial : ℝ) := by exact_mod_cast N.factorial_pos
    have hfac : (2 : ℝ) ^ p ≤ N.factorial := by
      have h4 := two_pow_le_factorial N (by omega)
      have h5 : 2 ^ (p + 15) ≤ 4 ^ N := by
        rw [show (4 : ℕ) = 2 ^ 2 by norm_num, ← pow_mul]
        exact Nat.pow_le_pow_right (by norm_num) (by omega)
      have h6 : 2 ^ p * 2 ^ 15 ≤ N.factorial * 2 ^ 15 := by
        rw [← pow_add]
        exact h5.trans h4
      have h7 : 2 ^ p ≤ N.factorial := Nat.le_of_mul_le_mul_right h6 (by positivity)
      exact_mod_cast h7
    have hz : Z ^ N ≤ 1 := pow_le_one₀ h0 h1
    have hz0 : 0 ≤ Z ^ N := by positivity
    have hr : ((N : ℝ) + 1) / N ≤ 2 := by
      rw [div_le_iff₀ (by linarith)]
      linarith
    calc (2 : ℝ) ^ p * (Z ^ N * (N + 1) / (N.factorial * N)) = (2 ^ p / N.factorial) * (Z ^ N) * ((N + 1) / N) := by
          field_simp
      _ ≤ 1 * 1 * 2 := by
          gcongr
          rw [div_le_one hf]
          exact hfac
      _ = 2 := by norm_num
  have hexp : |(2 : ℝ) ^ p * ∑ i ∈ Finset.range N, Z ^ i / (i.factorial : ℝ) - 2 ^ p * Real.exp Z| ≤ 2 := by
    rw [abs_le]
    constructor
    · nlinarith
    · nlinarith
  have hNr : (2 : ℝ) * N ≤ p + 16 := by
    have : 2 * N ≤ p + 16 := by omega
    exact_mod_cast this
  calc _ = |(∑ i ∈ Finset.range N, (expTerm p z i : ℝ) - 2 ^ p * ∑ i ∈ Finset.range N, Z ^ i / (i.factorial : ℝ)) +
        (2 ^ p * ∑ i ∈ Finset.range N, Z ^ i / (i.factorial : ℝ) - 2 ^ p * Real.exp Z)| := by ring_nf
    _ ≤ _ := abs_add_le _ _
    _ ≤ p + 18 := by linarith

theorem exp_near (a b M : ℝ) (ha : Real.exp a ≤ M) (hb : Real.exp b ≤ M) : |Real.exp a - Real.exp b| ≤ |a - b| * M := by
  have key : ∀ x y : ℝ, x ≤ y → Real.exp y ≤ M → |Real.exp x - Real.exp y| ≤ |x - y| * M := by
    intro x y h hM
    have h1 : Real.exp y * (1 + (x - y)) ≤ Real.exp x := by
      have := Real.add_one_le_exp (x - y)
      calc Real.exp y * (1 + (x - y)) ≤ Real.exp y * Real.exp (x - y) := by
            gcongr
            linarith
        _ = Real.exp x := by rw [← Real.exp_add]; ring_nf
    have h2 := Real.exp_le_exp.2 h
    rw [abs_sub_comm, abs_of_nonneg (by linarith), abs_sub_comm x y, abs_of_nonneg (by linarith)]
    nlinarith
  rcases le_total a b with h | h
  · exact key a b h hb
  · rw [abs_sub_comm, abs_sub_comm a b]
    exact key b a h ha

/-- A precision that is not tiny. -/
theorem four_le_two_pow (p : Nat) (h : 10 ≤ p) : 8 * (p + 4) ≤ 2 ^ p := by
  induction p, h using Nat.le_induction with
  | base => decide
  | succ n hn ih => rw [pow_succ]; omega

theorem exp2Fix_near (p fm : Nat) (F : ℝ) (h0 : 0 ≤ F) (h1 : F < 1) (hp : 10 ≤ p)
    (hfm : |(fm : ℝ) - F * 2 ^ p| ≤ 1) (hle : (fm : ℝ) ≤ F * 2 ^ p) :
    |(exp2Fix p fm : ℝ) - 2 ^ p * (2 : ℝ) ^ F| ≤ 4 * p + 30 := by
  have hP : (0 : ℝ) < 2 ^ p := by positivity
  have hbig : 8 * ((p : ℝ) + 4) ≤ 2 ^ p := by exact_mod_cast four_le_two_pow p hp
  have hL := ln2Fix_near p
  obtain ⟨hL1, hL2⟩ := abs_le.1 hL
  set L : ℝ := (ln2Fix p : ℝ) with hLd
  have hL0 : 0 ≤ L := by rw [hLd]; positivity
  have hln : Real.log 2 < 0.6931471808 := Real.log_two_lt_d9
  have hln0 : 0.6931471803 < Real.log 2 := Real.log_two_gt_d9
  set z := fm * ln2Fix p / 2 ^ p with hz
  set Z : ℝ := (z : ℝ) / 2 ^ p with hZ
  have hzd := nat_div_bounds (fm * ln2Fix p) (2 ^ p) (by positivity)
  have e : ((fm * ln2Fix p : ℕ) : ℝ) / ((2 ^ p : ℕ) : ℝ) = (fm : ℝ) / 2 ^ p * L := by
    push_cast
    ring
  rw [e] at hzd
  have hf0 : 0 ≤ (fm : ℝ) / 2 ^ p := by positivity
  have hf1 : (fm : ℝ) / 2 ^ p ≤ 1 := by
    rw [div_le_one hP]
    nlinarith
  have hfF : |(fm : ℝ) / 2 ^ p - F| ≤ 1 / 2 ^ p := by
    rw [show (fm : ℝ) / 2 ^ p - F = ((fm : ℝ) - F * 2 ^ p) / 2 ^ p by field_simp, abs_div, abs_of_pos hP]
    gcongr
  have hmid : |(fm : ℝ) / 2 ^ p * L - 2 ^ p * (F * Real.log 2)| ≤ p + 2 := by
    have e1 : (fm : ℝ) / 2 ^ p * L - 2 ^ p * (F * Real.log 2) =
        (fm : ℝ) / 2 ^ p * (L - 2 ^ p * Real.log 2) + ((fm : ℝ) / 2 ^ p - F) * (2 ^ p * Real.log 2) := by ring
    rw [e1]
    calc _ ≤ |(fm : ℝ) / 2 ^ p * (L - 2 ^ p * Real.log 2)| + |((fm : ℝ) / 2 ^ p - F) * (2 ^ p * Real.log 2)| := abs_add_le _ _
      _ = (fm : ℝ) / 2 ^ p * |L - 2 ^ p * Real.log 2| + |(fm : ℝ) / 2 ^ p - F| * (2 ^ p * Real.log 2) := by
          rw [abs_mul, abs_mul, abs_of_nonneg hf0, abs_of_pos (show (0 : ℝ) < 2 ^ p * Real.log 2 by
            apply mul_pos hP
            linarith)]
      _ ≤ 1 * ((p : ℝ) + 1) + 1 / 2 ^ p * (2 ^ p * 1) := by
          gcongr
          linarith
      _ = p + 2 := by field_simp; ring
  have hzn : |(z : ℝ) - 2 ^ p * (F * Real.log 2)| ≤ p + 3 := by
    obtain ⟨a1, a2⟩ := abs_le.1 hmid
    rw [abs_le]
    constructor <;> linarith [hzd.1, hzd.2]
  have hZn : |Z - F * Real.log 2| ≤ (p + 3) / 2 ^ p := by
    rw [hZ, show (z : ℝ) / 2 ^ p - F * Real.log 2 = ((z : ℝ) - 2 ^ p * (F * Real.log 2)) / 2 ^ p by field_simp, abs_div, abs_of_pos hP]
    gcongr
  have hZ0 : 0 ≤ Z := by positivity
  have hFl : F * Real.log 2 ≤ 0.6931471808 := by nlinarith
  have hsmall : ((p : ℝ) + 3) / 2 ^ p ≤ 1 / 8 := by
    rw [div_le_iff₀ hP]
    linarith
  have hZ1 : Z ≤ 1 := by
    have := (abs_le.1 hZn).2
    linarith
  have hS := expSum_near p z Z (by rw [hZ]; field_simp) hZ0 hZ1
  have he3 : Real.exp 1 ≤ 3 := by linarith [Real.exp_one_lt_d9]
  have hE := exp_near Z (F * Real.log 2) 3 ((Real.exp_le_exp.2 hZ1).trans he3) ((Real.exp_le_exp.2 (by linarith)).trans he3)
  have hF : (2 : ℝ) ^ F = Real.exp (F * Real.log 2) := by
    rw [Real.rpow_def_of_pos (by norm_num), mul_comm]
  rw [hF]
  change |((expSum (p / 2 + 8) 1 p z (2 ^ p) 0 : ℕ) : ℝ) - _| ≤ _
  have h3 : |(2 : ℝ) ^ p * Real.exp Z - 2 ^ p * Real.exp (F * Real.log 2)| ≤ 3 * (p + 3) := by
    rw [← mul_sub, abs_mul, abs_of_pos hP]
    calc (2 : ℝ) ^ p * |Real.exp Z - Real.exp (F * Real.log 2)| ≤ 2 ^ p * ((p + 3) / 2 ^ p * 3) := by
          gcongr
          exact hE.trans (by gcongr)
      _ = 3 * (p + 3) := by field_simp
  calc _ = |(((expSum (p / 2 + 8) 1 p z (2 ^ p) 0 : ℕ) : ℝ) - 2 ^ p * Real.exp Z) + (2 ^ p * Real.exp Z - 2 ^ p * Real.exp (F * Real.log 2))| := by
        ring_nf
    _ ≤ _ := abs_add_le _ _
    _ ≤ 4 * p + 30 := by linarith

theorem two_rpow_small (x : ℝ) (h : |x| ≤ 1 / 2) : 1 - |x| ≤ (2 : ℝ) ^ x ∧ (2 : ℝ) ^ x ≤ 1 + 2 * |x| ∧ (0 ≤ x → 1 ≤ (2 : ℝ) ^ x) ∧ (x ≠ 0 → (2 : ℝ) ^ x < 1 + 2 * |x|) := by
  have hln : Real.log 2 < 0.6931471808 := Real.log_two_lt_d9
  have hln0 : 0.6931471803 < Real.log 2 := Real.log_two_gt_d9
  have hF : (2 : ℝ) ^ x = Real.exp (x * Real.log 2) := by
    rw [Real.rpow_def_of_pos (by norm_num), mul_comm]
  have h1 := Real.add_one_le_exp (x * Real.log 2)
  have ha := abs_nonneg x
  have hx := abs_le.1 (le_refl |x|)
  have hlow : -|x| * Real.log 2 ≤ x * Real.log 2 := by nlinarith
  have hb := Real.abs_exp_sub_one_le (x := x * Real.log 2) (by
    rw [abs_mul, abs_of_pos (by linarith : (0:ℝ) < Real.log 2)]
    nlinarith)
  rw [abs_mul, abs_of_pos (by linarith : (0:ℝ) < Real.log 2)] at hb
  have hb2 := (abs_le.1 hb).2
  rw [hF]
  refine ⟨by nlinarith, ?_, fun h0 => Real.one_le_exp (by nlinarith), fun hx0 => ?_⟩
  · nlinarith
  · have : 0 < |x| := abs_pos.2 hx0
    nlinarith

/-- 2^x of a number m × 2^e with e < 0 that is not huge: the number delivered is its floor in the last place of r, or one below. -/
theorem exp2Num_real (neg : Bool) (m : Nat) (e : Int) (hm : m ≠ 0) (he : e < 0) (hr : e + (Nat.log2 m : Int) ≤ 20) :
    ∃ r k st, exp2Num neg m e = .fin false r k st ∧ (st = true → 98 ≤ Nat.log2 r) ∧
      (r : ℝ) * (2 : ℝ) ^ k ≤ (2 : ℝ) ^ (((if neg then -(m : Int) else m : Int) : ℝ) / ((2 ^ (-e).toNat : ℕ) : ℝ)) ∧
      (2 : ℝ) ^ (((if neg then -(m : Int) else m : Int) : ℝ) / ((2 ^ (-e).toNat : ℕ) : ℝ)) < ((r : ℝ) + 2) * (2 : ℝ) ^ k := by
  set d : Nat := 2 ^ (-e).toNat with hd
  set v : Int := if neg then -(m : Int) else m with hv
  have hdpos : 0 < d := by positivity
  have hdR : (0 : ℝ) < (d : ℝ) := by exact_mod_cast hdpos
  set x : ℝ := (v : ℝ) / (d : ℝ) with hx
  have habs : |x| = (m : ℝ) / d := by
    rw [hx, abs_div, abs_of_pos hdR]
    congr 1
    rw [hv]
    split <;> simp
  unfold exp2Num
  rw [if_neg hm, if_neg (by omega)]
  split
  · rename_i htiny
    -- |x| < 2^-100
    have hsm : |x| ≤ (2 : ℝ) ^ (-100 : ℤ) := by
      rw [habs, div_le_iff₀ hdR]
      have h1 : m < 2 ^ (Nat.log2 m + 1) := Nat.lt_log2_self
      have h2 : (m : ℝ) ≤ (2 : ℝ) ^ (Nat.log2 m + 1) := by exact_mod_cast h1.le
      have h3 : (d : ℝ) = (2 : ℝ) ^ ((-e).toNat) := by rw [hd]; push_cast; rfl
      rw [h3, ← zpow_natCast, ← zpow_add₀ (by norm_num : (2 : ℝ) ≠ 0)]
      refine h2.trans ?_
      rw [← zpow_natCast]
      apply zpow_le_zpow_right₀ (by norm_num)
      push_cast
      omega
    have hx0 : x ≠ 0 := by
      intro h0
      rw [h0, abs_zero] at habs
      have : (0 : ℝ) < (m : ℝ) / d := by
        have : (0 : ℝ) < m := by exact_mod_cast Nat.pos_of_ne_zero hm
        positivity
      linarith
    have hnum : (2 : ℝ) ^ (-100 : ℤ) ≤ 1 / 2 := by norm_num
    obtain ⟨g1, g2, g3, g4⟩ := two_rpow_small x (hsm.trans hnum)
    have g4 := g4 hx0
    have hlog1 : Nat.log2 (2 ^ 99 - 1) = 98 := by decide +kernel
    have hlog2 : Nat.log2 (2 ^ 99) = 99 := by decide +kernel
    have k1 : (2 : ℝ) ^ (-100 : ℤ) = 1 / 2 ^ 100 := by norm_num
    have k2 : (2 : ℝ) ^ (-99 : ℤ) = 1 / 2 ^ 99 := by norm_num
    rw [k1] at hsm
    cases neg with
    | true =>
      refine ⟨2 ^ 99 - 1, -99, true, rfl, fun _ => by rw [hlog1], ?_, ?_⟩
      · rw [k2]
        have : ((2 ^ 99 - 1 : ℕ) : ℝ) = 2 ^ 99 - 1 := by norm_num
        rw [this]
        have e1 : ((2 : ℝ) ^ 99 - 1) * (1 / 2 ^ 99) = 1 - 2 * (1 / 2 ^ 100) := by norm_num
        rw [e1]
        linarith
      · rw [k2]
        have : ((2 ^ 99 - 1 : ℕ) : ℝ) = 2 ^ 99 - 1 := by norm_num
        rw [this]
        have e1 : ((2 : ℝ) ^ 99 - 1 + 2) * (1 / 2 ^ 99) = 1 + 2 * (1 / 2 ^ 100) := by norm_num
        rw [e1]
        linarith
    | false =>
      refine ⟨2 ^ 99, -99, true, rfl, fun _ => by rw [hlog2]; norm_num, ?_, ?_⟩
      · rw [k2]
        have hxp : 0 ≤ x := by
          rw [hx, hv]
          simp only [Bool.false_eq_true, if_false]
          positivity
        have e1 : (((2 ^ 99 : ℕ) : ℝ)) * (1 / 2 ^ 99) = 1 := by norm_num
        rw [e1]
        exact g3 hxp
      · rw [k2]
        have e1 : (((2 ^ 99 : ℕ) : ℝ) + 2) * (1 / 2 ^ 99) = 1 + 4 * (1 / 2 ^ 100) := by norm_num
        rw [e1]
        have : (0 : ℝ) < 1 / 2 ^ 100 := by norm_num
        linarith
  · rw [if_neg (by omega)]
    simp only [← hd, ← hv]
    set n := v.fdiv d with hn
    have hmod : v - n * d = v.fmod d := by
      have := Int.mul_fdiv_add_fmod v d
      rw [← hn] at this
      rw [mul_comm] at this
      linarith
    have hge : 0 ≤ v - n * d := by
      rw [hmod]
      exact Int.fmod_nonneg_of_pos _ (by exact_mod_cast hdpos)
    have hlt : v - n * d < d := by
      rw [hmod]
      exact Int.fmod_lt_of_pos _ (by exact_mod_cast hdpos)
    set r := (v - n * d).toNat with hrd
    have hrI : (r : Int) = v - n * d := Int.toNat_of_nonneg hge
    have hrR : (r : ℝ) = (v : ℝ) - n * d := by exact_mod_cast hrI
    have hxn : x = n + (r : ℝ) / d := by
      rw [hx, hrR]
      field_simp
      ring
    have hsplit : (2 : ℝ) ^ x = (2 : ℝ) ^ n * (2 : ℝ) ^ ((r : ℝ) / d) := by
      rw [hxn, Real.rpow_add (by norm_num), Real.rpow_intCast]
    have h2n : (0 : ℝ) < (2 : ℝ) ^ n := by positivity
    by_cases hr0 : r = 0
    · rw [if_pos hr0]
      refine ⟨1, n, false, rfl, by simp, ?_, ?_⟩
      · rw [hsplit, hr0]
        simp
      · rw [hsplit, hr0]
        simp only [Nat.cast_zero, zero_div, Real.rpow_zero, mul_one, Nat.cast_one]
        linarith
    · rw [if_neg hr0]
      set F : ℝ := (r : ℝ) / d with hF
      have hF0 : 0 ≤ F := by positivity
      have hF1 : F < 1 := by
        rw [hF, div_lt_one hdR]
        have : (r : Int) < d := by rw [hrI]; exact hlt
        exact_mod_cast this
      have hb : ∀ g ∈ guards, 17 ≤ g ∧ |((fun p => exp2Fix p (r * 2 ^ p / d)) (128 + g) : ℝ) - (2 : ℝ) ^ F * 2 ^ (128 + g)| ≤ 2 ^ 16 := by
        intro g hg
        have hgb : 17 ≤ g ∧ g ≤ 4096 := by
          simp only [guards, List.mem_cons, List.not_mem_nil, or_false] at hg
          omega
        refine ⟨hgb.1, ?_⟩
        set p := 128 + g with hp
        have hdv := nat_div_bounds (r * 2 ^ p) d hdpos
        have e1 : ((r * 2 ^ p : ℕ) : ℝ) / (d : ℝ) = F * 2 ^ p := by
          push_cast
          rw [hF]
          ring
        rw [e1] at hdv
        have := exp2Fix_near p (r * 2 ^ p / d) F hF0 hF1 (by omega) (by
          rw [abs_le]
          constructor <;> linarith [hdv.1, hdv.2]) hdv.2
        rw [mul_comm ((2 : ℝ) ^ F)]
        refine this.trans ?_
        have : (p : ℝ) ≤ 4224 := by exact_mod_cast (by omega : p ≤ 4224)
        norm_num
        linarith
      have hT1 : 1 ≤ (2 : ℝ) ^ F := Real.one_le_rpow (by norm_num) hF0
      have hs := settle_bounds 128 (fun p => exp2Fix p (r * 2 ^ p / d)) ((2 : ℝ) ^ F) (by linarith) guards (by decide) hb
      set q := settle 128 (fun p => exp2Fix p (r * 2 ^ p / d)) guards with hq
      have hz : (2 : ℝ) ^ (n - 128) = (2 : ℝ) ^ n / 2 ^ 128 := by
        rw [zpow_sub₀ (by norm_num)]
        norm_num
      refine ⟨q, n - 128, true, rfl, fun _ => ?_, ?_, ?_⟩
      · have h1 : (2 : ℝ) ^ 128 < (q : ℝ) + 2 := by linarith [hs.2]
        have h2 : 2 ^ 128 < q + 2 := by exact_mod_cast h1
        have hq0 : q ≠ 0 := by omega
        rw [Nat.le_log2 hq0]
        have : 2 ^ 98 ≤ 2 ^ 128 - 1 := by norm_num
        omega
      · rw [hz, hsplit]
        have := hs.1
        have h128 : (0 : ℝ) < 2 ^ 128 := by positivity
        calc (q : ℝ) * ((2 : ℝ) ^ n / 2 ^ 128) ≤ ((2 : ℝ) ^ F * 2 ^ 128) * ((2 : ℝ) ^ n / 2 ^ 128) := by gcongr
          _ = _ := by field_simp
      · rw [hz, hsplit]
        have := hs.2
        have h128 : (0 : ℝ) < 2 ^ 128 := by positivity
        calc (2 : ℝ) ^ n * (2 : ℝ) ^ F = ((2 : ℝ) ^ F * 2 ^ 128) * ((2 : ℝ) ^ n / 2 ^ 128) := by field_simp
          _ < _ := by gcongr

theorem Num.val_fin (m : Nat) (e : Int) (st : Bool) : (Num.fin false m e st).val = m * (2 : Rat) ^ e := by
  simp [Num.val]

/-- The number that exp2Num delivers, in whole powers: with D = 2^(−e) and V = ±m, its D-th power is not above 2^V, and that of the
number two units in the last place further is above it. -/
theorem exp2Num_bounds (neg : Bool) (m : Nat) (e : Int) (hm : m ≠ 0) (he : e < 0) (hr : e + (Nat.log2 m : Int) ≤ 20) :
    ∃ r k st, exp2Num neg m e = .fin false r k st ∧ (st = true → 98 ≤ Nat.log2 r) ∧
      (Num.fin false r k false).val ^ (2 ^ (-e).toNat) ≤ (2 : Rat) ^ (if neg then -(m : Int) else m : Int) ∧
      (2 : Rat) ^ (if neg then -(m : Int) else m : Int) < (Num.fin false (r + 2) k false).val ^ (2 ^ (-e).toNat) := by
  obtain ⟨r, k, st, h1, h2, h3, h4⟩ := exp2Num_real neg m e hm he hr
  refine ⟨r, k, st, h1, h2, ?_⟩
  set V : Int := if neg then -(m : Int) else m with hV
  generalize hD : 2 ^ (-e).toNat = D at *
  have hD0 : D ≠ 0 := by
    rw [← hD]
    positivity
  have hDR : (D : ℝ) ≠ 0 := by exact_mod_cast hD0
  have hpow : ((2 : ℝ) ^ ((V : ℝ) / (D : ℝ))) ^ D = (2 : ℝ) ^ V := by
    rw [← Real.rpow_natCast, ← Real.rpow_mul (by norm_num), div_mul_cancel₀ _ hDR, Real.rpow_intCast]
  have hk : (0 : ℝ) < (2 : ℝ) ^ k := by positivity
  rw [Num.val_fin, Num.val_fin]
  constructor
  · have := pow_le_pow_left₀ (by positivity) h3 D
    rw [hpow] at this
    have h5 : (((r * (2 : Rat) ^ k) ^ D : Rat) : ℝ) ≤ (((2 : Rat) ^ V : Rat) : ℝ) := by
      push_cast
      exact this
    exact_mod_cast h5
  · have := pow_lt_pow_left₀ h4 (by positivity) hD0
    rw [hpow] at this
    have h5 : (((2 : Rat) ^ V : Rat) : ℝ) < (((((r + 2 : ℕ) : Rat) * (2 : Rat) ^ k) ^ D : Rat) : ℝ) := by
      push_cast
      exact this
    exact_mod_cast h5

/-! ### log2 -/

/-- The k-th odd power. -/
def oddPow (p w2 w : Nat) (k : Nat) : Nat :=
  match k with
  | 0 => w
  | k + 1 => oddPow p w2 w k * w2 / 2 ^ p

theorem atanhSum_eq (n k p w2 w acc : Nat) :
    atanhSum n (2 * k + 1) p w2 (oddPow p w2 w k) acc = acc + ∑ i ∈ Finset.range n, oddPow p w2 w (k + i) / (2 * (k + i) + 1) := by
  induction n generalizing k acc with
  | zero => simp [atanhSum]
  | succ n ih =>
    rw [atanhSum, show oddPow p w2 w k * w2 / 2 ^ p = oddPow p w2 w (k + 1) from rfl, show 2 * k + 1 + 2 = 2 * (k + 1) + 1 by ring, ih,
      Finset.sum_range_succ', add_assoc, add_zero, add_comm (∑ _ ∈ _, _)]
    congr 2
    apply Finset.sum_congr rfl
    intro i _
    rw [show k + 1 + i = k + (i + 1) by ring]

theorem oddPow_near (p w k : Nat) (W : ℝ) (hW : (w : ℝ) = W * 2 ^ p) (h0 : 0 ≤ W) (h1 : W ≤ 1 / 3) :
    (oddPow p (w * w / 2 ^ p) w k : ℝ) ≤ 2 ^ p * W ^ (2 * k + 1) ∧ 2 ^ p * W ^ (2 * k + 1) - 2 ≤ (oddPow p (w * w / 2 ^ p) w k : ℝ) := by
  have hp : (0 : ℝ) < 2 ^ p := by positivity
  set w2 := w * w / 2 ^ p with hw2
  have hd2 := nat_div_bounds (w * w) (2 ^ p) (by positivity)
  have e2 : ((w * w : ℕ) : ℝ) / ((2 ^ p : ℕ) : ℝ) = W ^ 2 * 2 ^ p := by
    push_cast
    rw [hW]
    field_simp
  rw [e2, ← hw2] at hd2
  have hw20 : (0 : ℝ) ≤ (w2 : ℝ) := by positivity
  induction k with
  | zero =>
    have e0 : (2 : ℝ) ^ p * W ^ (2 * 0 + 1) = W * 2 ^ p := by ring
    rw [e0, show oddPow p w2 w 0 = w from rfl, hW]
    constructor <;> linarith
  | succ k ih =>
    obtain ⟨hu, hl⟩ := ih
    have hd := nat_div_bounds (oddPow p w2 w k * w2) (2 ^ p) (by positivity)
    have e : ((oddPow p w2 w k * w2 : ℕ) : ℝ) / ((2 ^ p : ℕ) : ℝ) = (oddPow p w2 w k : ℝ) * ((w2 : ℝ) / 2 ^ p) := by
      push_cast
      ring
    rw [e] at hd
    have hq : (w2 : ℝ) / 2 ^ p ≤ W ^ 2 := by
      rw [div_le_iff₀ hp]
      exact hd2.2
    have hq' : W ^ 2 - 1 / 2 ^ p ≤ (w2 : ℝ) / 2 ^ p := by
      rw [le_div_iff₀ hp, sub_mul, one_div, inv_mul_cancel₀ hp.ne']
      linarith [hd2.1]
    have hq0 : 0 ≤ (w2 : ℝ) / 2 ^ p := by positivity
    have hW2 : W ^ 2 ≤ 1 / 9 := by nlinarith
    change (((oddPow p w2 w k * w2 / 2 ^ p : ℕ)) : ℝ) ≤ _ ∧ _ ≤ (((oddPow p w2 w k * w2 / 2 ^ p : ℕ)) : ℝ)
    have e3 : (2 : ℝ) ^ p * W ^ (2 * (k + 1) + 1) = (2 ^ p * W ^ (2 * k + 1)) * W ^ 2 := by ring
    rw [e3]
    have hWk : W ^ (2 * k + 1) ≤ 1 / 3 := by
      calc W ^ (2 * k + 1) ≤ W ^ 1 := pow_le_pow_of_le_one h0 (by linarith) (by omega)
        _ ≤ 1 / 3 := by simpa using h1
    have hX0 : 0 ≤ 2 ^ p * W ^ (2 * k + 1) := by positivity
    refine ⟨hd.2.trans (by gcongr), ?_⟩
    set X := 2 ^ p * W ^ (2 * k + 1) with hX
    set Q := (w2 : ℝ) / 2 ^ p with hQ
    have hXp : X * (1 / 2 ^ p) ≤ 1 / 3 := by
      rw [hX]
      calc 2 ^ p * W ^ (2 * k + 1) * (1 / 2 ^ p) = W ^ (2 * k + 1) := by field_simp
        _ ≤ 1 / 3 := hWk
    have s1 : X * W ^ 2 - 1 / 3 ≤ X * Q := by
      calc X * W ^ 2 - 1 / 3 ≤ X * W ^ 2 - X * (1 / 2 ^ p) := by linarith
        _ = X * (W ^ 2 - 1 / 2 ^ p) := by ring
        _ ≤ X * Q := by gcongr
    have s2 : X * Q - 2 * (1 / 9) ≤ (oddPow p w2 w k : ℝ) * Q := by
      have : (X - 2) * Q ≤ (oddPow p w2 w k : ℝ) * Q := by gcongr
      nlinarith
    linarith [hd.1]

theorem atanh_tail (W : ℝ) (h0 : 0 ≤ W) (h1 : W ≤ 1 / 3) (N : Nat) :
    |∑ k ∈ Finset.range N, 2 * (1 / (2 * (k : ℝ) + 1)) * W ^ (2 * k + 1) - (Real.log (1 + W) - Real.log (1 - W))| ≤ 3 * (1 / 9) ^ N := by
  have hs := Real.hasSum_log_sub_log_of_abs_lt_one (x := W) (by
    rw [abs_of_nonneg h0]
    linarith)
  have ht := (hasSum_nat_add_iff' N).2 hs
  have hterm0 : ∀ k : Nat, 0 ≤ 2 * (1 / (2 * ((k + N : ℕ) : ℝ) + 1)) * W ^ (2 * (k + N) + 1) := fun k => by positivity
  have hge := hasSum_le (fun k => hterm0 k) (hasSum_zero) ht
  have hgeo : HasSum (fun k : ℕ => (2 * (1 / 9 : ℝ) ^ N) * (1 / 9) ^ k) ((2 * (1 / 9 : ℝ) ^ N) * (1 - 1 / 9)⁻¹) :=
    (hasSum_geometric_of_lt_one (by norm_num) (by norm_num)).mul_left _
  have hle := hasSum_le (f := fun k : ℕ => 2 * (1 / (2 * ((k + N : ℕ) : ℝ) + 1)) * W ^ (2 * (k + N) + 1)) (fun k => by
    have hW2 : W ^ 2 ≤ 1 / 9 := by nlinarith
    have e1 : W ^ (2 * (k + N) + 1) = (W ^ 2) ^ (k + N) * W := by ring
    have e2 : (W ^ 2) ^ (k + N) ≤ (1 / 9 : ℝ) ^ (k + N) := by gcongr
    have e3 : 1 / (2 * ((k + N : ℕ) : ℝ) + 1) ≤ 1 := by
      rw [div_le_one (by positivity)]
      have : (0 : ℝ) ≤ ((k + N : ℕ) : ℝ) := by positivity
      linarith
    calc 2 * (1 / (2 * ((k + N : ℕ) : ℝ) + 1)) * W ^ (2 * (k + N) + 1) ≤ 2 * 1 * ((1 / 9 : ℝ) ^ (k + N) * 1) := by
          rw [e1]
          gcongr
          linarith
      _ = (2 * (1 / 9 : ℝ) ^ N) * (1 / 9) ^ k := by ring) ht hgeo
  have h9 : (0 : ℝ) < (1 / 9) ^ N := by positivity
  have hn : (2 * (1 / 9 : ℝ) ^ N) * (1 - 1 / 9)⁻¹ ≤ 3 * (1 / 9) ^ N := by
    rw [show (1 - 1 / 9 : ℝ)⁻¹ = 9 / 8 by norm_num]
    linarith
  rw [abs_le]
  constructor
  · linarith
  · linarith

theorem atanhSum_near (p w : Nat) (W : ℝ) (hW : (w : ℝ) = W * 2 ^ p) (h0 : 0 ≤ W) (h1 : W ≤ 1 / 3) :
    |2 * ((atanhSum (p / 3 + 8) 1 p (w * w / 2 ^ p) w 0 : ℕ) : ℝ) - 2 ^ p * (Real.log (1 + W) - Real.log (1 - W))| ≤ 2 * p + 49 := by
  set N := p / 3 + 8 with hN
  set w2 := w * w / 2 ^ p with hw2
  have hp : (0 : ℝ) < 2 ^ p := by positivity
  have hE : ((atanhSum N 1 p w2 w 0 : ℕ) : ℝ) = ∑ i ∈ Finset.range N, ((oddPow p w2 w i / (2 * i + 1) : ℕ) : ℝ) := by
    have := atanhSum_eq N 0 p w2 w 0
    simp only [zero_add, Nat.mul_zero] at this
    rw [show oddPow p w2 w 0 = w from rfl] at this
    rw [this]
    push_cast
    rfl
  rw [hE]
  have hterms : |2 * ∑ i ∈ Finset.range N, ((oddPow p w2 w i / (2 * i + 1) : ℕ) : ℝ) -
      2 ^ p * ∑ k ∈ Finset.range N, 2 * (1 / (2 * (k : ℝ) + 1)) * W ^ (2 * k + 1)| ≤ 6 * N := by
    rw [Finset.mul_sum, Finset.mul_sum, ← Finset.sum_sub_distrib]
    calc _ ≤ ∑ i ∈ Finset.range N, |2 * ((oddPow p w2 w i / (2 * i + 1) : ℕ) : ℝ) - 2 ^ p * (2 * (1 / (2 * (i : ℝ) + 1)) * W ^ (2 * i + 1))| :=
          Finset.abs_sum_le_sum_abs _ _
      _ ≤ ∑ i ∈ Finset.range N, (6 : ℝ) := by
        apply Finset.sum_le_sum
        intro i _
        obtain ⟨hu, hl⟩ := oddPow_near p w i W hW h0 h1
        rw [← hw2] at hu hl
        have hd := nat_div_bounds (oddPow p w2 w i) (2 * i + 1) (by omega)
        have hi : (0 : ℝ) < 2 * (i : ℝ) + 1 := by positivity
        have e : ((2 * i + 1 : ℕ) : ℝ) = 2 * (i : ℝ) + 1 := by push_cast; ring
        rw [e] at hd
        set c := 1 / (2 * (i : ℝ) + 1) with hc
        have hc0 : 0 ≤ c := by positivity
        have hc1 : c ≤ 1 := by
          rw [hc, div_le_one hi]
          have : (0 : ℝ) ≤ i := by positivity
          linarith
        have e2 : (oddPow p w2 w i : ℝ) / (2 * (i : ℝ) + 1) = (oddPow p w2 w i : ℝ) * c := by rw [hc]; ring
        rw [e2] at hd
        have u1 : (oddPow p w2 w i : ℝ) * c ≤ (2 ^ p * W ^ (2 * i + 1)) * c := by gcongr
        have l1 : (2 ^ p * W ^ (2 * i + 1)) * c - 2 ≤ (oddPow p w2 w i : ℝ) * c := by
          have : (2 ^ p * W ^ (2 * i + 1) - 2) * c ≤ (oddPow p w2 w i : ℝ) * c := by gcongr
          nlinarith
        rw [abs_le]
        constructor <;> nlinarith [hd.1, hd.2]
      _ = 6 * N := by simp [mul_comm]
  have htail : |(2 : ℝ) ^ p * ∑ k ∈ Finset.range N, 2 * (1 / (2 * (k : ℝ) + 1)) * W ^ (2 * k + 1) -
      2 ^ p * (Real.log (1 + W) - Real.log (1 - W))| ≤ 1 := by
    rw [← mul_sub, abs_mul, abs_of_pos hp]
    have h9 : (2 : ℝ) ^ p * (3 * (1 / 9) ^ N) ≤ 1 := by
      have : 3 * 2 ^ p ≤ 9 ^ N := by
        calc 3 * 2 ^ p ≤ 2 ^ 2 * 2 ^ p := by gcongr; norm_num
          _ = 2 ^ (2 + p) := by rw [pow_add]
          _ ≤ 2 ^ (3 * N) := Nat.pow_le_pow_right (by norm_num) (by omega)
          _ = 8 ^ N := by rw [pow_mul]; norm_num
          _ ≤ 9 ^ N := Nat.pow_le_pow_left (by norm_num) N
      have h' : 3 * (2 : ℝ) ^ p ≤ 9 ^ N := by exact_mod_cast this
      rw [one_div, inv_pow]
      calc (2 : ℝ) ^ p * (3 * (9 ^ N)⁻¹) = (3 * 2 ^ p) * (9 ^ N)⁻¹ := by ring
        _ ≤ 9 ^ N * (9 ^ N)⁻¹ := by gcongr
        _ = 1 := mul_inv_cancel₀ (by positivity)
    calc _ ≤ (2 : ℝ) ^ p * (3 * (1 / 9) ^ N) := by
          gcongr
          exact atanh_tail W h0 h1 N
      _ ≤ 1 := h9
  have hNr : (6 : ℝ) * N ≤ 2 * p + 48 := by
    have : 6 * N ≤ 2 * p + 48 := by omega
    exact_mod_cast this
  calc _ = |(2 * ∑ i ∈ Finset.range N, ((oddPow p w2 w i / (2 * i + 1) : ℕ) : ℝ) -
        2 ^ p * ∑ k ∈ Finset.range N, 2 * (1 / (2 * (k : ℝ) + 1)) * W ^ (2 * k + 1)) +
        (2 ^ p * ∑ k ∈ Finset.range N, 2 * (1 / (2 * (k : ℝ) + 1)) * W ^ (2 * k + 1) - 2 ^ p * (Real.log (1 + W) - Real.log (1 - W)))| := by ring_nf
    _ ≤ _ := abs_add_le _ _
    _ ≤ 2 * p + 49 := by linarith

theorem log_near (a b c : ℝ) (ha : c ≤ a) (hb : c ≤ b) (hc : 0 < c) : |Real.log a - Real.log b| ≤ |a - b| / c := by
  have key : ∀ x y : ℝ, c ≤ x → x ≤ y → |Real.log x - Real.log y| ≤ |x - y| / c := by
    intro x y hx hxy
    have hx0 : 0 < x := by linarith
    have hy0 : 0 < y := by linarith
    have h1 := Real.log_le_log hx0 hxy
    have h2 : Real.log y - Real.log x ≤ (y - x) / x := by
      rw [← Real.log_div hy0.ne' hx0.ne']
      have := Real.log_le_sub_one_of_pos (div_pos hy0 hx0)
      calc Real.log (y / x) ≤ y / x - 1 := this
        _ = (y - x) / x := by field_simp
    rw [abs_sub_comm, abs_of_nonneg (by linarith), abs_sub_comm x y, abs_of_nonneg (by linarith)]
    refine h2.trans ?_
    have : 0 ≤ y - x := by linarith
    gcongr
  rcases le_total a b with h | h
  · exact key a b ha h
  · rw [abs_sub_comm, abs_sub_comm a b]
    exact key b a hb h

theorem log2Fix_near (p ym : Nat) (Y : ℝ) (h1 : 1 ≤ Y) (h2 : Y < 2) (hp : 10 ≤ p)
    (hlo : Y * 2 ^ p - 1 < (ym : ℝ)) (hhi : (ym : ℝ) ≤ Y * 2 ^ p) :
    |(log2Fix p ym : ℝ) - 2 ^ p * Real.logb 2 Y| ≤ 6 * p + 112 := by
  have hP : (0 : ℝ) < 2 ^ p := by positivity
  have hbig : 8 * ((p : ℝ) + 4) ≤ 2 ^ p := by exact_mod_cast four_le_two_pow p hp
  have hln : Real.log 2 < 0.6931471808 := Real.log_two_lt_d9
  have hln0 : 0.6931471803 < Real.log 2 := Real.log_two_gt_d9
  have hymge : 2 ^ p ≤ ym := by
    have : ((2 ^ p : ℕ) : ℝ) - 1 < (ym : ℝ) := by
      push_cast
      nlinarith
    have h3 : ((2 ^ p : ℕ) : ℝ) < (ym : ℝ) + 1 := by linarith
    have h4 : 2 ^ p < ym + 1 := by exact_mod_cast h3
    omega
  set y : ℝ := (ym : ℝ) / 2 ^ p with hy
  have hy1 : 1 ≤ y := by
    rw [hy, le_div_iff₀ hP, one_mul]
    exact_mod_cast hymge
  have hyY : y ≤ Y := by
    rw [hy, div_le_iff₀ hP]
    exact hhi
  have hyn : |y - Y| ≤ 1 / 2 ^ p := by
    rw [abs_sub_comm, abs_of_nonneg (by linarith), hy, sub_le_iff_le_add, ← add_div, le_div_iff₀ hP]
    linarith
  set w := (ym - 2 ^ p) * 2 ^ p / (ym + 2 ^ p) with hw
  set W : ℝ := (w : ℝ) / 2 ^ p with hW
  set W0 : ℝ := (y - 1) / (y + 1) with hW0
  have hwd := nat_div_bounds ((ym - 2 ^ p) * 2 ^ p) (ym + 2 ^ p) (by positivity)
  have hyp : (ym : ℝ) = y * 2 ^ p := by rw [hy]; field_simp
  have e : (((ym - 2 ^ p) * 2 ^ p : ℕ) : ℝ) / ((ym + 2 ^ p : ℕ) : ℝ) = W0 * 2 ^ p := by
    push_cast [Nat.cast_sub hymge]
    rw [hyp, hW0]
    have : y + 1 ≠ 0 := by linarith
    have : y * 2 ^ p + 2 ^ p ≠ 0 := by positivity
    field_simp
  rw [e] at hwd
  have hW00 : 0 ≤ W0 := by
    rw [hW0]
    apply div_nonneg <;> linarith
  have hW03 : W0 ≤ 1 / 3 := by
    rw [hW0, div_le_iff₀ (by linarith)]
    linarith
  have hWle : W ≤ W0 := by
    rw [hW, div_le_iff₀ hP]
    exact hwd.2
  have hWn : |W - W0| ≤ 1 / 2 ^ p := by
    rw [abs_sub_comm, abs_of_nonneg (by linarith), hW, sub_le_iff_le_add, ← add_div, le_div_iff₀ hP]
    linarith [hwd.1]
  have hWge : 0 ≤ W := by positivity
  have hA := atanhSum_near p w W (by rw [hW]; field_simp) hWge (by linarith)
  set A : ℝ := 2 * ((atanhSum (p / 3 + 8) 1 p (w * w / 2 ^ p) w 0 : ℕ) : ℝ) with hAd
  -- the logarithm of y from that of W
  have hlogy : Real.log (1 + W0) - Real.log (1 - W0) = Real.log y := by
    rw [← Real.log_div (by linarith) (by linarith)]
    congr 1
    rw [hW0]
    have : y + 1 ≠ 0 := by linarith
    field_simp
    ring_nf
  have hu : 0 < 1 / (2 : ℝ) ^ p := by positivity
  have d1 := log_near (1 + W) (1 + W0) 1 (by linarith) (by linarith) (by norm_num)
  have d2 := log_near (1 - W) (1 - W0) (2 / 3) (by linarith) (by linarith) (by norm_num)
  have d3 := log_near y Y 1 hy1 h1 (by norm_num)
  have hd1 : |1 + W - (1 + W0)| = |W - W0| := by congr 1; ring
  have hd2 : |1 - W - (1 - W0)| = |W - W0| := by rw [← abs_neg]; congr 1; ring
  rw [hd1] at d1
  rw [hd2] at d2
  have hlogs : |(Real.log (1 + W) - Real.log (1 - W)) - Real.log Y| ≤ 4 * (1 / 2 ^ p) := by
    rw [← hlogy] at d3
    obtain ⟨a1, a2⟩ := abs_le.1 d1
    obtain ⟨b1, b2⟩ := abs_le.1 d2
    obtain ⟨c1, c2⟩ := abs_le.1 d3
    have k1 : |W - W0| / 1 ≤ 1 / 2 ^ p := by simpa using hWn
    have k2 : |W - W0| / (2 / 3) ≤ 3 / 2 * (1 / 2 ^ p) := by
      rw [div_le_iff₀ (by norm_num)]
      linarith
    have k3 : |y - Y| / 1 ≤ 1 / 2 ^ p := by simpa using hyn
    rw [abs_le]
    constructor <;> linarith
  have hAn : |A - 2 ^ p * Real.log Y| ≤ 2 * p + 53 := by
    have : |2 ^ p * (Real.log (1 + W) - Real.log (1 - W)) - 2 ^ p * Real.log Y| ≤ 4 := by
      rw [← mul_sub, abs_mul, abs_of_pos hP]
      calc (2 : ℝ) ^ p * _ ≤ 2 ^ p * (4 * (1 / 2 ^ p)) := by gcongr
        _ = 4 := by field_simp
    calc _ = |(A - 2 ^ p * (Real.log (1 + W) - Real.log (1 - W))) + (2 ^ p * (Real.log (1 + W) - Real.log (1 - W)) - 2 ^ p * Real.log Y)| := by
          ring_nf
      _ ≤ _ := abs_add_le _ _
      _ ≤ 2 * p + 53 := by linarith
  -- the division by ln 2
  have hL := ln2Fix_near p
  set L : ℝ := (ln2Fix p : ℝ) with hLd
  obtain ⟨hL1, hL2⟩ := abs_le.1 hL
  have hLhalf : 2 ^ p / 2 ≤ L := by nlinarith
  have hLpos : 0 < L := by linarith
  have hLn : 0 < ln2Fix p := by
    have : (0 : ℝ) < (ln2Fix p : ℝ) := hLpos
    exact_mod_cast this
  have hQ := nat_div_bounds (2 * atanhSum (p / 3 + 8) 1 p (w * w / 2 ^ p) w 0 * 2 ^ p) (ln2Fix p) hLn
  have eQ : ((2 * atanhSum (p / 3 + 8) 1 p (w * w / 2 ^ p) w 0 * 2 ^ p : ℕ) : ℝ) / (ln2Fix p : ℝ) = A * 2 ^ p / L := by
    push_cast
    rw [hAd]
  rw [eQ] at hQ
  have hlogY0 : 0 ≤ Real.log Y := Real.log_nonneg h1
  have hlogY1 : Real.log Y ≤ Real.log 2 := Real.log_le_log (by linarith) h2.le
  have hlog2 : 0 < Real.log 2 := by linarith
  have hmain : |A * 2 ^ p / L - 2 ^ p * Real.logb 2 Y| ≤ 2 * (3 * p + 54) := by
    have hid : A * 2 ^ p / L - 2 ^ p * Real.logb 2 Y =
        (2 ^ p / L) * ((A - 2 ^ p * Real.log Y) + (2 ^ p * Real.log 2 - L) * (Real.log Y / Real.log 2)) := by
      rw [Real.logb]
      field_simp
      ring
    have hr0 : 0 ≤ Real.log Y / Real.log 2 := by positivity
    have hr1 : Real.log Y / Real.log 2 ≤ 1 := by
      rw [div_le_one hlog2]
      exact hlogY1
    have hB : 2 ^ p / L ≤ 2 := by
      rw [div_le_iff₀ hLpos]
      linarith
    have hB0 : 0 ≤ 2 ^ p / L := by positivity
    have hin : |(A - 2 ^ p * Real.log Y) + (2 ^ p * Real.log 2 - L) * (Real.log Y / Real.log 2)| ≤ 3 * p + 54 := by
      refine (abs_add_le _ _).trans ?_
      have : |(2 ^ p * Real.log 2 - L) * (Real.log Y / Real.log 2)| ≤ p + 1 := by
        rw [abs_mul, abs_of_nonneg hr0, abs_sub_comm]
        calc |L - 2 ^ p * Real.log 2| * (Real.log Y / Real.log 2) ≤ (p + 1) * 1 := by gcongr
          _ = p + 1 := by ring
      linarith
    rw [hid, abs_mul, abs_of_nonneg hB0]
    gcongr
  change |(((2 * atanhSum (p / 3 + 8) 1 p (w * w / 2 ^ p) w 0 * 2 ^ p / ln2Fix p : ℕ)) : ℝ) - _| ≤ _
  obtain ⟨m1, m2⟩ := abs_le.1 hmain
  rw [abs_le]
  constructor <;> linarith [hQ.1, hQ.2]

/-- The logarithm of m × 2^e, for an m that is no power of two: its distance from zero, in units of 2^−256. -/
theorem log2Num_real (m : Nat) (e : Int) (hm : m ≠ 0) (hne : m ≠ 2 ^ Nat.log2 m) :
    ∃ below r, log2Num m e = .fin below r (-256) true ∧
      (r : ℝ) ≤ (if below then -Real.logb 2 (m * (2 : ℝ) ^ e) else Real.logb 2 (m * (2 : ℝ) ^ e)) * 2 ^ 256 ∧
      (if below then -Real.logb 2 (m * (2 : ℝ) ^ e) else Real.logb 2 (m * (2 : ℝ) ^ e)) * 2 ^ 256 < (r : ℝ) + 2 := by
  set l := Nat.log2 m with hl
  have hlo : 2 ^ l ≤ m := Nat.log2_self_le hm
  have hhi : m < 2 ^ (l + 1) := Nat.lt_log2_self
  have hP : (0 : ℝ) < 2 ^ l := by positivity
  set Y : ℝ := (m : ℝ) / 2 ^ l with hY
  have hY1 : 1 ≤ Y := by
    rw [hY, le_div_iff₀ hP, one_mul]
    exact_mod_cast hlo
  have hY2 : Y < 2 := by
    rw [hY, div_lt_iff₀ hP]
    have : (m : ℝ) < 2 ^ (l + 1) := by exact_mod_cast hhi
    rw [pow_succ] at this
    linarith
  have hm0 : (0 : ℝ) < m := by exact_mod_cast Nat.pos_of_ne_zero hm
  set F := Real.logb 2 Y with hF
  have hF0 : 0 ≤ F := Real.logb_nonneg (by norm_num) hY1
  have hF1 : F < 1 := by
    rw [hF, Real.logb_lt_iff_lt_rpow (by norm_num) (by linarith), Real.rpow_one]
    exact hY2
  set n : Int := e + l with hn
  have hlog : Real.logb 2 (m * (2 : ℝ) ^ e) = n + F := by
    have e1 : (m : ℝ) * (2 : ℝ) ^ e = (2 : ℝ) ^ n * Y := by
      rw [hY, hn, zpow_add₀ (by norm_num), zpow_natCast]
      field_simp
    rw [e1, Real.logb_mul (by positivity) (by linarith), ← Real.rpow_intCast, Real.logb_rpow (by norm_num) (by norm_num)]
  rw [hlog]
  have hfr : ∀ g ∈ guards, 17 ≤ g ∧ |(log2Fix (256 + g) (m * 2 ^ (256 + g) / 2 ^ l) : ℝ) - F * 2 ^ (256 + g)| ≤ 2 ^ 16 := by
    intro g hg
    have hgb : 17 ≤ g ∧ g ≤ 4096 := by
      simp only [guards, List.mem_cons, List.not_mem_nil, or_false] at hg
      omega
    refine ⟨hgb.1, ?_⟩
    generalize hp : 256 + g = p
    have hdv := nat_div_bounds (m * 2 ^ p) (2 ^ l) (by positivity)
    have e1 : ((m * 2 ^ p : ℕ) : ℝ) / ((2 ^ l : ℕ) : ℝ) = Y * 2 ^ p := by
      push_cast
      rw [hY]
      ring
    rw [e1] at hdv
    have := log2Fix_near p (m * 2 ^ p / 2 ^ l) Y hY1 hY2 (by omega) hdv.1 hdv.2
    rw [mul_comm F]
    refine this.trans ?_
    have : (p : ℝ) ≤ 4352 := by exact_mod_cast (by omega : p ≤ 4352)
    norm_num
    linarith
  unfold log2Num
  simp only [← hl, ← hn]
  rw [if_neg hne]
  by_cases h0 : 0 ≤ n
  · rw [if_pos h0]
    have hnR : ((n.toNat : ℕ) : ℝ) = n := by exact_mod_cast Int.toNat_of_nonneg h0
    have hnn : (0 : ℝ) ≤ n := by exact_mod_cast h0
    have hs := settle_bounds 256 (fun p => n.toNat * 2 ^ p + log2Fix p (m * 2 ^ p / 2 ^ l)) (n + F) (by linarith) guards (by decide) (by
      intro g hg
      obtain ⟨a, b⟩ := hfr g hg
      refine ⟨a, ?_⟩
      push_cast
      rw [hnR]
      convert b using 2
      ring)
    refine ⟨false, _, rfl, ?_, ?_⟩
    · simpa using hs.1
    · simpa using hs.2
  · rw [if_neg h0]
    have hnR : (((-n).toNat : ℕ) : ℝ) = -n := by
      have : (((-n).toNat : ℕ) : ℤ) = -n := Int.toNat_of_nonneg (by omega)
      exact_mod_cast this
    have hnn : (n : ℝ) ≤ -1 := by exact_mod_cast (by omega : n ≤ -1)
    have hs := settle_bounds 256 (fun p => (-n).toNat * 2 ^ p - log2Fix p (m * 2 ^ p / 2 ^ l)) (-(n + F)) (by linarith) guards (by decide) (by
      intro g hg
      obtain ⟨a, b⟩ := hfr g hg
      refine ⟨a, ?_⟩
      generalize log2Fix (256 + g) (m * 2 ^ (256 + g) / 2 ^ l) = q at b
      generalize 256 + g = p at b
      have hp : (0 : ℝ) < 2 ^ p := by positivity
      have hT : (0 : ℝ) ≤ -(n + F) * 2 ^ p := by
        apply mul_nonneg <;> linarith
      obtain ⟨b1, b2⟩ := abs_le.1 b
      by_cases hq : q ≤ (-n).toNat * 2 ^ p
      · push_cast [Nat.cast_sub hq]
        rw [hnR, abs_le]
        constructor <;> linarith
      · have h3 : (-n).toNat * 2 ^ p - q = 0 := by omega
        rw [h3, Nat.cast_zero, abs_le]
        have h4 : (((-n).toNat * 2 ^ p : ℕ) : ℝ) ≤ q := by exact_mod_cast (by omega : (-n).toNat * 2 ^ p ≤ q)
        push_cast at h4
        rw [hnR] at h4
        constructor <;> linarith)
    refine ⟨true, _, rfl, ?_, ?_⟩
    · simpa using hs.1
    · simpa using hs.2

/-- A whole power of a real bracket of the logarithm. -/
theorem logb_bracket (z T : ℝ) (r K : Nat) (hz : 0 < z) (hT : T = Real.logb 2 z) (h1 : (r : ℝ) ≤ T * K) (h2 : T * K < (r : ℝ) + 2) :
    (2 : ℝ) ^ r ≤ z ^ K ∧ z ^ K < (2 : ℝ) ^ (r + 2) := by
  have hzK : z ^ K = (2 : ℝ) ^ (T * K) := by
    rw [Real.rpow_mul_natCast (by norm_num), hT, Real.rpow_logb (by norm_num) (by norm_num) hz]
  rw [hzK, ← Real.rpow_natCast, ← Real.rpow_natCast]
  constructor
  · exact Real.rpow_le_rpow_of_exponent_le (by norm_num) h1
  · apply Real.rpow_lt_rpow_of_exponent_lt (by norm_num)
    push_cast
    exact h2

/-- The number that log2Num delivers for a number x > 0 that is no power of two, in whole powers: with K = 2^256 and z = x, or 1/x where
the logarithm is below 0, the K-th power of z is not below 2^r and is below 2^(r+2). -/
theorem log2Num_bounds (m : Nat) (e : Int) (hm : m ≠ 0) (K : Nat) (hK : K = 2 ^ 256)
    (hx : ∀ k : Int, (Num.fin false m e false).val ≠ (2 : Rat) ^ k) :
    ∃ below r, log2Num m e = .fin below r (-256) true ∧
      (2 : Rat) ^ r ≤ (if below then 1 / (Num.fin false m e false).val else (Num.fin false m e false).val) ^ K ∧
      (if below then 1 / (Num.fin false m e false).val else (Num.fin false m e false).val) ^ K < (2 : Rat) ^ (r + 2) := by
  rw [Num.val_fin] at *
  have hne : m ≠ 2 ^ Nat.log2 m := by
    intro h
    apply hx (Nat.log2 m + e)
    rw [zpow_add₀ (by norm_num), zpow_natCast]
    congr 1
    exact_mod_cast h
  obtain ⟨below, r, h1, h2, h3⟩ := log2Num_real m e hm hne
  refine ⟨below, r, h1, ?_⟩
  have hm0 : (0 : ℝ) < m := by exact_mod_cast Nat.pos_of_ne_zero hm
  have hX : (0 : ℝ) < m * (2 : ℝ) ^ e := by positivity
  have hKR : ((K : ℕ) : ℝ) = 2 ^ 256 := by rw [hK]; norm_num
  rw [← hKR] at h2 h3
  clear h1 hK hKR
  cases below with
  | false =>
    simp only [Bool.false_eq_true, if_false] at h2 h3 ⊢
    obtain ⟨g1, g2⟩ := logb_bracket _ _ r K hX rfl h2 h3
    constructor
    · have : (((2 : Rat) ^ r : Rat) : ℝ) ≤ ((((m : Rat) * (2 : Rat) ^ e) ^ K : Rat) : ℝ) := by
        push_cast
        exact g1
      exact_mod_cast this
    · have : ((((m : Rat) * (2 : Rat) ^ e) ^ K : Rat) : ℝ) < (((2 : Rat) ^ (r + 2) : Rat) : ℝ) := by
        push_cast
        exact g2
      exact_mod_cast this
  | true =>
    simp only [if_true] at h2 h3 ⊢
    obtain ⟨g1, g2⟩ := logb_bracket (1 / (m * (2 : ℝ) ^ e)) _ r K (by positivity) (by rw [one_div, Real.logb_inv]) h2 h3
    constructor
    · have : (((2 : Rat) ^ r : Rat) : ℝ) ≤ (((1 / ((m : Rat) * (2 : Rat) ^ e)) ^ K : Rat) : ℝ) := by
        push_cast
        exact g1
      exact_mod_cast this
    · have : (((1 / ((m : Rat) * (2 : Rat) ^ e)) ^ K : Rat) : ℝ) < (((2 : Rat) ^ (r + 2) : Rat) : ℝ) := by
        push_cast
        exact g2
      exact_mod_cast this

/-- Three is no power of two: the smallest number to which the bracket of log2Num applies. -/
theorem three_ne_zpow (k : Int) : (Num.fin false 3 0 false).val ≠ (2 : Rat) ^ k := by
  rw [Num.val_fin]
  intro h
  rw [zpow_zero, mul_one] at h
  push_cast at h
  rcases Int.lt_or_le k 2 with h' | h'
  · have : (2 : Rat) ^ k ≤ 2 ^ (1 : Int) := zpow_le_zpow_right₀ (by norm_num) (by omega)
    norm_num at this
    linarith
  · have : (2 : Rat) ^ (2 : Int) ≤ 2 ^ k := zpow_le_zpow_right₀ (by norm_num) h'
    norm_num at this
    linarith

end Sys2Proof.Machine
end

