-- ==== Sys2Proof/Tests/Slice0.lean ====
section
/-!
SUPPORT. Tests/Slice0.lean: ill-formed terms that WellFormed refuses, words of the spec that decode to their instructions, one
step of instructions on small states with results taken from the spec's examples, and for every statement a state that meets
its hypotheses.
-/
namespace Sys2Proof.Machine

set_option Elab.async false

/-! ### Small states -/

/-- No ring bits, and all four. -/
def tz : Ring := ⟨false, false, false, false⟩
def tr : Ring := ⟨true, true, true, true⟩

/-- The machine after reset with another context, or another site, of core 0. -/
def tCtx (f : Ctx → Ctx) : State := State.reset.modCtx 0 f
def tCore (f : Core → Core) : State := State.reset.modCore 0 f

/-- With whole allotments. -/
def tFull : State := tCtx fun x => { x with allot := ⟨0x30000, 0x80000, 0x200000, 0x100000, 0x20000, 0x800000⟩ }

/-- With some scalars. -/
def tS (l : List (Nat × Word)) : State := tCtx fun x => { x with s := l }

/-- A task that runs on core 0 with one live stream at an instruction word. -/
def tRun (e : Strm) (w : Nat) : State := State.reset.loaded e w

theorem opens_of {s : State} {e : Strm} {r : Ring}
    (h : ((s.ctx s.cur).ringBlock e r = none ∧ (s.beginSlot s.cur e).2 = none)) : s.Opens e r :=
  ⟨ringOpen_of_block h.1, h.2⟩

theorem ok_of {ε α : Type} {x : Except ε α} {a : α} (h : (match x with | .ok b => some b | .error _ => none) = some a) : x = .ok a := by
  cases x
  · simp at h
  · simpa using h

theorem ok_err {ε α : Type} {x : Except ε α} {a : ε} (h : (match x with | .ok _ => none | .error b => some b) = some a) : x = .error a := by
  cases x
  · simpa using h
  · simp at h

theorem opens_reset (e : Strm) : State.reset.Opens e tz := by
  apply opens_of
  cases e <;> exact ⟨rfl, rfl⟩

/-! ### Ill-formed terms, one for each check of WellFormed -/

theorem test_wf_skip : (Instr.skip tz 1 false 0).wf = false := rfl
theorem test_wf_token : (Instr.token tz true 0).wf = false ∧ (Instr.twait tz true 0).wf = false := ⟨rfl, rfl⟩
theorem test_wf_csr : ∀ n ∈ [(0x013 : BitVec 10), 0x017, 0x026, 0x043, 0x053, 0x060, 0x2FF],
    (Instr.csrr tz 1 n).wf = false ∧ (Instr.csrw tz 1 n).wf = false ∧ (Instr.csrs tz 1 n).wf = false ∧
    (Instr.csrc tz 1 n).wf = false := by decide
theorem test_wf_arith : ∀ i ∈ [Instr.vadd tz .n8 false 1 2 3, .vsub tz .e4m3 false 1 2 3, .vmul tz .n64 false 1 2 3,
    .vmin tz .n8 false 1 2 3, .vmax tz .n8 false 1 2 3], i.wf = false := by decide
theorem test_wf_float : ∀ i ∈ [Instr.vdiv tz .i32 false 1 2 3, .vabs tz .i8 false 1 2, .vneg tz .i8 false 1 2, .vsqrt tz .i8 false 1 2,
    .vrcp tz .i8 false 1 2, .vrsq tz .i8 false 1 2, .vexp2 tz .i8 false 1 2, .vlog2 tz .i8 false 1 2,
    .vscale tz .i64 false 1 2 3, .vclass tz 1 2 3 .i64], i.wf = false := by decide
theorem test_wf_integer : ∀ i ∈ [Instr.vmulh tz .f32 false 1 2 3, .vadds tz .f32 false 1 2 3, .vsubs tz .f32 false 1 2 3,
    .vbfx tz .f32 false 1 2 3], i.wf = false := by decide
theorem test_wf_compare : (Instr.vcmp tz 1 .eq 2 3 .e4m3).wf = false := rfl
theorem test_wf_convert : ∀ i ∈ [Instr.vcvt tz 2 4 false .e8m0 .f32, .vcvt tz 2 4 false .f32 .e8m0, .vpack tz 1 2 false .f32 .f32,
    .vunpk tz 2 4 .f32 .f32], i.wf = false := by decide
theorem test_wf_reduce : ∀ i ∈ [Instr.vredSum tz .n8 false 1 2, .vredMin tz .n8 false 1 2, .vredMax tz .n8 false 1 2,
    .vscanSum tz .n8 false 1 2, .vscanMin tz .n8 false 1 2, .vscanMax tz .n8 false 1 2], i.wf = false := by decide
theorem test_wf_quantise : (Instr.vqnt tz .i4 false 1 2 3 .mx).wf = false ∧ (Instr.vdqnt tz .e4m3 false 1 2 3 .g32).wf = false := by
  decide
theorem test_wf_product : ∀ i ∈ [Instr.mma tz 0 0 4 false true, .mmai tz 0 0 4 false true .g32 0,
    .mmax tz 0 0 4 false true .mx 0], i.wf = false := by decide
theorem test_wf_acvt : (Instr.acvt tz 0 0 false false 1).wf = false := rfl
theorem test_wf_xwait : (Instr.xwait tz 17).wf = false := rfl

/-! ### Words of the spec's encodings, beside those of Obligations.SpecWordsDecode -/

theorem test_word_bits : decodeWord .c 0x030B500E = .ok (.bfxn tz 20 11 12) := rfl
theorem test_word_skip : decodeWord .c 0x10800419 = .ok (.skip tz 1 false 2) := rfl
theorem test_word_twait : decodeWord .c 0x10800429 = .ok (.twait tz true 2) := rfl
theorem test_word_phase : decodeWord .c 0x0000282C = .ok (.phase tz 10) := rfl
theorem test_word_cancel : decodeWord .c 0x0289102B = .ok (.cancelTask tz 4 9 10) ∧ decodeWord .c 0x4009102B = .ok (.cancelJob tz 4 9) :=
  ⟨rfl, rfl⟩
theorem test_word_barrier : decodeWord .c 0x05540C22 = .ok (.bari tz .vm 20 21) ∧ decodeWord .c 0x14140C22 = .ok (.bara tz .vm 20 0 true) ∧
    decodeWord .c 0x25540C22 = .ok (.barw tz 3 20 21) := ⟨rfl, rfl, rfl⟩
theorem test_word_virtual : decodeWord .c 0x0BD4241A = .ok (.ldVm tz 9 20 .d 2) ∧ decodeWord .c 0xF554241C = .ok (.ldxVm tz 9 20 21 .d) ∧
    decodeWord .c 0x07D4641B = .ok (.stVm tz 25 20 .d 1) := ⟨rfl, rfl, rfl⟩
theorem test_word_atomic : decodeWord .c 0x81C6141F = .ok (.amoSwap tz 5 6 7) ∧ decodeWord .c 0x01C61420 = .ok (.cas tz 5 6 7) := ⟨rfl, rfl⟩
theorem test_word_arrival : decodeWord .c 0x15943421 = .ok (.arrv tz 13 20 22) ∧ decodeWord .c 0x25D40821 = .ok (.await tz 2 20 23) :=
  ⟨rfl, rfl⟩
theorem test_word_seal : decodeWord .c 0x00140023 = .ok (.seal tz 20) ∧ decodeWord .c 0x10140023 = .ok (.unseal tz 20) := ⟨rfl, rfl⟩
theorem test_word_ckpt : decodeWord .c 0x0000142D = .ok (.ckpt tz 5) ∧ decodeWord .c 0x1006002D = .ok (.estim tz 6) := ⟨rfl, rfl⟩
theorem test_word_eret : decodeWord .c 0x10000028 = .ok (.eret tz) := rfl
theorem test_word_collective : decodeWord .c 0x0554142E = .ok (.clstep tz 5 20 21) ∧ decodeWord .c 0x1554082E = .ok (.clwait tz 2 20 21) :=
  ⟨rfl, rfl⟩
theorem test_word_acvt : decodeWord .m 0x08800A08 = .ok (.acvt { tz with sn := true } 2 0 false true 2) := rfl
theorem test_word_copies : decodeWord .x 0x80040802 = .ok (.xnestAcc tz 2 true) ∧ decodeWord .x 0x00000C03 = .ok (.xmcast tz 3 false) ∧
    decodeWord .x 0x00000944 = .ok (.xacc { tz with wp := true, sp := true } 2 false) ∧ decodeWord .x 0x80001005 = .ok (.xstrm tz 4 true) ∧
    decodeWord .x 0x0000C806 = .ok (.xgath tz 2 3 false) ∧ decodeWord .x 0x00080007 = .ok (.xwait tz 2) := ⟨rfl, rfl, rfl, rfl, rfl, rfl⟩
theorem test_word_exits : decodeWord .v 0x30000035 = .ok (.vExit tz) ∧ decodeWord .m 0x30000011 = .ok (.mExit tz) ∧
    decodeWord .x 0x3000000A = .ok (.xExit tz) := ⟨rfl, rfl, rfl⟩
/-- An opcode-table row's word as the host asks it. -/
theorem test_table_word : decodeTableWord 32 0x0123140A = some (.movi tz 5 0x0123) ∧ decodeTableWord 16 0x017E = some (.dictionaryCode .c 5) :=
  ⟨rfl, rfl⟩

/-! ### One step of instructions, with results of the spec's examples and rules -/

/-- The state an outcome answers. -/
def tNext (o : Host.Outcome State Fault Refusal) : State :=
  match o with
  | .next t => t
  | _ => State.reset

/-- The results in flight in a stream after an instruction: slots to go, destination. -/
def tLands (e : Strm) (i : Instr) (s : State) : List (Nat × Dest) :=
  (((tNext (exec i s)).ctx 0).str e).queue.map fun l => (l.left, l.dest)

/-- CAUSE, TRAPADDR after an instruction. -/
def tTrap (i : Instr) (s : State) : Nat × Nat :=
  let x := (tNext (exec i s)).ctx 0
  (x.cause.toNat, x.trapAddr.toNat)

/-- The scalars of the example of R107. -/
def t107 : State := tS [(11, 0x0123456789ABCDEF), (12, 0x80C), (13, 0xFEDCBA9876543210), (14, 0x0123456789ABCDEF), (15, 0x0123456789ABCDEF),
  (16, 0x10), (18, 0x828), (20, 0xBC)]

theorem test_bfxn : tLands .c (.bfxn tz 20 11 12) t107 = [(0, .scalar 20 0xBC)] := by decide +kernel
theorem test_bfx : tLands .c (.bfx tz 21 11 12) t107 = [(0, .scalar 21 0xFFFFFFFFFFFFFFBC)] := by decide +kernel
theorem test_fshr : tLands .c (.fshr tz 14 13 16) t107 = [(0, .scalar 14 0x32100123456789AB)] := by decide +kernel
theorem test_fshl : tLands .c (.fshl tz 15 13 16) t107 = [(0, .scalar 15 0x456789ABCDEFFEDC)] := by decide +kernel
theorem test_bfi : tLands .c (.bfi tz 17 20 18) t107 = [(0, .scalar 17 0x0000BC0000000000)] := by decide +kernel
theorem test_movk : tLands .c (.movk tz 5 0x4567) (tS [(5, 0x123)]) = [(0, .scalar 5 0x01234567)] := by decide +kernel
theorem test_sub_wraps : tLands .c (.sub tz 3 1 2) (tS [(2, 1)]) = [(0, .scalar 3 0xFFFFFFFFFFFFFFFF)] := by decide +kernel
theorem test_sra : tLands .c (.sra tz 3 1 2) (tS [(1, 0x8000000000000000), (2, 0x43)]) = [(0, .scalar 3 0xF000000000000000)] := by
  decide +kernel
theorem test_div_by_zero : tLands .c (.div tz 3 1 2) (tS [(1, 7)]) = [(17, .scalar 3 0xFFFFFFFFFFFFFFFF)] := by decide +kernel
theorem test_rem_sign : tLands .c (.rem tz 3 1 2) (tS [(1, 0xFFFFFFFFFFFFFFF9), (2, 2)]) = [(17, .scalar 3 0xFFFFFFFFFFFFFFFF)] := by
  decide +kernel
theorem test_mulh : tLands .c (.mulh tz 3 1 1) (tS [(1, 0xFFFFFFFFFFFFFFFF)]) = [(2, .scalar 3 0)] := by decide +kernel
theorem test_clz : tLands .c (.clz tz 3 1) (tS [(1, 0x10)]) = [(0, .scalar 3 59)] := by decide +kernel
theorem test_sext : tLands .c (.sext tz 3 1 7) (tS [(1, 0x180)]) = [(0, .scalar 3 0xFFFFFFFFFFFFFF80)] := by decide +kernel
theorem test_cmpi_ltn : tLands .c (.cmpi tz 1 .ltn 4 0x3FF) (tS [(4, 0xFFFFFFFFFFFFFFFE)]) = [(0, .pred 1 true)] := by decide +kernel
theorem test_ld_s0_dropped : ((tNext (exec (.add tz 0 1 1) (tS [(1, 5)]))).slotCtx .c).sr 0 = 0 := by decide +kernel
/-- A register that an instruction reads and writes: LOOP with d = 0 goes on with 2^64 − 1. -/
theorem test_loop_zero : tLands .c (.loop tz 2 0x8000) (tS []) = [(0, .scalar 2 0xFFFFFFFFFFFFFFFF)] := by decide +kernel
theorem test_jr_odd : tTrap (.jr tz 1) (tRun .c 0 |>.modCtx 0 fun x => { x with s := [(1, 0x1001)] }) = (0x04, 0x1001) := by decide +kernel
theorem test_trap_code : tTrap (.trap tz 5) (tRun .c 0) = (0x14, 5) := by decide +kernel
theorem test_csr_privileged : tTrap (.csrr tz 1 0x300) (tRun .c 0) = (0x03, 0x300) := by decide +kernel
theorem test_csrr_wdog : tLands .c (.csrr tz 4 0x012) State.reset = [(2, .scalar 4 0x01000000)] := by decide +kernel
theorem test_ld_little_endian : tLands .c (.ld tz 9 20 .h .cr 0) ((tCore fun k => { k with cr := [(0x40, 0x34), (0x41, 0x12)] }).modCtx 0
    fun x => { x with s := [(20, 0x40)] }) = [(2, .scalar 9 0x1234)] := by decide +kernel
theorem test_ld_misaligned : tTrap (.ld tz 9 20 .d .cr 0) (tRun .c 0 |>.modCtx 0 fun x => { x with s := [(20, 4)] }) =
    (0x04, 4) := by decide +kernel

/-- Vector registers k whose every 32-bit lane is w, in OF under the views of a bind. -/
def tOf (l : List (Nat × Nat)) : FMap Byte :=
  (l.map fun p => (List.range 128).map fun i => (128 * p.1 + i, BitVec.ofNat 8 (p.2 / 2 ^ (8 * (i % 4))))).flatten

/-- The state of the worked example of R53 (issue in cycle 5). -/
def t53 : State := { tCore fun k => { k with ofs := tOf [(1, 0x3F800000), (2, 0x40000000)], ctx :=
  { k.ctx with allot := { k.ctx.allot with ofs := 0x30000 } } } with cycle := 5 }

/-- Lane 0 of the vector results in flight. -/
def tLane (w : Nat) (i : Instr) (s : State) : List (Nat × Nat) :=
  ((tNext (exec i s)).ctx 0).strV.queue.map fun l => (l.left, match l.dest with
    | .vec _ _ v _ => elem v w 0
    | .eph _ v => elem v w 0
    | _ => 0)

theorem test_vadd : tLane 32 (.vadd tz .f32 false 5 1 2) t53 = [(2, 0x40400000)] := by decide +kernel
theorem test_vadd_refresh : ((tNext (exec (.vadd tz .f32 false 5 1 2) { t53 with cycle := 8 })).ctx 0).strV.queue = [] := by decide +kernel

/-! ### For every statement, states that meet the hypotheses of its clauses -/

/-- One token in each queue. -/
def tTok : State := tCtx fun x => { x with tok := [(0, 1), (1, 1), (2, 1), (3, 1), (4, 1), (5, 1), (6, 1), (7, 1)] }

theorem opens_all (e : Strm) : tTok.Opens e tr := by
  apply opens_of
  cases e <;> decide +kernel

theorem witness_ScalarArithmeticResults :
    (let s := tS [(1, 0x8000000000000000), (2, 0xFFFFFFFFFFFFFFFF)]
     s.Opens .c tz ∧ (s.slotCtx .c).sr 1 = 0x8000000000000000 ∧ (s.slotCtx .c).sr 2 = 0xFFFFFFFFFFFFFFFF) ∧ tTok.Opens .c tr ∧
    (∀ w ∈ [0xF0000001, 0x70000002, 0x80000002, 0x30000008, 0x40000008, 4, 5, 6, 7, 9], w < 2 ^ 32) ∧
    [0xF0000001, 0x70000002, 0x80000002, 0x30000008, 0x40000008].map (fun w => (w % 64, w / 2 ^ 28)) =
      [(1, 15), (2, 7), (2, 8), (8, 3), (8, 4)] :=
  ⟨⟨opens_of (by decide +kernel), by decide +kernel, by decide +kernel⟩, opens_all .c, by decide, by decide⟩

theorem witness_BitAndFieldResults :
    (State.reset.Opens .c tz ∧ (State.reset.slotCtx .c).sr 1 = 0) ∧ (tS [(1, 1), (2, 0x7F3F)]).Opens .c tz ∧
    ((tS [(1, 1), (2, 0x7F3F)]).slotCtx .c).sr 1 ≠ 0 :=
  ⟨⟨opens_reset .c, by decide +kernel⟩, opens_of (by decide +kernel), by decide +kernel⟩

theorem witness_PredicateResults : tTok.Opens .c tr ∧
    [0x2000E011, 0x30000011, 0xFFC0E012, 0x20000013, 0x40000013, 0x50000013, 0x30080013, 0x00002013].map
      (fun w => (w % 64, w / 2 ^ 13 % 8, w / 2 ^ 28, w / 2 ^ 19 % 8)) =
      [(0x11, 7, 2, 0), (0x11, 0, 3, 0), (0x12, 7, 15, 0), (0x13, 0, 2, 0), (0x13, 0, 4, 0), (0x13, 0, 5, 0), (0x13, 0, 3, 1),
        (0x13, 1, 0, 0)] := ⟨opens_all .c, by decide⟩

/-- A wait that has lasted as long as it may. -/
def tWaited (q n : Nat) : State := tCtx fun x => { x with wdog := 4, strC := { x.strC with wait := some (q, n) } }

theorem witness_RingConditionsHoldIssue :
    (¬ RingOpen (State.reset.ctx State.reset.cur) .c tr) ∧
    (tr.wp = true ∧ (State.reset.ctx 0).ready (inQueue .c true) = 0) ∧
    (let x := (tCtx fun x => { x with tok := [(2, 1)] }).ctx 0
     0 < x.ready (inQueue .c true) ∧ x.ready (inQueue .c false) = 0) ∧
    (let x := (tCtx fun x => { x with tok := [(1, 9), (2, 1), (7, 1)], rsv := [(1, 6)] }).ctx 0
     0 < x.ready (inQueue .c true) ∧ 0 < x.ready (inQueue .c false) ∧ 15 ≤ x.taken (outQueue .c true)) ∧
    (let x := (tCtx fun x => { x with tok := [(0, 15), (2, 1), (7, 1)] }).ctx 0
     0 < x.ready (inQueue .c true) ∧ 0 < x.ready (inQueue .c false) ∧ x.taken (outQueue .c true) < 15 ∧
     15 ≤ x.taken (outQueue .c false)) ∧
    (((tWaited 2 3).ctx 0).strC.waited 2 = ((tWaited 2 3).ctx 0).limit) ∧
    ((tWaited 2 4).ctx 0).limit < ((tWaited 2 4).ctx 0).strC.waited 2 := by
  refine ⟨fun h => ?_, ?_⟩
  · have := h.wp rfl
    revert this
    decide +kernel
  · decide +kernel

theorem witness_RegisterFormsChangeOnlyTheirQueue : registerForm (.add tr 1 2 3) = some tr ∧ tTok.Opens .c tr ∧
    ∃ t, exec (.add tr 1 2 3) tTok = .next t := ⟨rfl, opens_all .c, _, rfl⟩

theorem witness_LandingsTakeEffectInTheirSlot :
    (let l := { (default : Landing) with left := 2, dest := .scalar 5 7 }
     let s := tCtx fun x => { x with strC := { x.strC with queue := [l] } }
     ∃ l, (s.ctx s.cur).strC.queue = [l] ∧ l.dest = .scalar 5 7 ∧ l.sp = false ∧ l.sn = false ∧ 0 < l.left) ∧
    (∃ l : Landing, l.dest = .scalar 0 7) ∧ (∃ l : Landing, l.dest = .pred 0 true) ∧ ∃ l : Landing, l.dest = .mask 0 5 := by
  refine ⟨⟨_, rfl, rfl, rfl, rfl, by decide⟩, ?_⟩
  exact ⟨⟨{ (default : Landing) with dest := .scalar 0 7 }, rfl⟩, ⟨{ (default : Landing) with dest := .pred 0 true }, rfl⟩,
    ⟨{ (default : Landing) with dest := .mask 0 5 }, rfl⟩⟩

theorem witness_ControlTransferResults :
    (tS [(1, 0x2000)]).Opens .c tz ∧ (((tS [(1, 0x2000)]).slotCtx .c).sr 1).getLsbD 0 = false ∧
    (tS [(1, 0x2001), (47, 3)]).Opens .c tz ∧ (((tS [(1, 0x2001), (47, 3)]).slotCtx .c).sr 1).getLsbD 0 = true ∧
    (((tS [(1, 0x2001), (47, 3)]).slotCtx .c).sr 47).getLsbD 0 = true ∧
    xor ((State.reset.slotCtx .c).pr 0) false = true ∧ xor ((State.reset.slotCtx .c).pr 0) true = false :=
  ⟨opens_of (by decide +kernel), by decide +kernel, opens_of (by decide +kernel), by decide +kernel, by decide +kernel, by decide +kernel,
    by decide +kernel⟩

/-- Streams C and V live, V at a JOIN with k = 5. -/
def tJoin (te : Bool) : State := tCtx fun x =>
  { x with strC := { x.strC with live := .live }, strV := { x.strV with live := .live, join := some 5 }, te := te }

theorem witness_NopJoinAndExitResults :
    (∀ e, State.reset.Opens e tz) ∧ (tJoin false).Opens .c tz ∧
    (∀ f, f ≠ .c ∧ (((tJoin false).slotCtx .c).str f).live = .live →
      ((tJoin false).slotCtx .c).te = false ∧ (((tJoin false).slotCtx .c).str f).join = some 5) ∧
    (tJoin true).Opens .c tz ∧ (((tJoin true).slotCtx .c).str .v).live = .live ∧ ((tJoin true).slotCtx .c).te = true ∧
    (∀ f, ¬ (f ≠ .c ∧ ((State.reset.slotCtx .c).str f).live = .live)) ∧
    (∀ f, f ≠ .v → (((tJoin false).slotCtx .v).str f).live = .live → (((tJoin false).slotCtx .v).str f).join = none) := by
  refine ⟨opens_reset, opens_of (by decide +kernel), ?_, opens_of (by decide +kernel), by decide +kernel, by decide +kernel, ?_, ?_⟩
  · intro f; cases f <;> decide +kernel
  · intro f; cases f <;> decide +kernel
  · intro f; cases f <;> decide +kernel

theorem witness_TokenInstructionResults :
    (let s := tCtx fun x => { x with tok := [(0, 13)] }
     s.Opens .c { tz with sn := true } ∧ (s.slotCtx .c).taken 0 + 1 + 1 = 15 ∧ 15 < (s.slotCtx .c).taken 0 + 2 + 1) ∧
    (let s := tCtx fun x => { x with tok := [(7, 3)] }
     s.Opens .c { tz with wn := true } ∧ 2 + 1 = (s.slotCtx .c).ready 7 ∧ (s.slotCtx .c).ready 7 < 3 + 1) ∧
    ((tWaited 7 3).ctx 0).strC.waited 7 = ((tWaited 7 3).ctx 0).limit ∧ ((tWaited 7 4).ctx 0).limit < ((tWaited 7 4).ctx 0).strC.waited 7 ∧
    [0x03C00429, 0x10800429, 0x00000029, 0x04400029].map (fun w => (w % 64, w / 2 ^ 28, w / 2 ^ 22 % 16, w / 2 ^ 26 % 4)) =
      [(0x29, 0, 15, 0), (0x29, 1, 2, 0), (0x29, 0, 0, 0), (0x29, 0, 1, 1)] :=
  ⟨⟨opens_of (by decide +kernel), by decide +kernel, by decide +kernel⟩, ⟨opens_of (by decide +kernel), by decide +kernel, by decide +kernel⟩,
    by decide +kernel, by decide +kernel, by decide⟩

theorem witness_CsrAndTrapResults : State.reset.Opens .c tz ∧ (0x2FF : BitVec 10).toNat < 0x300 ∧ 0x300 ≤ (0x300 : BitVec 10).toNat :=
  ⟨opens_reset .c, by decide, by decide⟩

theorem witness_ViewInstructionResults :
    (let s := tFull.modCtx 0 fun x => { x with s := [(1, 0x2FF80), (2, 0x30000), (3, 0x12FF80)], lend := 1 }
     s.Opens .c tz ∧ ((s.slotCtx .c).sr 1).toNat + 128 = ((s.slot .c).core s.cur).inRange .ofs ∧
       ((s.slot .c).core s.cur).inRange .ofs < ((s.slotCtx .c).sr 2).toNat + 128 ∧
       (s.slotCtx .c).lend.getLsbD 0 = true ∧ ((s.slotCtx .c).sr 3).toNat + 128 = 0x130000) ∧
    (let s := tFull.modCtx 0 fun x => { x with s := [(2, 0x0107C01), (3, 0x4000000), (4, 0x1F00000)] }
     s.Opens .c tz ∧ ((s.slotCtx .c).sr 3).getLsbD 26 = true ∧ ((s.slotCtx .c).sr 4).getLsbD 26 = false ∧
       fmtOf (((s.slotCtx .c).sr 4).extractLsb' 20 5).toNat = none ∧ (fmtOf (((s.slotCtx .c).sr 2).extractLsb' 20 5).toNat).isSome = true) :=
  ⟨⟨opens_of (by decide +kernel), by decide +kernel, by decide +kernel, by decide +kernel, by decide +kernel⟩,
    opens_of (by decide +kernel), by decide +kernel, by decide +kernel, by decide +kernel, by decide +kernel⟩

/-- A task with a handler at 0x100000 for every stream: its table stands at 0x40000. -/
def tHandler : State :=
  { (tRun .c 0).memWrite 0x40000 (leBytes 8 0x100000 ++ leBytes 8 0x100000 ++ leBytes 8 0x100000 ++ leBytes 8 0x100000) with
    launches := [(0, { loadLaunch with pkt := loadLaunch.pkt + BitVec.ofNat 1024 (0x40000 * 2 ^ (8 * 0x28)) })] }

theorem witness_FaultEntryEffects :
    (let s := tHandler
     (s.ctx 0).te = false ∧ (s.core 0).frz = none ∧ (∀ q, (s.ctx 0).strC.sent = some q → q.req.mustComplete = false) ∧
     pktField (s.pktOf 0) 0x28 8 ≠ 0 ∧
     s.devRead (some 0) (s.asidOf 0) (pktAddr (s.pktOf 0) 0x28 + 8 * Strm.v.num) 8 = .ok (leBytes 8 0x100000) ∧
     leNat (leBytes 8 0x100000) ≠ 0 ∧ s.badOf 0 4 .cr (span 0xFFC0 64) = none) ∧
    ((tRun .c 0).ctx 0).te = false ∧ pktField ((tRun .c 0).pktOf 0) 0x28 8 = 0 ∧
    ((tHandler.modCtx 0 fun x => { x with te := true }).ctx 0).te = true := by
  refine ⟨⟨by decide +kernel, by decide +kernel, ?_, by decide +kernel, ok_of (by decide +kernel), by decide +kernel, by decide +kernel⟩, by decide +kernel,
    by decide +kernel, by decide +kernel⟩
  intro q h
  rw [show (tHandler.ctx 0).strC.sent = none by decide +kernel] at h
  exact absurd h (by simp)

/-- In a handler: the frame lies at the top of CR. -/
def tTrapped (pc : Word) (q : List Landing) : State := tHandler.modCtx 0 fun x =>
  { x with te := true, tsp := 0xFFC0, trapPc := pc, tstream := 1, shadow := some { x.strC with pc := 0x100010 }
           strC := { x.strC with queue := q } }

theorem witness_EretReturns :
    (State.reset.Opens .c tz ∧ (State.reset.slotCtx .c).te = false) ∧
    (let s := tTrapped 0x100004 [{ (default : Landing) with left := 3 }]
     s.Opens .c tz ∧ (s.slotCtx .c).te = true ∧ (s.slotCtx .c).strC.queue ≠ []) ∧
    (let s := tTrapped 0x100005 []
     s.Opens .c tz ∧ (s.slotCtx .c).te = true ∧ (s.slotCtx .c).strC.queue = [] ∧ (s.slot .c).badOf s.cur 0 .cr (span 0xFFC0 64) = none ∧
       (s.slotCtx .c).trapPc.getLsbD 0 = true) ∧
    (let s := tTrapped 0x100004 []
     s.Opens .c tz ∧ (s.slotCtx .c).te = true ∧ (s.slotCtx .c).strC.queue = [] ∧ (s.slot .c).badOf s.cur 0 .cr (span 0xFFC0 64) = none ∧
       (s.slotCtx .c).trapPc.getLsbD 0 = false ∧ (∃ sh, (s.slotCtx .c).shadow = some sh ∧ sh.live = .live) ∧
       (s.slotCtx .c).tstream.toNat = Strm.v.num ∧ leNat ((s.slot .c).localBytes s.cur 0 .cr (0xFFC0 + 8 * 4) 8) % 2 = 0) :=
  ⟨⟨opens_reset .c, rfl⟩, ⟨opens_of (by decide +kernel), by decide +kernel, by decide +kernel⟩,
    ⟨opens_of (by decide +kernel), by decide +kernel, by decide +kernel, by decide +kernel, by decide +kernel⟩,
    opens_of (by decide +kernel), by decide +kernel, by decide +kernel, by decide +kernel, by decide +kernel, ⟨_, rfl, rfl⟩, by decide +kernel,
    by decide +kernel⟩

/-- What a handler entry leaves, by R401: CAUSE, TRAPPC of the V stream, TE, TSP, and the handler's address. -/
theorem test_handler_entry :
    (let t := tHandler.takeFault 0 .v .misaligned 5 false
     let x := t.ctx 0
     (x.cause.toNat, x.tstream.toNat, x.te, x.tsp.toNat, x.strC.pc.toNat)) = (4, 1, true, 0xFFC0, 0x100000) := by decide +kernel
theorem test_eret : (let x := (tNext (exec (.eret tz) (tTrapped 0x100004 []))).ctx 0
    (x.te, x.tsp.toNat, x.strV.pc.toNat)) = (false, 0, 0x100004) := by decide +kernel

theorem witness_LocalLoadResults :
    (let s := (tFull.modCore 0 fun k => { k with bad := [(.xb, 0)] }).modCtx 0 fun x => { x with s := [(1, 4), (2, 0x80)] }
     s.Opens .c tz ∧ ((s.slotCtx .c).sr 1).toNat % 8 ≠ 0 ∧ ((s.slotCtx .c).sr 1).toNat % 4 = 0 ∧ s.refreshHit [0, 1] = true ∧ s.refreshHit [0x80, 0x81] = false ∧
       (s.slot .c).ldBad s.cur 0 .xb [0, 1] = some 0 ∧ (s.slot .c).ldBad s.cur 0 .xb [0x80, 0x81] = none) ∧
    (State.reset.ctx 0).oorFlag = false ∧
    (let x := (tCtx fun x => { x with oorFlag := true }).ctx 0
     x.oorFlag = true ∧ x.oorFresh = false) :=
  ⟨⟨opens_of (by decide +kernel), by decide +kernel, by decide +kernel, by decide +kernel, by decide +kernel, by decide +kernel,
    by decide +kernel⟩, rfl, by decide +kernel⟩

/-- An armed entry of core 0 over the first page of XB. -/
def tEntry (target : Nat) : Region :=
  { loadRegion with spc := .xb, base := 0, sealed := false, target := target }

theorem witness_LocalStoreResults :
    (let s := tFull.modCtx 0 fun x => { x with s := [(1, 4)], regs := [(0, { tEntry 4 with count := 1 })] }
     s.Opens .c tz ∧ ((s.slotCtx .c).sr 1).toNat % 8 ≠ 0 ∧ ((s.slotCtx .c).sr 1).toNat % 4 = 0 ∧
       (s.slot .c).localRefusers s.cur .xb [4, 5, 6, 7] ≠ [] ∧ (s.slot .c).localRefusers s.cur .xb [4, 5, 6] = []) :=
  ⟨opens_of (by decide +kernel), by decide +kernel, by decide +kernel, by decide +kernel, by decide +kernel⟩

theorem witness_LocalStoreFrame : ∃ t, State.reset.Opens .c tz ∧ (∀ k, ((State.reset.slot .c).ctx k).regs = []) ∧
    (eaL (State.reset.slotCtx .c) 1 .d 0).toNat % szBytes .d = 0 ∧ exec (.st tz 2 1 .d .cr 0) State.reset = .next t :=
  ⟨_, opens_reset .c, by decide +kernel, by decide +kernel, rfl⟩

/-- A request of the C stream, under way or answered. -/
def tSent (s : State) (q : Req) (a : Option Ans) : State := s.modStr 0 .c fun t => { t with sent := some { (default : Sent) with req := q, ans := a } }

/-- A running task with scalars. -/
def tReg (l : List (Nat × Word)) : State := (tRun .c 0).modCtx 0 fun x => { x with s := l }

theorem witness_VirtualAccessResults :
    (let s := tReg [(1, 4)]
     s.Opens .c tz ∧ ((s.slotCtx .c).sr 1).toNat % 8 ≠ 0 ∧ ((s.slotCtx .c).sr 1).toNat % 4 = 0) ∧
    (let s := { tReg [(1, 8)] with memHold := true }
     s.Opens .c tz ∧ (s.slot .c).unanswered s.cur .c) ∧
    (let q := Req.ld 0x40000 8
     let s := tSent (tReg [(1, 0x40000)]) q (some (.bytes (leBytes 8 5)))
     s.Opens .c tz ∧ (s.slot .c).asked s.cur .c q (s.slot .c) (.bytes (leBytes 8 5))) ∧
    (let q := Req.amo .add 0x40000 5
     let s := tSent (tReg [(1, 0x40000)]) q (some (.word 5))
     s.Opens .c tz ∧ (s.slot .c).asked s.cur .c q (s.slot .c) (.word 5)) ∧
    (let q := Req.st 0x40000 8 5
     let s := tSent (tReg [(1, 0x40000)]) q (some .done)
     s.Opens .c tz ∧ (s.slot .c).asked s.cur .c q (s.slot .c) .done) ∧
    (let q := Req.st 0x40000 8 5
     let s := tSent (tReg [(1, 0x40000)]) q (some (.fault .protection 0x40000))
     s.Opens .c tz ∧ (s.slot .c).asked s.cur .c q (s.slot .c) (.fault .protection 0x40000)) := by
  refine ⟨⟨opens_of (by decide +kernel), by decide +kernel, by decide +kernel⟩, ⟨opens_of (by decide +kernel), .inr ⟨by decide +kernel, rfl⟩⟩, ?_⟩
  refine ⟨⟨opens_of (by decide +kernel), .inl ⟨_, rfl, rfl, rfl⟩⟩, ⟨opens_of (by decide +kernel), .inl ⟨_, rfl, rfl, rfl⟩⟩, ?_⟩
  exact ⟨⟨opens_of (by decide +kernel), .inl ⟨_, rfl, rfl, rfl⟩⟩, opens_of (by decide +kernel), .inl ⟨_, rfl, rfl, rfl⟩⟩

/-- A task that has declared all of its memory for writing, with an armed entry at 0x50000 that four bytes would overflow. -/
def tFoot : State :=
  { tRun .c 0 with
    launches := [(0, { loadLaunch with foot := [⟨.virt, 0, 43, 1, false⟩] })]
    regions := [(0, loadRegion), (1, { loadRegion with base := 0x50000, sealed := false, target := 4, count := 1 })] }

theorem witness_HomeServesAccesses :
    (∃ k, State.reset.vmCheck 0 .r .load 0x40000 8 = .error k) ∧ (∃ k, State.reset.vmCheck 0 .w .store 0x40000 8 = .error k) ∧
    (let s := tFoot
     s.vmCheck 0 .r .load 0x40000 8 = .ok [(0x40000, 8)] ∧ s.badPiece [(0x40000, 8)] = none ∧ (s.core 0).pend = [] ∧
       s.vmCheck 0 .w .store 0x100000 8 = .ok [(0x100000, 8)] ∧ s.sealedHit [(0x100000, 8)] = true ∧
       s.vmCheck 0 .w .store 0x50000 8 = .ok [(0x50000, 8)] ∧ s.sealedHit [(0x50000, 8)] = false ∧ s.dieRefusers [(0x50000, 8)] ≠ [] ∧
       s.vmCheck 0 .w .store 0x40000 8 = .ok [(0x40000, 8)] ∧ s.sealedHit [(0x40000, 8)] = false ∧ s.dieRefusers [(0x40000, 8)] = []) ∧
    (let s := { tFoot with regions := [] }
     s.vmCheck 0 .rw .atomic 0x40000 8 = .ok [(0x40000, 8)] ∧ (s.core 0).pend = [] ∧ s.regions = [] ∧ s.badPiece [(0x40000, 8)] = none) ∧
    (∃ p : PStore, p.pa = 0x40000 ∧ p.bytes = leBytes 8 5) ∧
    (∃ k a, (tRun .c 0).footCheck 0 .store .virt 0x40000 8 = some (k, a)) ∧
    (∃ x, State.reset.vRange (some 0) (State.reset.asidOf 0) .r 0x40000 8 = .error x) ∧
    (let s := tFoot
     0x40000 + 8 ≤ 2 ^ 72 ∧ s.space (s.asidOf 0) = some { gen := 0, retired := false, root := 0x10000, sweep := false, saveBase := 0, saveSize := 0 } ∧
       s.piecesCheck (some 0) (s.asidOf 0) .r (vPieces 0x40000 8) = .ok [(0x40000, 8)] ∧ s.footCheck 0 .load .virt 0x40000 8 = none ∧
       (∃ t, s.translateFor (some 0) (s.asidOf 0) 0x40000 = .ok t) ∧ ∃ k, s.translateFor (some 0) (s.asidOf 0) (2 ^ 42) = .error k) := by
  refine ⟨⟨.translation, ok_err (by decide +kernel)⟩, ⟨.translation, ok_err (by decide +kernel)⟩, ?_, ?_, ⟨⟨0x40000, 0x40000, leBytes 8 5, 0⟩, rfl, rfl⟩, ?_, ?_, ?_⟩
  · refine ⟨ok_of ?_, ?_, ?_, ok_of ?_, ?_, ok_of ?_, ?_, ?_, ok_of ?_, ?_, ?_⟩ <;> decide +kernel
  · refine ⟨ok_of ?_, ?_, rfl, ?_⟩ <;> decide +kernel
  · exact ⟨.undeclaredAccess, 0x40000, by decide +kernel⟩
  · exact ⟨(.translation, 0x40000), ok_err (by decide +kernel)⟩
  · exact ⟨by decide, by decide +kernel, ok_of (by decide +kernel), by decide +kernel, ⟨_, rfl⟩, ⟨.translation, ok_err (by decide +kernel)⟩⟩

/-- AMO adds at the home and answers the old word (R293). -/
theorem test_amo : (let t := tNext (exec (.amoAdd tz 5 1 2) (({ tFoot with regions := [] }.memWrite 0x40000 (leBytes 8 7)).modCtx 0 fun x =>
    { x with s := [(1, 0x40000), (2, 5)] }))
    ((t.ctx 0).strC.queue.map (·.dest), leNat (t.memRead 0x40000 8))) = ([.scalar 5 7], 12) := by decide +kernel

/-- A barrier object in XB at 0x40 with EXP, PEND and NEXT 1, and registers that name it. -/
def tBar : State := (tFull.modCore 0 fun k => { k with xb := [(0x40, 1), (0x42, 1), (0x44, 1)] }).modCtx 0 fun x =>
  { x with s := [(1, 0x40), (2, 0x48), (3, 0x1000000000000001)] }

theorem witness_BarrierResults :
    (let o : Barrier := ⟨4, 2, 4, 15, false, 0⟩
     o.pend < 3 ∧ 1 < o.pend ∧ o.pend = 2 ∧ o.exp < 2 ^ 16 ∧ o.next < 2 ^ 16 ∧ o.bph < 16 ∧ o.time < 2 ^ 64) ∧
    (let s := tBar
     let o := Barrier.ofBytes ((s.slot .c).localBytes s.cur 0 .xb 0x40 16)
     s.Opens .c tz ∧ ((s.slotCtx .c).sr 2).toNat % 16 ≠ 0 ∧ ((s.slotCtx .c).sr 1).toNat % 16 = 0 ∧ (bspSpace .xb).isSome = true ∧ bspSpace .vm = none ∧
       (s.slot .c).localRefusers s.cur .xb (span 0x40 16) = [] ∧ (s.slot .c).badOf s.cur 0 .xb (span 0x40 16) = none ∧
       1 ≤ o.pend ∧ o.pend < 2 ∧ (bspSpace (barwSpace ((s.slotCtx .c).sr 3))).isSome = true ∧ o.bph ≠ 1 ∧ o.bph = 0) ∧
    (let q := Req.bari 0x40000 5
     let s := tSent (tReg [(1, 0x40000)]) q (some .done)
     s.Opens .c tz ∧ (s.slot .c).asked s.cur .c q (s.slot .c) .done) ∧
    (let s := tFoot
     s.Opens .c tz ∧ ∃ w ph, (s.slot .c).serve 0 (.barw 0x40000) = (w, .word ph) ∧ (w.ctx 0).strC.bounded = (s.slotCtx .c).strC.bounded) := by
  refine ⟨by decide, ⟨opens_of (by decide +kernel), ?_⟩, ⟨opens_of (by decide +kernel), .inl ⟨_, rfl, rfl, rfl⟩⟩, opens_of (by decide +kernel), ?_⟩
  · refine ⟨?_, ?_, ?_, ?_, ?_, ?_, ?_, ?_, ?_, ?_, ?_⟩ <;> decide +kernel
  · exact ⟨_, _, rfl, by decide +kernel⟩

theorem witness_RegionCounting :
    (let e := tEntry 4
     (tEntry 0).target = 0 ∧ e.target ≠ 0 ∧ e.rearm = false ∧ e.fired = false ∧ e.count + 3 < e.target ∧ e.count + 4 = e.target ∧ e.target < e.count + 5) ∧
    { tEntry 4 with fired := true }.fired = true ∧ { tEntry 4 with rearm := true }.rearm = true := by decide

/-- A local entry of core 0 that has counted one of four bytes, and control words of arrival instructions. -/
def tArr : State := tFull.modCtx 0 fun x =>
  { x with s := [(1, 0x10), (2, 0xE000000000000000), (3, 0x3000000000000002), (4, 0x1000000000000000), (5, 0x3000000000000000)]
           regs := [(0, { tEntry 4 with count := 1 })] }

theorem witness_ArrivalInstructionResults :
    (let s := tArr
     let e := { tEntry 4 with count := 1 }
     s.Opens .c tz ∧ Space.ofCode (((s.slotCtx .c).sr 2).extractLsb' 60 4).toNat = none ∧
       Space.ofCode (((s.slotCtx .c).sr 3).extractLsb' 60 4).toNat = some .xb ∧ (s.ctx 0).coreEntry .xb 0x10 = some (0, e) ∧
       (s.ctx 0).regs.get? 0 = some e ∧ ((s.slotCtx .c).sr 4).getLsbD 60 = true ∧ (((s.slotCtx .c).sr 5).extractLsb' 0 48).toNat = 0 ∧
       e.count + 2 < e.target ∧ (s.slot .c).findEntry s.cur .await 0x10 0x3000000000000000 false = .ok (some (.core 0, e))) := by
  refine ⟨opens_of (by decide +kernel), ?_, ?_, ?_, ?_, ?_, ?_, ?_, ok_of ?_⟩ <;> decide +kernel
/-- ARRV adds its bytes and lands the new count (R306). -/
theorem test_arrv : tLands .c (.arrv tz 13 1 3) tArr = [(0, .scalar 13 3)] := by decide +kernel

/-- A packet: entry in C only, DRAIN; image 0. -/
def tPkt : BitVec 1024 := loadLaunch.pkt ||| BitVec.ofNat 1024 ((2 ^ 96 - 1) * 2 ^ (8 * 0x0C))

/-- A queue of the loaded address space, and an image with one kernel in C. -/
def tQueue : State :=
  { tFoot with
    queues := [(0, { level := 0, asid := loadAsid, ring := 0, ringK := 0, cons := 0, prod := 0, seq := 0, waiting := [] })]
    images := [(0, { gen := 0, asid := loadAsid, features := 0, secC := 0x100000, secV := 0, secM := 0, secX := 0, spans := [⟨.c, 0, 100, 0⟩] })] }

theorem witness_LaunchResults :
    (let s := tSent (tReg []) (.launch 0 0 false) (some (.word 5))
     s.Opens .c tz ∧ ∃ t, (s.slotCtx .c).strC.sent = some t ∧ t.req = .launch 0 0 false ∧ t.ans = some (.word 5)) ∧
    (let s := tReg [(1, 4), (2, 0x40000)]
     s.Opens .c tz ∧ (s.slotCtx .c).strC.sent = none ∧ ((s.slotCtx .c).sr 1).toNat % 64 ≠ 0 ∧ ((s.slotCtx .c).sr 2).toNat % 64 = 0 ∧
       (s.slot .c).memHold = false ∧ (∃ w k a, (s.slot .c).serve s.cur (.blk 0x40000 128) = (w, .fault k a)) ∧
       (s.slot .c).badOf s.cur 0 .cr (span 0 128) = none) ∧
    (let s := tFoot
     ∃ w bs, (s.slot .c).serve s.cur (.blk 0x40000 128) = (w, .bytes bs) ∧ w.memHold = false) ∧
    tQueue.launchCheck 0 tPkt loadAsid = (0, []) ∧ (State.reset.launchCheck 0 tPkt loadAsid = (2, [])) ∧
    (let s := { State.reset with launches := (List.range 32).map fun i => (i, { loadLaunch with tasks := [] }) }
     s.waitingIn 0 = 32) ∧
    (tQueue.waitingIn 0 < 32 ∧ State.reset.queues.get? 0 = none ∧ (∃ u, tQueue.queues.get? 0 = some u ∧ u.asid = loadAsid ∧ u.asid ≠ 0) ∧
      tQueue.images.get? 1 = none ∧ pktField (tPkt + 1) 0 2 = 1 ∧ (∃ g, tQueue.images.get? 0 = some g ∧ g.asid = loadAsid ∧ g.gen.toNat = pktField 0 2 1) ∧
      pktDrain 0 = false) := by
  refine ⟨⟨opens_of (by decide +kernel), _, rfl, rfl, rfl⟩, ⟨opens_of (by decide +kernel), ?_, ?_, ?_, ?_, ⟨_, _, _, rfl⟩, ?_⟩, ⟨_, _, rfl, ?_⟩, ?_, ?_, ?_, ?_, rfl,
    ⟨_, rfl, ?_, ?_⟩, rfl, ?_, ⟨_, rfl, ?_, ?_⟩, ?_⟩ <;> decide +kernel

/-- A second task of another address space, and this one. -/
theorem witness_CancelResults :
    (let s := tRun .c 0
     s.Opens .c tz ∧ (s.slotCtx .c).strC.sent = none ∧
       (s.slot .c).cancelNames ((s.slot .c).asidOf s.cur) 0 5 0 none = .error 8 ∧
       (s.slot .c).cancelNames 0 1 0 0 none = .error 2 ∧ (s.slot .c).cancelNames ((s.slot .c).asidOf s.cur) 1 0 0 (some (0, 0)) = .ok [] ∧
       ∃ w n, (s.slot .c).cancelTasks [] = (w, n, [])) ∧
    (let s := tSent (tReg []) (.cancel 1 [(0, 0)]) none
     s.Opens .c tz ∧ (∃ t, (s.slotCtx .c).strC.sent = some t ∧ t.req = .cancel 1 [(0, 0)]) ∧ ∃ q ∈ [(0, 0)], (s.slot .c).taskOver q = false) ∧
    (let s := tSent (tReg []) (.cancel 1 [(7, 0)]) none
     ∀ q ∈ [(7, 0)], (s.slot .c).taskOver q = true) := by
  refine ⟨⟨opens_of (by decide +kernel), ?_, ok_err ?_, ok_err ?_, ok_of ?_, ⟨_, _, rfl⟩⟩, ⟨opens_of (by decide +kernel), ⟨_, rfl, rfl⟩, (0, 0), ?_, ?_⟩, ?_⟩ <;>
    decide +kernel

/-- A task whose launch names phase counter 3 and has CKPT set. -/
def tPhase (arr : Bool) (go : Option (BitVec 16)) : State :=
  { (tRun .c 0).modStr 0 .c fun t => { t with phaseArr := arr, phaseGo := go } with
    launches := [(0, { loadLaunch with pkt := loadLaunch.pkt + BitVec.ofNat 1024 (3 * 2 ^ (8 * 0x70 + 16) + 2 ^ (8 * 0x70 + 31) + 2 ^ (8 * 0x3C + 19)) })] }

theorem witness_PhaseAndCheckpointResults :
    (let s := tRun .c 0
     s.Opens .c tz ∧ pktPhase ((s.slot .c).pktOf s.cur) = none ∧ ((s.slot .c).core s.cur).save = none ∧ pktCkpt ((s.slot .c).pktOf s.cur) = false) ∧
    (let s := tPhase false none
     s.Opens .c tz ∧ pktPhase ((s.slot .c).pktOf s.cur) = some 3 ∧ (s.slotCtx .c).strC.phaseArr = false ∧ (s.phases.getD 3 PhCtr.fresh).boundary = false) ∧
    ((tPhase true none).slotCtx .c).strC.phaseArr = true ∧ ((tPhase true none).slotCtx .c).strC.phaseGo = none ∧
    ((tPhase true (some 4)).slotCtx .c).strC.phaseGo = some 4 ∧
    (let s := tPhase false none |>.modCore 0 fun k => { k with save := some { (default : Save) with done := some 1 } }
     s.Opens .c tz ∧ ∃ v, ((s.slot .c).core s.cur).save = some v ∧ v.done = some 1) := by
  refine ⟨⟨opens_of ?_, ?_, ?_, ?_⟩, ⟨opens_of ?_, ?_, ?_, ?_⟩, ?_, ?_, ?_, opens_of ?_, ⟨_, rfl, rfl⟩⟩ <;> decide +kernel

/-- Sixteen outstanding tables with handles from 0 on. -/
def tTables (n : Nat) (l : List (Nat × Word)) : State :=
  (tFoot.modCtx 0 fun x => { x with s := l, tables := (List.range n).map fun i => { (default : CTable) with handle := BitVec.ofNat 16 i } })

theorem witness_CollectiveTableResults :
    ((tTables 16 []).Opens .c tz ∧ ((tTables 16 []).slotCtx .c).tables.length = 16) ∧
    (let s := tTables 1 [(1, 4), (2, 0x40000), (3, 65), (4, 64)]
     let x := s.slotCtx .c
     s.Opens .c tz ∧ x.tables.length < 16 ∧ (x.sr 1).toNat % 64 ≠ 0 ∧ (x.sr 2).toNat % 64 = 0 ∧ ((x.sr 0).extractLsb' 0 8).toNat = 0 ∧
       64 < ((x.sr 3).extractLsb' 0 8).toNat ∧ ((x.sr 4).extractLsb' 0 8).toNat = 64) ∧
    (let s := tTables 1 [(2, 0x40000), (4, 1), (5, 0)]
     let x := s.slotCtx .c
     (x.tables.any fun t => t.handle == (x.sr 5).extractLsb' 0 16) = true ∧
       (x.tables.any fun t => t.handle == (x.sr 4).extractLsb' 0 16) = false ∧ ((x.sr 0).extractLsb' 0 32).toNat ≤ x.strC.bounded ∧
       ¬ ((x.sr 4).extractLsb' 0 32).toNat ≤ x.strC.bounded ∧
       ∃ w bs k off, (s.slot .c).asked s.cur .c (.blk 0x40000 64) w (.bytes bs) ∧
         w.tableFault (w.asidOf 0) 0 [BitVec.ofNat 512 (leNat bs)] = some (k, off)) := by
  refine ⟨⟨opens_of ?_, ?_⟩, ⟨opens_of ?_, ?_, ?_, ?_, ?_, ?_, ?_⟩, ?_⟩
  iterate 9 decide +kernel
  refine ⟨?_, ?_, ?_, ?_, _, _, .protection, 16, .inr ⟨rfl, rfl, rfl⟩, ?_⟩ <;> decide +kernel

theorem witness_VectorIntegerResults : State.reset.Opens .v tz ∧ Fmt.n8.isFIN = true ∧ Fmt.n8.isFloat = false ∧ Fmt.i64.isFIN = true ∧ Fmt.i64.isFloat = false :=
  ⟨opens_reset .v, rfl, rfl, rfl, rfl⟩

/-- Sources that pass every check: v1 to v3 in OF, and a window that is not granted, an ephemeral window that is over, a bad byte. -/
def tVec : State := { tFull.modCore 0 fun k => { k with bad := [(.ofs, 0x200)], ctx := { k.ctx with views := [(5, 0x100000)], eph := [(6, 0, 4)] } } with cycle := 1 }

/-- No byte of the sources is bad, so none spoils the read. -/
theorem clean_of {s : State} {srcs : List VReg} {takes : VReg → Nat → Prop}
    (h : ∀ q ∈ srcs, (List.range 128).all fun b => !(s.slot .v).badAt s.cur 1 .ofs ((s.slotCtx .v).view q + b)) :
    ∀ q ∈ srcs, ∀ a, ¬ s.spoils takes q a := by
  rintro q hq a ⟨_, b, hb, rfl, _, h'⟩
  simpa [h'] using List.all_eq_true.1 (h q hq) b (List.mem_range.2 hb)

theorem witness_VecReady : tVec.VecReady [1, 2] [3] allBytes :=
  ⟨by decide +kernel, by decide +kernel, clean_of (by decide +kernel), by decide +kernel⟩

theorem witness_VectorFloatResults : tVec.Opens .v tz ∧ tVec.VecReady [1, 2] [3] allBytes ∧ Fmt.f16.isF = true ∧ Fmt.f64.isF = true :=
  ⟨opens_of (by decide +kernel), witness_VecReady, rfl, rfl⟩

theorem witness_FloatValueLaws :
    (let x := State.reset.ctx 0
     Fmt.f32.isFloat = true ∧ 0x7FC00000 < 2 ^ Fmt.f32.width ∧ (x.num .f32 0x7FC00000).isNan = true ∧ (x.num .f32 0x3F800000).isNan = false ∧
       (x.num .f32 0x80000000).isZero = true ∧ (x.num .f32 0).isZero = true) ∧
    (0x7F800000 < 2 ^ Fmt.f32.width ∧ Fmt.f32 ≠ .e8m0 ∧ (Num.ofCode .f32 0x7F800000).isNan = false ∧ Fmt.f32.flushable = true ∧
      subnormalCode .f32 0x00800000 = false ∧ subnormalCode .f32 1 = true) := by
  refine ⟨⟨?_, ?_, ?_, ?_, ?_, ?_⟩, ?_, ?_, ?_, ?_, ?_, ?_⟩ <;> decide +kernel

theorem witness_VectorCompareAndMoveResults : tVec.Opens .v tz ∧ tVec.VecReady [1, 2] [] allBytes ∧ tVec.VecReady [1, 2] [3] allBytes ∧ tVec.VecReady [1] [] allBytes ∧ Fmt.n64.isFIN = true ∧
    Fmt.bf16.isFIN = true := by
  refine ⟨opens_of ?_, ⟨?_, ?_, clean_of ?_, ?_⟩, witness_VecReady, ⟨?_, ?_, clean_of ?_, ?_⟩, rfl, rfl⟩ <;> decide +kernel

theorem witness_VectorReductionResults : tVec.Opens .v tz ∧ Fmt.i8.isFI = true ∧ Fmt.f64.isFI = true ∧ tVec.VecReady [1] [3] allBytes ∧
    (Fmt.n8.isFloat = false ∧ ∀ c ∈ [0, 255], c < 2 ^ Fmt.n8.width) := by
  refine ⟨opens_of ?_, rfl, rfl, ⟨?_, ?_, clean_of ?_, ?_⟩, rfl, ?_⟩ <;> decide +kernel

theorem witness_VectorOperandFaults :
    (let s := tVec
     let x := s.slotCtx .v
     s.Opens .v tz ∧ vectorForm (.vadd tz .f32 false 3 5 1) = some (tz, [5, 1], [3]) ∧ ([5, 1] ++ [3] : List VReg).find? x.viewBad = some 5 ∧
       (∀ q ∈ ([6, 1] ++ [3] : List VReg), x.viewBad q = false) ∧ ([6, 1] : List VReg).find? x.expired = some 6 ∧ (∀ q ∈ ([4, 1] : List VReg), x.expired q = false) ∧
       s.refreshHit ((([4, 1] : List VReg).map x.regSpan).flatten) = false ∧ ([4, 1] : List VReg).findSome? (fun q => (s.slot .v).badOf s.cur 1 .ofs (x.regSpan q)) = some 0x200) ∧
    (let s := State.reset
     s.refreshHit (([(0 : VReg), 1].map (s.slotCtx .v).regSpan).flatten) = true) := by
  refine ⟨⟨opens_of ?_, rfl, ?_, ?_, ?_, ?_, ?_, ?_⟩, ?_⟩ <;> decide +kernel

theorem witness_VectorConversionResults : tVec.Opens .v tz ∧ tVec.VecReady [2] [7] allBytes ∧ tVec.VecReady [2, 3] [7] allBytes ∧ tVec.VecReady [2] [7, 8, 9, 10] allBytes ∧
    packPair .f32 .bf16 = true ∧ packPair .f64 .e2m1 = true ∧ unpkPair .e2m1 .f16 = true ∧ unpkPair .i8 .i64 = true ∧ Fmt.f32 ≠ .e8m0 := by
  refine ⟨opens_of ?_, ⟨?_, ?_, clean_of ?_, ?_⟩, ⟨?_, ?_, clean_of ?_, ?_⟩, ⟨?_, ?_, clean_of ?_, ?_⟩, rfl, rfl, rfl, rfl, ?_⟩ <;> decide +kernel

theorem witness_QuantisationResults :
    (let s := tVec.modCtx 0 fun x => { x with s := [(48, 2)] }
     s.Opens .v tz ∧ qPair .i8 .g32 = true ∧ ((s.slotCtx .v).sr 48).toNat % 4 ≠ 0 ∧ (∀ q ∈ [1, 3], (s.slotCtx .v).viewBad q = false) ∧
       (s.slotCtx .v).expired 1 = false) ∧
    (let s := tVec.modCore 0 fun k => { k with bad := [(.sm, 4)] }
     s.Opens .v tz ∧ qPair .e4m3 .s16 = true ∧ s.VecReady [1] [3] allBytes ∧ (s.slot .v).badOf s.cur 1 .sm (span 0 2) = none ∧
       (s.slot .v).badOf s.cur 1 .sm (span 0x20 2) = some 0x20) ∧
    (∃ v ∈ [Num.nan], v = .nan) ∧ (amaxOf [Num.fin true 0 0 false]).isZero = true ∧ (amaxOf [Num.fin true 3 0 false]).isZero = false ∧
    (let q := quantBlock .e4m3 .mx { mode := .rne, sat := true, ftz := false, rand := { k := 0, r := 0 } } [Num.fin false 3 0 false]
     1 ≤ q.scale ∧ q.scale ≤ 253) := by
  refine ⟨⟨opens_of ?_, rfl, ?_, ?_, ?_⟩, ⟨opens_of ?_, rfl, ⟨?_, ?_, clean_of ?_, ?_⟩, ?_, ?_⟩, ⟨_, List.mem_singleton.2 rfl, rfl⟩, ?_, ?_, ?_⟩ <;> decide +kernel

theorem witness_VectorMemoryResults :
    (let s := tVec.modCtx 0 fun x => { x with s := [(48, 0x80), (49, 1)] }
     s.Opens .v tz ∧ (∀ q ∈ [] ++ [3], (s.slotCtx .v).viewBad q = false) ∧ ((s.slotCtx .v).sr 48 + (s.slotCtx .v).sr 49).toNat % 128 ≠ 0 ∧
       ((s.slotCtx .v).sr 48).toNat % 128 = 0 ∧ s.VecReady [] [3] allBytes ∧ s.VecReady [1] [3] allBytes ∧ s.VecReady ([] ++ [3]) [] allBytes ∧
       (s.slot .v).ldBad s.cur 1 .xb (span 0x80 128) = none ∧ (s.vecSeen [3]).localRefusers s.cur .xb (span 0x80 128) = []) ∧
    (let s := (tVec.modCore 0 fun k => { k with bad := [(.xb, 16)] }).modCtx 0 fun x => { x with regs := [(0, tEntry 100)] }
     (s.slot .v).ldBad s.cur 1 .xb (span 0x80 128) = some 0x80 ∧ (s.vecSeen [3]).localRefusers s.cur .xb (span 0x80 128) ≠ []) := by
  refine ⟨⟨opens_of ?_, ?_, ?_, ?_, ⟨?_, ?_, clean_of ?_, ?_⟩, ⟨?_, ?_, clean_of ?_, ?_⟩, ⟨?_, ?_, clean_of ?_, ?_⟩, ?_, ?_⟩, ?_, ?_⟩ <;> decide +kernel

/-! ### The M stream -/

/-- A view of a tile by rows. -/
def tTile (base pitch rows cols : Nat) (f : Fmt) : TView := { base := base, pitch := pitch, rows := rows, cols := cols, fmt := f, maj := false }

/-- Tiles 0 to 8, accumulators 0 to 3 and weight 0 of one context. -/
def tMat : State := tFull.modCtx 0 fun x => { x with
  tv := [(0, tTile 0 16 2 4 .i8), (1, tTile 0x100 16 4 2 .i8), (2, tTile 0x200 16 4 2 .i4), (3, tTile 0x300 64 2 4 .f64),
    (4, tTile 0x300 64 4 2 .f64), (5, tTile 0x400 16 3 2 .i8), (6, tTile 0x500 16 2 2 .e8m0), (7, tTile 0x600 16 2 2 .bf16),
    (8, tTile 0x100000 16 4 2 .i8), (9, tTile 0x700 16 1 32 .e4m3), (10, tTile 0x800 16 32 1 .e4m3), (11, { tTile 0x900 16 1 2 .n8 with maj := true }),
    (12, tTile 0xA00 16 2 2 .i4)]
  av := [(0, tTile 0x40000 16 2 2 .i32), (1, tTile 0x40100 16 2 2 .f32), (2, tTile 0x40200 64 16 13 .i32), (3, tTile 0x40800 16 1 1 .f32)]
  wv := [(0, BitVec.ofNat 64 (2 ^ 63 + 17 * 2 ^ 57 + 2 ^ 47 + 3 * 2 ^ 37 + 16 * 2 ^ 21))]
  s := [(48, 0x21), (49, 0), (50, 1)]
  lend := 1 }

theorem tile_of {x : Ctx} {n : TReg} {v : TView} (h : x.tv.get? n.toNat = some v) (w : windowOf .ofs v.base = none) : x.tileIs n v := by
  refine ⟨h, fun i o q => ?_⟩
  rw [w] at q
  cases q

/-- The job of a product of tiles before it reads. -/
def tJob (kind : MmaKind) (geo : Nat) (a b v : TView) : MmaJob :=
  { kind := kind, geo := geo, a := a, b := b, bIsWb := false, acc := v, zero := true, st := 0, sa := [], sb := [],
    ra := [], rb := [], chunks := 0, age := 0, readAt := 24, accv := none }

theorem witness_MatrixProductResults :
    (let s := tMat.modCtx 0 fun x => { x with mnest := some default }
     s.Opens .m tz ∧ (s.slotCtx .m).mnest ≠ none) ∧
    (let x := tMat.slotCtx .m
     tMat.Opens .m tz ∧ x.mnest = none ∧
       x.tileIs 0 (tTile 0 16 2 4 .i8) ∧ x.tileIs 1 (tTile 0x100 16 4 2 .i8) ∧ x.tileIs 2 (tTile 0x200 16 4 2 .i4) ∧ x.tileIs 3 (tTile 0x300 64 2 4 .f64) ∧
       x.tileIs 4 (tTile 0x300 64 4 2 .f64) ∧ x.tileIs 5 (tTile 0x400 16 3 2 .i8) ∧
       x.tileIs 9 (tTile 0x700 16 1 32 .e4m3) ∧ x.tileIs 10 (tTile 0x800 16 32 1 .e4m3) ∧
       x.accIs 0 (tTile 0 16 2 2 .i32) ∧ x.accIs 1 (tTile 0x100 16 2 2 .f32) ∧ x.accIs 3 (tTile 0x800 16 1 1 .f32)) ∧
    (tMat.slotCtx .m).weightIs 0 (tTile 0 16 4 2 .i8) ∧
    mmaPair .plain 0 .i8 .i8 = true ∧ mmaAcc .plain .i8 = .i32 ∧ mmaPair .plain 0 .i8 .i4 = false ∧
    mmaPair .block 1 .e4m3 .e4m3 = true ∧ mmaAcc .block .e4m3 = .f32 ∧ mmaPair .group 4 .i8 .i8 = true ∧
    (let s := { tMat with mgmt := { tMat.mgmt with usable := 6 } }
     s.mgmt.usable.getLsbD 0 = false) ∧
    (let j := tJob .plain 0 (tTile 0 16 2 4 .i8) (tTile 0x100 16 4 2 .i8) (tTile 0 16 2 2 .i32)
     let s := tMat.modCore 0 fun k => { k with bad := [(.ofs, 0x110)] }
     (∀ l ∈ j.spansNow, (tMat.slot .m).badOf tMat.cur 2 l.1 l.2 = none) ∧
       j.spansNow.findSome? (fun l => (s.slot .m).badOf s.cur 2 l.1 l.2) = some 0x110) ∧
    (let s := tMat.modCore 0 fun k => { k with bad := [(.sm, 0)] }
     (tMat.slot .m).badOf tMat.cur 2 .sm (scaleSpan 0 0 1 1 1) = none ∧ (s.slot .m).badOf s.cur 2 .sm (scaleSpan 0 0 1 1 1) = some 0) := by
  refine ⟨⟨opens_of ?_, ?_⟩, ⟨opens_of ?_, ?_, tile_of rfl rfl, tile_of rfl rfl, tile_of rfl rfl, tile_of rfl rfl, tile_of rfl rfl, tile_of rfl rfl,
    tile_of rfl rfl, tile_of rfl rfl, ⟨_, rfl, rfl⟩, ⟨_, rfl, rfl⟩, ⟨_, rfl, rfl⟩⟩, ⟨?_, ?_⟩, rfl, rfl, rfl, rfl, rfl, rfl, rfl, ⟨?_, ?_⟩, ?_, ?_⟩ <;>
    decide +kernel

theorem witness_MatrixElementValues :
    (let j := tJob .plain 0 (tTile 0 16 2 4 .i8) (tTile 0x100 16 4 2 .i8) (tTile 0 16 2 2 .i32)
     j.kind = .plain ∧ mmaAcc j.kind j.a.fmt = .i32 ∧ j.b.fmt.isFloat = false ∧ mmaAcc MmaKind.plain Fmt.bf16 ≠ .i32) ∧
    (∀ q ∈ [(Num.fin false 3 0 false, Num.fin true 1 2 false)], q.1.exact ∧ q.2.exact) ∧
    (let j := { tJob .plain 0 (tTile 0 16 2 4 .i8) (tTile 0x100 16 4 2 .i8) (tTile 0 16 2 2 .i32) with zero := false }
     (∃ j1, tMat.mmaRead 0 2 j = .ok j1) ∧ j.chunks ≤ j.age ∧ j.age < (j.a.cols + mmaKc j.kind j.a.fmt j.b.fmt - 1) / mmaKc j.kind j.a.fmt j.b.fmt ∧
       (j.ra.getD 0 []).length = j.age * mmaKc j.kind j.a.fmt j.b.fmt) ∧
    (let j := tJob .plain 0 (tTile 0 16 2 4 .i8) (tTile 0x100 16 4 2 .i8) (tTile 0 16 2 2 .i32)
     j.acc.maj = false ∧ j.acc.lineLen ≤ j.acc.pitch ∧ (∀ q ∈ j.acc.lineSpans, (tFull.cellOf 0 .acs q).isSome = true) ∧
       ∀ k, (tFull.ctx k).regs = []) := by
  refine ⟨⟨rfl, rfl, rfl, by decide⟩, ?_, ⟨⟨_, rfl⟩, by decide, by decide, rfl⟩, rfl, by decide, by decide +kernel, by decide +kernel⟩
  intro q h
  simp only [List.mem_singleton] at h
  subst h
  exact ⟨⟨_, _, _, rfl⟩, ⟨_, _, _, rfl⟩⟩

/-- Results of one MMA (R204, R205, R214): the sums of i8 products, chained onto the accumulator; the row is 1 2 3 4 and B's columns 1 1 1 1 and 2 0 2 0. -/
def tSums : MmaJob :=
  { tJob .plain 0 (tTile 0 16 1 4 .i8) (tTile 0x100 16 4 2 .i8) (tTile 0 16 1 2 .i32) with ra := [[1, 2, 3, 0xFC]], rb := [[1, 1, 1, 1], [2, 0, 2, 0]] }
theorem test_mma_sums : (tSums.element 0 0 10).1 = 12 ∧ (tSums.element 0 1 0xFFFFFFFF).1 = 7 := by decide +kernel

theorem witness_AccumulatorAndTileResults :
    (let x := tMat.slotCtx .m
     tMat.Opens .m tz ∧ x.accIs 2 (tTile 0x200 64 16 13 .i32) ∧ 192 < 16 * 13 ∧ x.accIs 0 (tTile 0 16 2 2 .i32) ∧ x.accIs 1 (tTile 0x100 16 2 2 .f32) ∧
       x.accIs 3 (tTile 0x800 16 1 1 .f32) ∧ x.tileIs 0 (tTile 0 16 2 4 .i8) ∧ x.tileIs 1 (tTile 0x100 16 4 2 .i8) ∧ x.tileIs 6 (tTile 0x500 16 2 2 .e8m0) ∧
       x.tileIs 7 (tTile 0x600 16 2 2 .bf16) ∧ x.tileIs 12 (tTile 0xA00 16 2 2 .i4) ∧ x.tileIs 11 { tTile 0x900 16 1 2 .n8 with maj := true }) ∧
    (let l := [(Space.acs, tTile 0 16 2 2 .i32)]
     let s := tMat.modCore 0 fun k => { k with bad := [(.acs, 0)] }
     (∀ p ∈ l, (tMat.slot .m).badOf tMat.cur 2 p.1 p.2.lineSpans = none) ∧
       l.findSome? (fun p => (s.slot .m).badOf s.cur 2 p.1 p.2.lineSpans) = some 0) ∧
    (let s := tMat.modCore 0 fun k => { k with bad := [(.xb, 8)] }
     (tMat.slot .m).ldBad tMat.cur 2 .xb (span 0x40 4) = none ∧ (s.slot .m).ldBad s.cur 2 .xb (span 0x40 4) = some 0x40) ∧
    ((tMat.slotCtx .m).sr 48).toNat % 2 ^ 32 % 64 ≠ 0 ∧ ((tMat.slotCtx .m).sr 49).toNat % 2 ^ 32 % 64 = 0 := by
  refine ⟨⟨opens_of ?_, ⟨_, rfl, rfl⟩, ?_, ⟨_, rfl, rfl⟩, ⟨_, rfl, rfl⟩, ⟨_, rfl, rfl⟩, tile_of rfl rfl, tile_of rfl rfl, tile_of rfl rfl, tile_of rfl rfl,
    tile_of rfl rfl, tile_of rfl rfl⟩, ⟨?_, ?_⟩, ⟨?_, ?_⟩, ?_, ?_⟩ <;> decide +kernel

/-- A matrix nest's table: one instance of MMA of tiles 0 and 1 into accumulator 0, gated by entry 2 or not. -/
def tNest (gate : Bool) : State := tMat.modCtx 0 fun x => { x with
  mn := [(0, BitVec.ofNat 64 (4 * 2 ^ 32 + 0x1000 * 2 ^ 16 + if gate then 2 ^ 15 + 2 else 0)), (1, BitVec.ofNat 64 (0x00040001 * 2 ^ 32))] }

theorem witness_MatrixControlResults :
    (let s := tMat.modStr 0 .m fun t => { t with queue := [{ (default : Landing) with left := 3, dest := .mstat false }] }
     s.Opens .m tz ∧ 0 < (s.slotCtx .m).strM.queue.foldl (fun a l => max a l.left) 0) ∧
    (tMat.slotCtx .m).strM.queue = [] ∧ nestBody (nd (tMat.slotCtx .m).shadowTab 1 / 2 ^ 32) = none ∧
    (let s := tNest false
     let x := s.slotCtx .m
     let t := x.shadowTab
     ∃ f sx, s.Opens .m tz ∧ x.mnest = none ∧ nestBody (nd t 1 / 2 ^ 32) = some (f, sx) ∧ f.kind = .plain ∧ matReserved t f.kind = false ∧
       (∃ p, (s.slot .m).mmaOperands s.cur f = .ok p ∧
         (s.slot .m).nestExtreme s.cur t [(0, .ofs, p.1), (1, if f.w then .wb else .ofs, p.2.1), (2, .acs, p.2.2)] = none) ∧ tabGated t = false) ∧
    (let s := (tNest true).modCtx 0 fun x => { x with regs := [(2, default)] }
     tabGated (s.slotCtx .m).shadowTab = true ∧ (s.slotCtx .m).regs.has (tabEntry (s.slotCtx .m).shadowTab) = true) ∧
    (let s := tMat.modCtx 0 fun x => { x with mn := [(0, 0x40), (1, BitVec.ofNat 64 (0x00440001 * 2 ^ 32))] }
     matReserved (s.slotCtx .m).shadowTab .plain = true) ∧
    (let s := tMat.modCtx 0 fun x => { x with mn := [(1, BitVec.ofNat 64 (0x00040001 * 2 ^ 32))], tv := [] }
     let t := (s.slotCtx .m).shadowTab
     ∃ f sx w, nestBody (nd t 1 / 2 ^ 32) = some (f, sx) ∧ matReserved t f.kind = false ∧ (s.slot .m).mmaOperands s.cur f = .error w) := by
  refine ⟨⟨opens_of ?_, ?_⟩, ?_, ?_, ⟨_, _, opens_of ?_, ?_, rfl, rfl, ?_, ⟨_, rfl, ?_⟩, ?_⟩, ⟨?_, ?_⟩, ?_, _, _, _, rfl, ?_, rfl⟩ <;> decide +kernel

/-! ### SEAL and FENCE, the X stream and the engines -/

theorem witness_SealAndFenceResults :
    (let s := tSent (tReg [(1, 0x100000)]) (.seal 0x100000) (some .done)
     s.Opens .c tz ∧ (s.slot .c).asked s.cur .c (.seal 0x100000) (s.slot .c) .done) ∧
    (let s := tSent (tReg [(1, 0x100000)]) (.unseal 0x100000) (some .done)
     (s.slot .c).asked s.cur .c (.unseal 0x100000) (s.slot .c) .done) ∧
    (let s := tSent (tReg [(1, 0x100000)]) (.seal 0x100000) (some (.fault .undeclaredAccess 0x100000))
     (s.slot .c).asked s.cur .c (.seal 0x100000) (s.slot .c) (.fault .undeclaredAccess 0x100000)) ∧
    (let s := (tRun .c 0).modCore 0 fun k => { k with pend := [⟨0x40000, 0x40000, [5], 0⟩], ctx := { k.ctx with strC := { k.ctx.strC with fence := true } } }
     (s.core 0).free = true ∧ (s.core 0).save = none ∧ s.runs 0 .c = true ∧ s.idleTurn 0 .c = false ∧ (s.core 0).govHolds .c s.cycle = false ∧
       (s.ctx 0).strC.fence = true ∧ (s.core 0).pend ≠ []) ∧
    (let s := tFoot
     s.vRange (some 0) (s.asidOf 0) .r (s.vaOf 0 0x50000).toNat 1 = .ok [(0x50000, 1)] ∧
       (∃ id e, s.dieEntry (s.asidOf 0) .virt (s.vaOf 0 0x50000).toNat = some (id, e) ∧ s.regions.get? id = some e ∧
         s.footCheck 0 .seal .virt e.base (2 ^ e.k) = none)) := by
  refine ⟨⟨opens_of ?_, .inl ⟨_, rfl, rfl, rfl⟩⟩, .inl ⟨_, rfl, rfl, rfl⟩, .inl ⟨_, rfl, rfl, rfl⟩, ⟨?_, ?_, ?_, ?_, ?_, ?_, ?_⟩, ok_of ?_, 1,
    { loadRegion with base := 0x50000, sealed := false, target := 4, count := 1 }, ?_, ?_, ?_⟩ <;>
    decide +kernel

/-- A block that copies n bytes from SRC of a space to DST of another. -/
def tBlk (ss ds src dst n : Nat) : BitVec 512 :=
  BitVec.ofNat 512 (src + dst * 2 ^ 64 + n * 2 ^ 192 + 2 ^ 224 + (ss * 16 + ds) * 2 ^ 312)

theorem witness_CopyCommandResults :
    (let s := tFull.modCtx 0 fun x => { x with cmds := List.replicate 16 default }
     s.Opens .x tz ∧ 16 ≤ (s.slotCtx .x).cmds.length) ∧
    (let s := tFull.modCtx 0 fun x => { x with s := [(48, 0x40), (49, 2), (50, 4)] }
     s.Opens .x tz ∧ (s.slotCtx .x).cmds.length < 16 ∧ ((s.slotCtx .x).sr 49).toNat % 64 ≠ 0 ∧ ((s.slotCtx .x).sr 48).toNat % 64 = 0 ∧
       ((s.slotCtx .x).sr 50).toNat % 2 ^ 32 % 4 = 0 ∧ ((s.slotCtx .x).sr 49).toNat % 2 ^ 32 % 4 ≠ 0 ∧ (s.slot .x).badOf s.cur 3 .cr (span 0x40 64) = none) ∧
    (let s := tFull.modCore 0 fun k => { k with bad := [(.cr, 0x47)] }
     (s.slot .x).badOf s.cur 3 .cr (span 0x40 64) = some 0x47) ∧
    blkFault .copy 0 (tBlk 3 0 0 0x40 8) = none ∧ blkFault .strm 0 (tBlk 3 0 1 0x40 0) = some (.misaligned, 0) ∧
    blkFault .mcast 0 (tBlk 3 3 0 0x40 8) = some (.protection, 0x28) ∧
    (State.reset.ctx 0).copyNestFault 0 (tBlk 3 0 0 0x40 8) = none ∧ (State.reset.ctx 0).copyNestFault 0x40 (tBlk 3 0 0 0x40 8) = some (nestWord 0 15 2) ∧
    (let s := { (tRun .x 0).modCtx 0 fun x => { x with s := [(48, 0x40000)] } with memHold := true }
     s.Opens .x tz ∧ (s.slot .x).unanswered s.cur .x) ∧
    (let s := tFoot
     (∃ w bs, (s.slot .x).asked s.cur .x (.blk 0x40000 64) w (.bytes bs)) ∧ ∃ w k a, (s.slot .x).asked s.cur .x (.blk (2 ^ 42) 64) w (.fault k a)) := by
  refine ⟨⟨opens_of ?_, ?_⟩, ⟨opens_of ?_, ?_, ?_, ?_, ?_, ?_, ?_⟩, ?_, ?_, ?_, ?_, ?_, ?_, ⟨opens_of ?_, .inr ⟨?_, ?_⟩⟩, ⟨_, _, .inr ⟨?_, ?_, rfl⟩⟩,
    _, _, _, .inr ⟨?_, ?_, rfl⟩⟩ <;> decide +kernel

/-- A running task with commands of its X stream, not started or started. -/
def tCmd (started finished : Bool) (kind : CmdKind) : XCmd :=
  { (default : XCmd) with kind := kind, blk := tBlk 3 0 0 0x40 8, started := started, finished := finished }
def tEng (l : List XCmd) : State :=
  ((tRun .x 0).modCore 0 fun k => { k with xb := [(0, 7), (7, 9)] }).modCtx 0 fun x =>
    { x with cmds := l, allot := ⟨0x30000, 0x80000, 0x200000, 0x100000, 0x20000, 0x800000⟩ }

/-- The position of a nest before a step of a table, gated by entry 2 or not. -/
def tPos (gate : Nat) (opened : Bool) (waited : Nat) : NestPos :=
  { tab := BitVec.ofNat 512 (gate * (2 ^ 15 + 2)), step := 0, opened := opened, f0 := 0, waited := waited }

theorem witness_EngineItemsAndEvents :
    (let s := tEng []
     let b := tBlk 3 0 0 0x40 8
     blkSspc b = some .xb ∧ blkDspc b = some .ofs ∧ blkRepk b = 0 ∧ blkRows b = 1 ∧ blkLen b = 8 ∧ blkSrc b = 0 ∧ blkDst b = 0x40 ∧
       (s.ctx 0).regs = [] ∧ (∀ k, k < 8 → (s.cellOf 0 .xb (0 + k)).isSome = true ∧ (s.cellOf 0 .ofs (0x40 + k)).isSome = true) ∧
       s.badOf 0 4 .xb (span 0 8) = none ∧ ∀ i, i < 8 → ∀ j, j < 8 → s.cellOf 0 .xb (0 + i) ≠ s.cellOf 0 .ofs (0x40 + j)) ∧
    (let s := tEng [tCmd true false .copy, tCmd false false .copy]
     (s.core 0).run ≠ none ∧ (s.core 0).restore = none ∧ (s.ctx 0).cmds[1]? = some (tCmd false false .copy) ∧
       (tCmd false false .copy).started = false ∧ (tCmd true false .copy).items = 1 ∧ (tCmd true false .copy).owed = none ∧
       s.siteHeld 0 (tCmd true false .copy) = false ∧ (s.core 0).halting = false ∧ s.recRoom 0 = true) ∧
    (tCmd true true .copy).finished = true ∧ (tCmd false true .fence).kind = .fence ∧
    { tCmd true false .copy with owed := some (.misaligned, 0, 1, 0) }.owed = some (.misaligned, 0, 1, 0) ∧
    (let k := { tCmd true false .copy with nest := some (tPos 0 false 0) }
     k.between = true ∧ tabGated (tPos 0 false 0).tab = false) ∧
    (let k := { tCmd true false .copy with nest := some (tPos 1 false 5) }
     k.between = true ∧ ¬ (tabGated (tPos 1 false 5).tab = false ∨ ∃ e, (tEng [k] |>.ctx 0).regs.get? (tabEntry (tPos 1 false 5).tab) = some e ∧
       0 + 1 ≤ (e.fires - 0).toNat)) ∧
    (let n : MNest := { (default : MNest) with tab := BitVec.ofNat 512 (2 ^ 15 + 2), waited := 5 }
     n.fail = none ∧ n.step ≠ tabSteps n.tab ∧ ¬ (tabGated n.tab = false ∨ ∃ e, (tEng [] |>.ctx 0).regs.get? (tabEntry n.tab) = some e ∧
         n.step + 1 ≤ (e.fires - n.f0).toNat)) ∧
    (let n : MNest := { (default : MNest) with step := 1 }
     n.fail = none ∧ n.step = tabSteps n.tab) := by
  have gate : ∀ (r : FMap Region) (t : BitVec 512) (p : Region → Prop), tabGated t = true → r.get? (tabEntry t) = none →
      ¬ (tabGated t = false ∨ ∃ e, r.get? (tabEntry t) = some e ∧ p e) := by
    rintro r t p h h' (h1 | ⟨e, h2, -⟩)
    · simp [h] at h1
    · rw [h'] at h2
      cases h2
  refine ⟨⟨?_, ?_, ?_, ?_, ?_, ?_, ?_, ?_, ?_, ?_, ?_⟩, ⟨?_, ?_, ?_, ?_, ?_, ?_, ?_, ?_, ?_⟩, ?_, ?_, ?_, ⟨?_, ?_⟩, ⟨?_, gate _ _ _ ?_ ?_⟩,
    ⟨?_, ?_, gate _ _ _ ?_ ?_⟩, ?_, ?_⟩ <;> decide +kernel

/-! ### Events -/

theorem witness_StreamEventResults :
    (let s := (tRun .c 0).modStr 0 .c fun t => { t with occ := 2, queue := [{ (default : Landing) with dest := .scalar 5 7 }] }
     (s.sched.head? = some (.strm 0 .c) ∧ (s.core 0).free = true ∧ (s.core 0).saveLets .c = true ∧
       (((s.ctx 0).str .c).live = .exited ∨ (((s.ctx 0).str .c).live = .live ∧ ((s.ctx 0).str .c).occ ≠ 0)) ∧ (s.ctx 0).te = false) ∧
       ∀ l ∈ ((s.ctx 0).str .c).queue, l.left = 0 → ∃ d v, l.dest = .scalar d v) ∧
    (let j := { tJob .plain 0 (tTile 0 16 2 4 .i8) (tTile 0x100 16 4 2 .i8) (tTile 0 16 2 2 .i32) with zero := false, age := 24 }
     let s := (tRun .m 0).modStr 0 .m fun t => { t with occ := 2, queue := [{ (default : Landing) with dest := .mma j }] }
     (s.sched.head? = some (.strm 0 .m) ∧ (s.core 0).free = true ∧ (s.core 0).saveLets .m = true ∧
       (((s.ctx 0).str .m).live = .exited ∨ (((s.ctx 0).str .m).live = .live ∧ ((s.ctx 0).str .m).occ ≠ 0)) ∧ (s.ctx 0).te = false) ∧
       ∃ l j, l ∈ (s.ctx 0).strM.queue ∧ l.dest = .mma j ∧ j.zero = false ∧ j.age = j.readAt) ∧
    (let s := (tRun .c 0).modStr 0 .c fun t => { t with wait := some (3, 2 ^ 32), dfault := some (.misaligned, 4) }
     s.runs 0 .c = true ∧ (s.ctx 0).strC.wait = some (3, 2 ^ 32) ∧ (s.ctx 0).limit ≤ 2 ^ 32 ∧ (s.ctx 0).strC.skip = 0 ∧ (s.ctx 0).strC.occ = 0 ∧
       (s.ctx 0).strC.dfault = some (.misaligned, 4) ∧ (s.ctx 0).te = false ∧ (s.ctx 0).strC.held = none) ∧
    (let s := tRun .c 0x3F
     s.runs 0 .c = true ∧ s.fetch 0 .c = .ok (.word 0x3F) ∧ (∃ f, decodeWord .c ((s.ctx 0).heldWord (.word 0x3F)).toNat = .error f)) ∧
    (let s := (tRun .c 0).modStr 0 .c fun t => { t with pc := 0x200000 }
     s.runs 0 .c = true ∧ s.fetch 0 .c = .error (.protection, 0x200000)) ∧
    (let s := (tPhase true none).modStr 0 .c fun t => { t with wait := some (9, 2 ^ 32) }
     s.runs 0 .c = true ∧ (s.ctx 0).limit ≤ 2 ^ 32 ∧ pktPhase (s.pktOf 0) = some 3) ∧
    (let f : Frz := { strm := .c, cause := .misaligned, addr := 4, pc := 0, defer := false, dict := false, oldTstat := 0, settled := false, report := false }
     let s := tHandler.modCore 0 fun k => { k with frz := some f }
     f.report = false ∧ (s.core 0).settling = false ∧ s.enginesQuiet 0 = true ∧ s.drained 0 = true ∧ s.fwStage = .idle ∧ (s.core 0).stop = none ∧
       { f with report := true }.report = true ∧ Cause.misaligned ≠ .coreFrozen) := by
  refine ⟨⟨⟨?_, ?_, ?_, ?_, ?_⟩, ?_⟩, ⟨⟨?_, ?_, ?_, ?_, ?_⟩, _, _, List.mem_singleton.2 rfl, rfl, rfl, rfl⟩, ⟨?_, ?_, ?_, ?_, ?_, ?_, ?_, ?_⟩, ⟨?_, ok_of ?_, _, rfl⟩,
    ⟨?_, ok_err ?_⟩, ⟨?_, ?_, ?_⟩, ?_, ?_, ?_, ?_, ?_, ?_, rfl, ?_⟩
  case refine_6 =>
    intro l h _
    rw [List.mem_singleton.1 h]
    exact ⟨_, _, rfl⟩
  all_goals decide +kernel

/-- An event in flight for entry 1, with the state that a level or a home needs. -/
theorem witness_HomeAndLevelEventResults :
    (let s := tSent (tReg []) (.ld 0x40000 8) none
     ∃ q, ((s.ctx 0).str .c).sent = some q ∧ q.ans = none ∧ q.gen = s.genOf 0 ∧ q.req = .ld 0x40000 8) ∧
    (let s := { tSent (tReg []) (.amo .add 0x40000 5) none with spaces := [(0xFFFF, { gen := 1, retired := false, root := 0x10000, sweep := true, saveBase := 0, saveSize := 0 })] }
     ∃ q, ((s.ctx 0).str .c).sent = some q ∧ q.ans = none ∧ q.replayed = false ∧ q.gen + 1 = s.genOf 0) ∧
    (let s := (tRun .c 0).modCore 0 fun k => { k with pend := [⟨0x40000, 0x40000, [5], 0⟩] }
     (s.core 0).pend = [⟨0x40000, 0x40000, [5], 0⟩] ∧ { s with regions := [] }.regions = []) ∧
    (let s := { tFoot with counts := [⟨1, 3, 0x50000, .dev, 0⟩], sched := [] }
     (∀ f d, Agent.strm f d ∉ s.sched) ∧ s.counts = ⟨1, 3, 0x50000, .dev, 0⟩ :: [] ∧ (1 : Nat) = (0 : BitVec 2).toNat * 65536 + (1 : BitVec 16).toNat) ∧
    (let r : Region := { loadRegion with rearm := true, target := 4, count := 9 }
     let s := { State.reset with regions := [(0, r)] }
     (∀ f d, Agent.strm f d ∉ s.sched) ∧ s.counts = [] ∧
     s.regions.get? 0 = some r ∧ r.valid = true ∧ r.rearm = true ∧ r.target ≠ 0 ∧ r.target ≤ r.count ∧ 0 ∉ s.refire) ∧
    (let s := tRun .c 0
     (∃ a, s.spaces.get? (0xFFFF : BitVec 16).toNat = some a ∧ a.sweep = false) ∧ s.swept 0xFFFF = true ∧ s.fwStage = .idle) ∧
    (let s := (tRun .c 0).modCtx 0 fun x => { x with
       s := [(2, 0x500000000)], strC := { x.strC with held := some (.word 0x25540C22), wait := some (otherWait, 6) } }
     s.runs 0 .c = true ∧ (s.ctx 0).strC.wait ≠ none ∧ s.heldInstr 0 = some (.barw tz 3 20 21) ∧ (((s.ctx 0).sr 21).extractLsb' 32 32).toNat ≤ (s.ctx 0).strC.bounded) ∧
    (let s := (tFoot.modCtx 0 fun x => { x with s := [(20, 0x50000), (21, 0)], strC := { x.strC with held := some (.word 0x25D40821), wait := some (otherWait, 6) } })
     s.runs 0 .c = true ∧ { s with cur := 0 }.Opens .c tz ∧ s.memHold = false) ∧
    (let s := { State.reset with regions := [(0, loadRegion)] }
     s.regions.get? 0 = some loadRegion ∧ loadRegion.valid = true ∧ loadRegion.sealed = true ∧ (0, 2, 0) ∉ s.replicas) ∧
    (let s := State.reset
     (0, 2, 5 / 32) ∉ s.sparedGroups ∧ (∀ f ∈ s.failing, (f.1, f.2.1, f.2.2 / 32) ≠ (0, 2, 5 / 32)) ∧ s.layers.getD 1 .normal = .normal ∧
       s.wordBad 0 4 5 = false) ∧
    (let s := { State.reset with failing := [(0, 2, 6)] }
     (∃ f ∈ s.failing, f ≠ (0, 2, 5) ∧ (f.1, f.2.1, f.2.2 / 32) = (0, 2, 5 / 32)) ∧ s.noSpare (0, 2, 5) = true ∧
       s.layers.getD 1 .normal = .normal) ∧
    (let s := { State.reset with layers := [(1, .shedPending 7)] }
     s.layers.getD 1 .normal = .shedPending 7 ∧ s.fwStage = .idle ∧
       ∀ k ∈ s.cores, k.1 / 128 = 0 → ∀ l, s.launchOf (BitVec.ofNat 9 k.1) = some l →
         ∃ j, pktJob l.pkt = some j ∧ (s.jobs.getD j Ctr.fresh).fired = true) ∧
    reportSpace 1 = some .acs ∧ 5 * unitBytes .acs < Space.size .acs ∧
    (let s := { tRun .c 0 with layers := [(1, .sweeping)] }
     s.layers.getD 1 .normal = .sweeping ∧ ∀ a ∈ s.spaces, a.2.sweep = false) ∧
    (let a : SaveArea := default
     let l : Launch := { loadLaunch with pkt := loadLaunch.pkt + BitVec.ofNat 1024 (2 ^ (8 * 0x3C + 19)), foot := [⟨.t2, 0, 12, 0, false⟩],
                                         tasks := [(0, { Task.fresh with st := .running, area := some a })] }
     let s := { tRun .c 0 with launches := [(0, l)], layers := [(1, .shedPending 7)] }
     (s.cores.map (·.1)).Nodup ∧ s.cores.has 0 = true ∧ s.usesLayer 0 0 2 = true ∧ (s.core 0).preemptible = true ∧ s.canCkpt 0 = true ∧ s.areaOf 0 = some a) ∧
    ∃ u, tQueue.queues.get? 0 = some u := by
  refine ⟨⟨_, rfl, rfl, ?_, rfl⟩, ⟨_, rfl, rfl, rfl, ?_⟩, ⟨rfl, rfl⟩, ⟨fun f d h => (by simp at h), rfl, rfl⟩,
    ⟨fun f d h => (by simp [State.reset] at h), rfl, rfl, rfl, rfl, ?_, ?_, ?_⟩, ⟨⟨_, rfl, rfl⟩, ?_, rfl⟩, ⟨?_, ?_, ?_, ?_⟩, ⟨?_, opens_of ?_, rfl⟩,
    ⟨rfl, rfl, rfl, ?_⟩, ⟨?_, ?_, ?_, ?_⟩, ⟨⟨_, List.mem_singleton.2 rfl, ?_, rfl⟩, ?_, ?_⟩, ⟨rfl, rfl, fun k hk => absurd hk (by simp [State.reset])⟩,
    rfl, ?_, ⟨?_, ?_⟩, ⟨?_, ?_, ?_, ?_, ?_, ?_⟩, _, rfl⟩ <;> decide +kernel

/-- The loaded launch with other packet bits, and its task. -/
def tLaunch (p : Nat) (t : Task) : Launch := { loadLaunch with pkt := loadLaunch.pkt + BitVec.ofNat 1024 p, tasks := [(0, t)] }

/-- A record of that task. -/
def tRec : BindRec := { lid := 0, tidx := 0, grants := 0, budget := 0 }

/-- Core 0 with a record in its next slot and no task. -/
def tNextRec (resume : Bool) : State :=
  { tQueue.modCore 0 fun k => { k with run := none, next := some tRec } with
    launches := [(0, tLaunch 0 { Task.fresh with st := .placed, core := some 0, resume := resume })] }

theorem witness_TaskEventResults :
    (let l := tLaunch 1 { Task.fresh with st := .running }
     let s := { tRun .c 0 with launches := [(0, l)] }
     s.launches.get? 0 = some l ∧ TaskSt.done.terminal = true ∧ (l.task 0).st.terminal = false ∧ (l.task 0).area = none ∧
       pktGraph l.pkt = none ∧ pktPhase l.pkt = none ∧ { l with pkt := l.pkt + BitVec.ofNat 1024 (2 ^ (8 * 0x38)) }.pkt ≠ l.pkt ∧
       l.done + l.failed + 1 < pktTasks (l.pkt + BitVec.ofNat 1024 (2 ^ (8 * 0x38)))) ∧
    (let l := tLaunch 0 { Task.fresh with st := .done }
     (l.task 0).st.terminal = true) ∧
    (let k : Ctr := { done := 1, failed := 0, target := 2, fired := false }
     k.fired = false ∧ k.target ≠ 0 ∧ k.done + 1 + k.failed = k.target) ∧
    (let s := { tQueue with launches := [(0, tLaunch 0 Task.fresh)] } |>.modCore 0 fun k => { k with run := none }
     s.mayPlace 0 0 0 = true ∧ ∃ l, s.launches.get? 0 = some l) ∧
    (let s := tNextRec false
     (s.core 0).next = some tRec ∧ (∃ l, s.launches.get? 0 = some l ∧ (l.task 0).st = .placed ∧ (l.task 0).resume = false ∧ pktCkpt l.pkt = false ∧
       pktField l.pkt 0x20 8 = 0 ∧ pktField l.pkt 0x18 8 = 0) ∧
       s.commitOk 0 = true ∧ (s.images.get? (pktField loadLaunch.pkt 0x00 8 % 65536)).isSome = true) ∧
    (let s := tNextRec true
     s.commitOk 0 = true ∧ ∃ l, s.launches.get? 0 = some l ∧ (l.task 0).resume = true) ∧
    (let s := (tRun .c 0).modStr 0 .c fun t => { t with live := .exited }
     s.ended 0 = true ∧ (s.core 0).run = some tRec ∧ ∃ l, s.launches.get? 0 = some l ∧ (l.task 0).st = .running ∧ (l.task 0).area = none) ∧
    (let s := (tRun .c 0).modCore 0 fun k => { k with stop := some .cancel }
     (s.core 0).stop = some .cancel ∧ (s.core 0).save = none ∧ s.enginesQuiet 0 = true ∧ s.drained 0 = true) ∧
    (let l := tLaunch (5 * 2 ^ (8 * 0x60) + 2 ^ (8 * 0x68 + 29)) Task.fresh
     pktStart l.pkt ≠ 0 ∧ pktStart l.pkt ≤ (9 : Word).toNat ∧ (l.task 0).st = .queued ∧ l.gatesOpen 0 = false ∧ 0 < pktTasks l.pkt ∧
       (l.task 0).st.terminal = false) ∧
    (let p : PhCtr := { PhCtr.fresh with target := 1, count := 1 }
     let s := { tPhase true none with phases := [(3, p)] }
     s.phases.get? 3 = some p ∧ p.target ≠ 0 ∧ p.target.toNat ≤ p.count ∧ s.phaseQuiet 3 = true ∧ p.clk = false ∧ s.failing = [] ∧
       (s.core 0).run = some tRec ∧ (∃ l, s.launches.get? 0 = some l ∧ pktPhase l.pkt = some 3) ∧ (s.ctx 0).te = false ∧ (s.ctx 0).shadow = none ∧
       (s.ctx 0).strC.phaseArr = true ∧ (s.ctx 0).strC.phaseGo = none ∧ { s with counts := [⟨1, 3, 0x50000, .dev, 0⟩] }.phaseQuiet 3 = false) := by
  refine ⟨⟨rfl, rfl, rfl, rfl, ?_, ?_, ?_, ?_⟩, rfl, ⟨rfl, ?_, rfl⟩, ⟨?_, _, rfl⟩, ⟨rfl, ⟨_, rfl, rfl, rfl, ?_, ?_, ?_⟩, ?_, ?_⟩, ⟨?_, _, rfl, rfl⟩, ⟨?_, rfl, _, rfl, rfl, rfl⟩,
    ⟨?_, ?_, ?_, ?_⟩, ⟨?_, ?_, rfl, ?_, ?_, rfl⟩, rfl, ?_, ?_, ?_, rfl, rfl, ?_, ⟨_, rfl, ?_⟩, ?_, ?_, ?_, ?_, ?_⟩ <;> decide +kernel

/-- A save of core 0 for a checkpoint instruction or a pre-emption. -/
def tSave (why : SaveWhy) (settled : Bool) (sect : Nat) : Save := { (default : Save) with why := why, settled := settled, sect := sect }

/-- A task with a save area, without or with a context in slot 0, and bits of CTRL; another of a higher PRIO that its launch
fixes to core 0. -/
def tArea (ctrl : Nat) (a : SaveArea) (f : Core → Core) : State :=
  { (tRun .c 0).modCore 0 f with
    launches := [(0, tLaunch (ctrl * 2 ^ (8 * 0x3C)) { Task.fresh with st := .running, core := some 0, area := some a }),
                 (1, tLaunch (9 * 2 ^ (8 * 0x3C + 28) + 4 * 2 ^ (8 * 0x5C + 16)) Task.fresh)] }

theorem witness_PreemptionEventResults :
    (let s := tArea (2 ^ 19) default fun k => { k with save := some (tSave .ckpt false 0) }
     (s.core 0).save = some (tSave .ckpt false 0) ∧ (s.ctx 0).te = false ∧ (s.core 0).frz = none ∧ (s.core 0).settling = false ∧ s.enginesQuiet 0 = true ∧
       s.drained 0 = true) ∧
    (let s := tArea (2 ^ 19) { (default : SaveArea) with base := 0x200000 } fun k => { k with save := some (tSave .preempt true 12) }
     (∃ t, s.slotWrite (s.asidOf 0) false 0x200000 [1] = .ok t) ∧ ∃ f a, s.slotWrite (s.asidOf 0) false (2 ^ 42) [1] = .error (f, a)) ∧
    (let s := tArea (2 ^ 19) default fun k => { k with save := some (tSave .preempt true 13) }
     (tSave .preempt true 13).emerg = false ∧ (s.core 0).run = some tRec ∧ (∃ l a, s.launches.get? 0 = some l ∧ (l.task 0).area = some a) ∧ (s.core 0).stop = none ∧
       s.siteOf 0 ∉ s.emergUsed ∧ s.fwStage = .idle ∧ { s with devTime := 2 ^ 63 }.hangNs ≤ (2 ^ 63 : Word).toNat) ∧
    { tSave .ckpt true 1 with paused := true }.paused = true ∧
    (let v : Restore := { (default : Restore) with sect := 1 }
     let z : Saved := default
     let a : SaveArea := { (default : SaveArea) with base := 0x200000, slots := [(0, z)] }
     let s := tArea (2 ^ 19) a fun k => { k with restore := some v }
     (s.core 0).save = none ∧ (s.core 0).restore = some v ∧ v.paused = none ∧ (s.core 0).frz = none ∧ (s.core 0).stop = none ∧ s.areaOf 0 = some a ∧
       a.slots.get? v.slot = some z ∧ (let sec := (sections z.ctx.allot z.grants).getD (v.sect - 1) (0, 0)
         v.blk * 0x10000 < sec.2 ∧ ∃ bs, s.devRead none (s.asidOf 0) (a.slot v.slot + sec.1 + v.blk * 0x10000) 8 = .ok bs)) ∧
    (let v : Restore := { (default : Restore) with sect := 1, blk := 1 }
     let z : Saved := default
     let sec := (sections z.ctx.allot z.grants).getD (v.sect - 1) (0, 0)
     sec.2 ≤ v.blk * 0x10000) ∧ { (default : Restore) with sect := 12 }.sect = 12 ∧
    { (default : Restore) with paused := some (.translation, 0x200000) }.paused = some (.translation, 0x200000) ∧
    (let s := tArea (2 ^ 19) default fun k => k
     let r := { s with mgmt := { s.mgmt with drainMax := [] } } |>.modCtx 0 fun x => { x with est := 5 }
     s.mayPreempt 0 1 0 = true ∧ (∃ l, s.launches.get? 1 = some l ∧ r.drainMax (pktPrio l.pkt) < (r.ctx 0).estNow r.devTime ∧ r.drainMax (pktPrio l.pkt) ≠ 0xFFFF) ∧
       (∃ v, s.launchOf 0 = some v) ∧ s.canCkpt 0 = true) ∧
    (let s := tArea (2 ^ 20) default fun k => { k with stop := some .kill }
     s.canCkpt 0 = false ∧ pktKill (s.pktOf 0) = true ∧ (s.core 0).stop = some .kill ∧ (s.core 0).run = some tRec ∧ (∃ l, s.launches.get? 0 = some l) ∧
       (s.core 0).settling = false ∧ s.enginesQuiet 0 = true ∧ s.drained 0 = true) ∧
    (let s := { tRun .c 0 with devTime := 5000, launches := [(0, tLaunch 0 { Task.fresh with st := .running, budget := 1 })] }
     s.overBudget 0 = true ∧ (s.core 0).preemptible = true ∧ s.fwStage = .idle ∧ (s.core 0).next = none ∧ s.canCkpt 0 = false ∧ pktKill (s.pktOf 0) = false) ∧
    (let s := tCore fun k => { k with dead := true }
     (s.core 0).run = none ∧ (s.core 0).dead = true ∧ (s.core 0).lender = none ∧ s.freeSpare 0 = some 0) ∧
    (let z : Saved := default
     let a : SaveArea := { (default : SaveArea) with emerg := some (0, 0, z) }
     let l := tLaunch 0 { Task.fresh with st := .saved, area := some a }
     (l.task 0).area = some a ∧ a.emerg = some (0, 0, z) ∧ (l.task 0).st = .saved) := by
  refine ⟨⟨rfl, ?_, ?_, ?_, ?_, ?_⟩, ⟨⟨_, rfl⟩, .translation, 2 ^ 42, ok_err ?_⟩, ⟨rfl, ?_, ⟨_, _, rfl, rfl⟩, ?_, ?_, ?_, ?_⟩, rfl, ⟨rfl, rfl, rfl, ?_, ?_, rfl, rfl, ?_, List.replicate 8 0, ok_of ?_⟩, ?_, rfl, rfl,
    ⟨?_, ⟨_, rfl, ?_, ?_⟩, ⟨_, rfl⟩, ?_⟩, ⟨?_, ?_, ?_, ?_, ⟨_, rfl⟩, ?_, ?_, ?_⟩, ⟨?_, ?_, ?_, ?_, ?_, ?_⟩, ⟨?_, ?_, ?_, ?_⟩, rfl, rfl, rfl⟩
  all_goals decide +kernel

/-- Port 1 in frame mode and UP, with a rule that takes every frame to queue 5. -/
def tPort : Port := { maxf := 1518, st := 2, mode := 2, dropped := 0, rules := [(0, BitVec.ofNat 64 (2 ^ 63 + 5 * 2 ^ 54))], sentFrames := [] }

/-- An ingest ring of the loaded address space at 0x200000. -/
def tIng : Ingest :=
  { base := 0x200000, cons := 0x40000, asid := loadAsid, k := 12, slotMode := false, slot := 0, prod := 64, seq := 0, drops := 0 }

theorem witness_FabricEventResults :
    (let s := { tRun .c 0 with ports := [(1, tPort)], ingest := [(5, tIng)] }
     let bs := List.replicate 60 (0 : Byte)
     s.frameMode 1 = true ∧ (s.ports.getD 1 tPort).st = 2 ∧ { s with mgmt := { s.mgmt with ptpEn := true, ptpPort := 1 } }.mgmt.ptpEn = true ∧
       64 ≤ bs.length + 4 ∧ bs.length + 4 ≤ tPort.maxf.toNat ∧ (headsOf bs).etype ≠ 0x8808 ∧ s.mgmt.ptpEn = false ∧ tPort.classify bs = some 5 ∧
       { tPort with rules := [] }.classify bs = none ∧ s.ingest.get? 5 = some tIng ∧ tIng.k ≠ 0 ∧
       s.devRead none tIng.asid tIng.cons.toNat 8 = .ok (List.replicate 8 0) ∧ tIng.prod % 2 ^ tIng.k + 128 ≤ 2 ^ tIng.k ∧ 32 + bs.length ≤ 128 ∧
       ringRoom tIng.k tIng.prod (leNat (List.replicate 8 (0 : Byte))) 128 = true ∧ ringRoom tIng.k 4096 0 128 = false ∧
       s.vRange none tIng.asid .w (tIng.base.toNat + 64) 128 = .ok [(0x200040, 128)] ∧ s.sealedHit [(0x200040, 128)] = false) ∧
    { tPort with st := 1 }.st = 1 ∧
    (let p : FabPkt := { src := 3, dst := State.reset.devId, id := 7, hops := 0, body := .send 2 0 0 [1] }
     let r : Recv := { (default : Recv) with chan := 2, peer := 3 }
     p.dst = State.reset.devId ∧ { p with dst := p.dst + 1 }.dst ≠ State.reset.devId ∧ (State.reset.seenPkts.find? fun q => q.src == p.src && q.id == p.id) = none ∧
       (State.reset.recvs.find? fun r => r.chan == 2 && r.peer == p.src) = none ∧
       ({ State.reset with recvs := [r] }.recvs.find? fun r => r.chan == 2 && r.peer == p.src) = some r) ∧
    (let o : OutPkt := { (default : OutPkt) with pkt := { src := 0, dst := 1, id := 7, hops := 0, body := .send 2 0 0 [1] } }
     ({ State.reset with outPkts := [o] }.outPkts.find? fun p => p.pkt.id == 7) = some o ∧ o.sentNs + State.reset.linkNs ≤ (2 ^ 63 : Word).toNat) ∧
    (let t : CTable := { (default : CTable) with recs := [BitVec.ofNat 512 (2 ^ (8 * 0x14))] }
     let s := tTables 0 [] |>.modCtx 0 fun x => { x with tables := [t] }
     (s.ctx 0).tables = [t] ∧ (s.core 0).run ≠ none ∧ t.failed = false ∧ t.started = 0 ∧ 0 < t.recs.length) ∧
    (let k : CStep := { (default : CStep) with wrote := true }
     let t : CTable := { (default : CTable) with recs := [BitVec.ofNat 512 (2 ^ (8 * 0x14))], live := [(0, k)], started := 1 }
     let s := tTables 0 [] |>.modCtx 0 fun x => { x with tables := [t] }
     k.fail = none ∧ s.noAck 0 t.handle 0 = false ∧ recOp (t.recs.getD 0 0) = 1 ∧ recTgt (t.recs.getD 0 0) / 2 ^ 63 = 0 ∧ t.started = t.recs.length) := by
  refine ⟨⟨?_, ?_, ?_, ?_, ?_, ?_, ?_, ?_, ?_, ?_, ?_, ok_of ?_, ?_, ?_, ?_, ?_, ok_of ?_, ?_⟩, rfl, ⟨rfl, ?_, ?_, ?_, ?_⟩, ⟨rfl, ?_⟩, ⟨rfl, ?_, rfl, rfl, ?_⟩, rfl, ?_, ?_, ?_, ?_⟩ <;>
    decide +kernel

/-- A record of firmware; whether a record's signature is valid is a free value. -/
def tFw (typ : BitVec 8) : FwRec := { magic := 0x5A435246, typ := typ, version := 3, len := 0, signer := 0, body := [], sig := 0 }

theorem witness_HostRequestResults :
    (let s := { tFoot with sessions := [(2, { asid := some loadAsid, seq := 4 })] }
     let h : Toc := { sess := some 2, seq := 4 }
     ∃ e, s.sessions.get? 2 = some e ∧ e.asid = some loadAsid ∧ h.seq = e.seq ∧ (∀ k ∈ s.toclCancels, k.1.sess ≠ some 2) ∧ s.bootOk = true ∧
       s.cancelNames loadAsid 0 5 0 none = .error 8 ∧ s.cancelNames loadAsid 1 0 0 none = .ok [(0, 0)] ∧ (∃ w k, s.cancelTasks [] = (w, k, [])) ∧
       s.hostRange loadAsid .w 0x40000 8 = .ok [(0x40000, 8)] ∧ s.hostRange loadAsid .r 0x40000 8 = .ok [(0x40000, 8)] ∧
       (∃ x, s.hostRange loadAsid .w (2 ^ 42) 8 = .error x) ∧ (∃ x, s.hostRange loadAsid .r (2 ^ 42) 8 = .error x) ∧
       s.sealedHit [(0x40000, 8)] = false ∧ s.dieRefusers [(0x40000, 8)] = [] ∧ s.sealedHit [(0x100000, 8)] = true ∧ s.dieRefusers [(0x50000, 8)] ≠ [] ∧
       s.badPiece [(0x40000, 8)] = none ∧ { s with bad := [0x40000 / 8] }.badPiece [(0x40000, 8)] = some 0) ∧
    (tFoot.cancelNames loadAsid 1 0 0 none = .ok [(0, 0)] ∧ (tFoot.cancelTasks [(0, 0)]).2 = (1, [(0, 0)])) ∧
    (let s := tFoot
     let h : Toc := { sess := none, seq := s.ctlSeq }
     s.bootOk = true ∧ s.fwStage = .idle ∧ h.sess = none ∧ h.seq = s.ctlSeq) ∧
    (let w0 : Word := 0xF000000000000040
     let w1 : Word := 0xFFFF003000000000
     Space.ofCode (w0.toNat / 2 ^ 60) = some .virt ∧ (tFoot.space (w1.extractLsb' 48 16)).isSome = true ∧
       (Region.ofWords .virt 0 w0 w1 0 0 0).formOk w0 w1 = true) ∧
    (tFoot.regions.get? 0 = some loadRegion ∧ tFoot.entryHeld loadRegion = true ∧ State.reset.entryHeld loadRegion = false) ∧
    (State.reset.counterBusy pktGraph 9 = false ∧ State.reset.counterBusy pktJob 9 = false ∧ State.reset.counterBusy pktPhase 9 = false ∧
      State.reset.phaseWaits 9 = false ∧ (State.reset.phases.getD 9 PhCtr.fresh).boundary = false) ∧
    (State.reset.regValue 0x50).isSome = true ∧ ([4, State.reset.devId] : List (BitVec 12))[(1 : BitVec 4).toNat]? = some State.reset.devId ∧
    (let w1 : Word := BitVec.ofNat 64 (2 * 2 ^ 24 + 12 * 2 ^ 26 + 0xFFFF * 2 ^ 32)
     w1.extractLsb' 48 8 = 0 ∧ w1.extractLsb' 0 20 = 0 ∧ w1.extractLsb' 24 2 = 2 ∧ (w1.extractLsb' 26 6).toNat = 12 ∧
       State.reset.rangeHeld (w1.extractLsb' 32 16) 0x200000 (2 ^ 12) = false) ∧
    State.reset.waitingIn 5 = 0 ∧ ({ State.reset with spaces := tFoot.spaces }.space loadAsid).isSome = true ∧
    (let w1 : Word := BitVec.ofNat 64 (7 + 3 * 2 ^ 22 + 12 * 2 ^ 26)
     w1.extractLsb' 48 8 = 0 ∧ w1.extractLsb' 16 3 = 0 ∧ w1.extractLsb' 22 4 = 3 ∧ (w1.extractLsb' 26 6).toNat = 12 ∧ (w1.extractLsb' 0 16).toNat < 512) ∧
    ({ State.reset with fwSlots := [(1, tFw 2)] }.fwSlots.get? (1 - State.reset.fwActive) = some (tFw 2) ∧ State.reset.fwOk (tFw 2) = false) := by
  refine ⟨⟨_, rfl, rfl, rfl, ?_, rfl, ok_err ?_, ok_of ?_, ⟨_, _, rfl⟩, ok_of ?_, ok_of ?_, ⟨(.translation, 2 ^ 42), ok_err ?_⟩, ⟨(.translation, 2 ^ 42), ok_err ?_⟩, ?_, ?_, ?_, ?_, ?_, ?_⟩,
    ⟨ok_of ?_, ?_⟩, ⟨?_, ?_, ?_, ?_⟩, ⟨?_, ?_, ?_⟩, ⟨rfl, ?_, ?_⟩, ⟨?_, ?_, ?_, ?_, ?_⟩, ?_, ?_, ⟨?_, ?_, ?_, ?_, ?_⟩, ?_, ?_,
    ⟨?_, ?_, ?_, ?_, ?_⟩, ⟨rfl, ?_⟩⟩ <;> decide +kernel
/-- A record that passes, under a value of the free one. -/
theorem witness_HostRequestCommit (h : Config.sigValid none (tFw 1) = true) : State.reset.fwOk (tFw 1) = true := by
  have r : rootSigned (tFw 1) = true := by
    rw [rootSigned, h]
    rfl
  rw [State.fwOk, State.recOk, r]
  rfl

theorem witness_PowerAndBootResults :
    (0x0A ≤ (0x18 : BitVec 8).toNat ∧ State.reset.fwStage = .idle) ∧
    (let u : Sub := { (default : Sub) with kind := 3, high := 5, low := 2 }
     u.kind ≠ 0 ∧ u.above = false ∧ u.high.toInt ≤ (5 : Word).toInt ∧ (4 : Word).toInt < u.high.toInt ∧ { u with above := true }.above = true ∧
       (2 : Word).toInt ≤ u.low.toInt) ∧
    (let s := tCore fun k => { k with pwr := .hold 0 }
     (s.core 0).pwr = .hold 0 ∧ s.devTime.toNat < 0 + 2000 ∧ 0 + 2000 ≤ { s with devTime := 2000 }.devTime.toNat) ∧
    ((tCore fun k => { k with pwr := .retained }).core 0).pwr = .retained ∧
    (let s := { State.reset with arbiter := [(0, [5, 6])] }
     s.arbiter.getD 0 [] = [5, 6] ∧ s.ramping 0 < 8) ∧
    (let s := { tCore fun k => { k with pwr := .waking 0 } with devTime := 130 }
     (s.core 0).pwr = .waking 0 ∧ 0 + 130 ≤ s.devTime.toNat ∧ (s.core 0).next = none) ∧
    State.reset.bootSlot = some State.reset.fwActive ∧
    (let s := { State.reset with fwStage := .quiesced 7, devTime := 50007 }
     s.fwStage = .quiesced 7 ∧ 7 + 50000 ≤ s.devTime.toNat) := by
  refine ⟨⟨?_, ?_⟩, ⟨?_, ?_, ?_, ?_, ?_, ?_⟩, ⟨rfl, ?_, ?_⟩, rfl, ⟨rfl, ?_⟩, ⟨rfl, ?_, rfl⟩, rfl, rfl, ?_⟩ <;> decide +kernel

/-! ### Waits and NOPs; the machine as a whole -/

theorem witness_CommandWaitsAndNops :
    (let s := tFull.modCtx 0 fun x => { x with cmds := [default, default] }
     s.Opens .x tz ∧ (s.slotCtx .x).cmds.length ≤ (2 : BitVec 5).toNat ∧ (1 : BitVec 5).toNat < (s.slotCtx .x).cmds.length) ∧
    (State.reset.Opens .m tz ∧ (State.reset.slotCtx .m).mnest = none) ∧
    ((tFull.modCtx 0 fun x => { x with mnest := some default }).slotCtx .m).mnest ≠ none ∧
    (0x4E < 2 ^ 32 ∧ 0x4E % 64 = 0x0E ∧ 0x4E < 2 ^ 10 ∧ 0x450 % 64 = 0x10 ∧ 2 ^ 10 ≤ 0x450) := by
  refine ⟨⟨opens_of ?_, ?_, ?_⟩, ⟨opens_reset .m, rfl⟩, ?_, ?_⟩ <;> decide +kernel

theorem witness_StepKeepsMemoryCanonical : (tRun .c 0x0123140A).MemoryCanonical ∧ (tRun .c 0x0123140A).mem ≠ [] ∧
    ∃ t, step (tRun .c 0x0123140A) = .next t :=
  ⟨show Memory.wf _ = true by decide +kernel, by decide +kernel, _, rfl⟩

theorem witness_DecodeOfEncode : (Instr.movi tz 5 0x0123).wf = true ∧ encode (.movi tz 5 0x0123) = some (32, 0x0123140A) ∧
    encode (.dictionaryCode .c 5) = some (16, 0x017E) := ⟨rfl, rfl, rfl⟩

theorem witness_EncodeOfDecode : decodeWord .x 0x2140000A = .ok (.xJoin tz 5) ∧ 0x2140000A < 2 ^ 32 := ⟨rfl, by decide⟩

theorem witness_StepRunsDecodedInstruction :
    (let s := tRun .c 0x0123140A
     let k := s.core 0
     let t := k.ctx.str .c
     (s.agenda = [] ∧ s.frozen = false ∧ s.bootOk = true ∧ s.sched = .strm 0 .c :: []) ∧ k.free = true ∧ k.saveLets .c = true ∧ t.live = .live ∧
       (k.ctx.te = true → Strm.c = .c) ∧ k.govHolds .c s.cycle = false ∧ t.occ = 0 ∧ t.skip = 0 ∧ (t.fence = true → k.pend = []) ∧
       (t.dfault = none ∨ k.ctx.te = true) ∧ t.held = none ∧ s.fetch 0 .c = .ok (.word 0x0123140A) ∧ decodeWord .c 0x0123140A = .ok (.movi tz 5 0x0123) ∧
       k.ctx.te = false ∧ k.frz = none ∧ k.ctx.lend = 0) ∧
    ((tRun .c 0x3F).fetch 0 .c = .ok (.word 0x3F) ∧ ∃ x, decodeWord .c 0x3F = .error x) ∧
    (tRun .c 0x017E).fetch 0 .c = .ok (.code 5) ∧
    (∃ x, ((tRun .c 0).modStr 0 .c fun t => { t with pc := 0x200000 }).fetch 0 .c = .error x) ∧
    (let s := tRun .c 0x0123140A
     s.fetchParcel 0 0x100000 = .ok 0x140A ∧ badMajor .c 0x140A = false ∧ s.fetchParcel 0 (pcAt 0x100000 0x100002) = .ok 0x0123 ∧
       s.vRange (some 0) (s.asidOf 0) .x 0x100000 2 = .ok [(0x100000, 2)] ∧ s.badPiece [(0x100000, 2)] = none ∧
       (∃ id r, s.dieEntry (s.asidOf 0) .virt 0x100000 = some (id, r) ∧ r.sealed = true) ∧ s.dieEntry (s.asidOf 0) .virt 0x200000 = none) := by
  refine ⟨⟨⟨rfl, rfl, rfl, rfl⟩, ?_, ?_, ?_, ?_, ?_, ?_, ?_, ?_, .inl ?_, ?_, ok_of ?_, rfl, ?_, ?_, ?_⟩, ⟨ok_of ?_, _, rfl⟩, ok_of ?_, ⟨(.protection, 0x200000), ok_err ?_⟩,
    ok_of ?_, ?_, ok_of ?_, ok_of ?_, ?_, ⟨0, loadRegion, ?_, ?_⟩, ?_⟩ <;> decide +kernel

/-- A canonical memory and some bytes. -/
theorem witness_PhysicalWriteReadsBack : tFoot.MemoryCanonical := show Memory.wf _ = true by decide +kernel

theorem witness_IssueSlotBookkeeping : (Done.one State.reset (New.plain 1 (.scalar 5 7))).cmd = false ∧ (Done.plain State.reset).lands = [] ∧
    (Done.plain State.reset).cmd = false := ⟨rfl, rfl, rfl⟩

/-! ### Further clauses of the statements -/

theorem witness_LandingsTakeEffectInTheirSlot_buffers :
    (∀ k, ∀ q ∈ (tFull.ctx k).regs, q.2.spc ≠ .ofs) ∧ (([(0x40, 1), (0x41, 2)] : List (Nat × Byte)).map (·.1)).Nodup ∧
    (tVec.ctx 0).tag 6 = some (0, 4) ∧ ((tVec.modCtx 0 fun x => { x with eph := [(6, 0, 3)] }).ctx 0).expired 6 = false := by
  refine ⟨?_, ?_, ?_, ?_⟩ <;> decide +kernel

/-- A C stream with one instruction to annul, at a word of the code region or at an address. -/
def tAnnul (w : Nat) (pc : VAddr) : State := (tRun .c w).modStr 0 .c fun t => { t with skip := 1, pc := pc }

theorem witness_ControlTransferResults_annulled :
    (let s := tAnnul 0x0123140A 0x100000
     s.runs 0 .c = true ∧ (s.core 0).free = true ∧ (s.core 0).saveLets .c = true ∧ (s.core 0).govHolds .c s.cycle = false ∧
       (s.ctx 0).strC.occ = 0 ∧ (s.ctx 0).strC.skip ≠ 0 ∧ (s.ctx 0).strC.fence = false ∧ s.fetchParcel 0 0x100000 = .ok 0x140A ∧
       0x140A % 64 ≠ 62 ∧ s.fetchParcel 0 (pcAt 0x100000 0x100002) = .ok 0x0123 ∧ (s.ctx 0).strC.queue = []) ∧
    (tAnnul 0x017E 0x100000).fetchParcel 0 0x100000 = .ok 0x017E ∧ 0x017E % 64 = 62 ∧
    (tAnnul 0x3F 0x100000).fetchParcel 0 0x100000 = .ok 0x3F ∧ badMajor .c 0x3F = true ∧
    (tAnnul 0 0x200000).fetchParcel 0 0x200000 = .error (.protection, 0x200000) ∧
    (let s := (tAnnul 0 0x100FFE).memWrite 0x100FFE [0x0A, 0x14]
     s.fetchParcel 0 0x100FFE = .ok 0x140A ∧ s.fetchParcel 0 (pcAt 0x100FFE 0x101000) = .error (.protection, 0x101000)) := by
  refine ⟨⟨?_, ?_, ?_, ?_, ?_, ?_, ?_, ok_of ?_, ?_, ok_of ?_, ?_⟩, ok_of ?_, ?_, ok_of ?_, ?_, ok_err ?_, ok_of ?_, ok_err ?_⟩ <;>
    decide +kernel

theorem witness_CsrWriteEffects :
    CsrOp.w ≠ .c ∧ (State.reset.ctx 0).oorNow = none ∧
    (let o : Oor := ⟨0, 1, true, 0x40⟩
     ((tCtx fun x => { x with oorNow := some o }).ctx 0).oorNow = some o) ∧
    (let v : Word := BitVec.ofNat 64 (17 * 2 ^ 57 + 2 ^ 47 + 3 * 2 ^ 37 + 16 * 2 ^ 21)
     fmtOf (v.extractLsb' 57 5).toNat = some .i8 ∧ (v.extractLsb' 0 21).toNat % 64 = 0 ∧ 4 * 16 ≤ (tFull.core 0).inRange .wb) := by
  refine ⟨?_, ?_, ?_, ?_, ?_, ?_⟩ <;> decide +kernel

/-- A core that has borrowed the lender of its first window, whose site has failed, with an instruction of V at hand. -/
def tDead : State :=
  ((tRun .v 0x0123140A).modCtx 0 fun x => { x with lend := 1, strV := { x.strV with held := some (.word 0x0123140A) } }).modCore (lenderCore 0 0) fun k =>
    { k with dead := true, lender := some 0 }

theorem witness_FaultEntryEffects_others :
    tDead.deadCell 0 .ofs 0x100000 = true ∧
    (let q : Sent := { (default : Sent) with req := .st 0x40000 8 5 }
     let s := tHandler.modStr 0 .c fun t => { t with sent := some q }
     (s.ctx 0).te = false ∧ (s.core 0).frz = none ∧ Strm.v ≠ .c ∧ (s.ctx 0).strC.sent = some q ∧ q.req.mustComplete = true) ∧
    (let s := { tHandler.memWrite 0x40000 (leBytes 8 0x100001) with launches := tHandler.launches }
     s.devRead (some 0) (s.asidOf 0) (pktAddr (s.pktOf 0) 0x28 + 8 * Strm.c.num) 8 = .ok (leBytes 8 0x100001) ∧
       leNat (leBytes 8 0x100001) % 2 = 1) ∧
    leNat (leBytes 8 0x100000) % 2 = 0 := by
  refine ⟨?_, ⟨?_, ?_, ?_, ?_, ?_⟩, ⟨ok_of ?_, ?_⟩, ?_⟩ <;> decide +kernel

theorem witness_LocalLoadResults_record :
    (let o : Oor := ⟨1, 1, true, 0x40⟩
     let x := (tCtx fun x => { x with oorNow := some o, oorFlag := true, oorFresh := true }).ctx 0
     x.oorNow = some o ∧ (Strm.c.num < o.stream.toNat ∨ (Strm.c.num = o.stream.toNat ∧ 0x80 < o.addr.toNat)) ∧
       ¬ (Strm.m.num < o.stream.toNat ∨ (Strm.m.num = o.stream.toNat ∧ 0x20 < o.addr.toNat)) ∧ x.oorFresh = true) ∧
    (State.reset.ctx 0).oorNow = none := by decide +kernel

/-- Accepted stores of core 0 that have not been performed, to one word. -/
def tPend : State := tFoot.modCore 0 fun k => { k with pend := [⟨0x40000, 0x40000, [1, 2], 0⟩, ⟨0x40001, 0x40001, [3], 0⟩] }

theorem witness_HomeServesAccesses_ownStores :
    tPend.vmCheck 0 .r .load 0x40000 8 = .ok [(0x40000, 8)] ∧
    (tPend.core 0).pend = [⟨0x40000, 0x40000, [1, 2], 0⟩] ++ ⟨0x40001, 0x40001, [3], 0⟩ :: [] ∧
    (0x40001 ≤ 0x40001 ∧ 0x40001 < 0x40001 + ([3] : List Byte).length) ∧
    (∀ q ∈ (tPend.core 0).pend, ¬ (q.pa ≤ 0x40004 ∧ 0x40004 < q.pa + q.bytes.length)) := by
  refine ⟨ok_of ?_, rfl, ?_, ?_⟩ <;> decide +kernel

/-- A load sees the bytes that its own core's accepted stores leave (R290). -/
theorem test_load_own_stores : (match (tPend.serve 0 (.ld 0x40000 4)).2 with | .bytes bs => bs | _ => []) = [1, 3, 0, 0] := by decide +kernel

theorem witness_ArrivalInstructionResults_armed :
    (let s := tArr
     let b : Word := 0x3000000000000001
     Space.ofCode (b.extractLsb' 60 4).toNat = some .xb ∧ (s.ctx 0).coreEntry .xb 0x10 = some (0, { tEntry 4 with count := 1 }) ∧
       (0 : Word).getLsbD 60 = false ∧ 0 < (b.extractLsb' 0 48).toNat ∧ (b.extractLsb' 0 48).toNat ≤ ({ tEntry 4 with count := 1 } : Region).count ∧
       (0 : Word).getLsbD 61 = false ∧ (0 : Word).extractLsb' 62 2 = 0 ∧ s.refire.contains (coreKey 0 0) = false ∧
       { s with refire := [coreKey 0 0] }.refire.contains (coreKey 0 0) = true) := by decide +kernel

theorem witness_SealAndFenceResults_home :
    (let s := tFoot.modCtx 0 fun x => { x with s := [(1, 0x50000)] }
     let t := { s with cores := (s.modCore 0 fun k => { k with pend := [⟨0x40000, 0x40000, [5], 0⟩] }).cores }
     t.Opens .c tz ∧ t.memHold = false ∧ (t.slotCtx .c).strC.sent = none ∧ (t.slotCtx .c).sr 1 = 0x50000 ∧
       t.vRange (some 0) (t.asidOf 0) .any (t.vaOf 0 0x50000).toNat 1 = .ok [(0x50000, 1)] ∧ (t.core 0).pend ≠ [] ∧
       (∃ k b, t.vRange (some 0) (t.asidOf 0) .any (2 ^ 42) 1 = .error (k, b)) ∧
       t.vRange (some 0) (t.asidOf 0) .any 0x60000 1 = .ok [(0x60000, 1)] ∧ t.dieEntry (t.asidOf 0) .virt 0x60000 = none) := by
  refine ⟨opens_of ?_, ?_, ?_, ?_, ok_of ?_, ?_, ⟨.translation, 2 ^ 42, ok_err ?_⟩, ok_of ?_, ?_⟩ <;> decide +kernel

/-- SEAL performs the accepted stores of its core and sets the entry's bit (R309). -/
theorem test_seal : (let s := tPend.modCtx 0 fun x => { x with s := [(1, 0x50000)] }
    let t := tNext (exec (.seal tz 1) s)
    ((t.regions.get? 1).map (·.sealed), (t.core 0).pend.length, t.memRead 0x40000 3)) = (some true, 0, [1, 3, 0]) := by decide +kernel

theorem witness_LaunchResults_range :
    (let s := (tReg [(1, 0x20000)])
     s.Opens .c tz ∧ (s.slotCtx .c).strC.sent = none ∧ ((s.slotCtx .c).sr 1).toNat % 64 = 0 ∧ (s.slot .c).memHold = false ∧
       (s.slot .c).badOf s.cur 0 .cr (span 0x20000 128) = none ∧ ((s.slot .c).outOf s.cur .cr (span 0x20000 128)).length = 128) ∧
    tQueue.launchCheck 0 tPkt loadAsid true = (4, []) := by
  refine ⟨⟨opens_of ?_, ?_, ?_, ?_, ?_, ?_⟩, ?_⟩ <;> decide +kernel

/-- Core 0 runs task 0 of launch 0; launch 1 of the same address space has two tasks that wait, launch 2 belongs to another. -/
def tNames : State :=
  { tFoot with launches := tFoot.launches ++
      [(1, { tFoot.launches.getD 0 loadLaunch with pkt := loadLaunch.pkt + BitVec.ofNat 1024 (2 ^ (8 * 0x38)), tasks := [] }),
       (2, { loadLaunch with asid := 5, tasks := [] })] }

theorem witness_CancelResults_named :
    (let s := tNames
     let mine := s.asidOf 0
     (s.slotCtx .c).strC.sent = none ∧ s.cancelNames mine 0 1 1 (some (0, 0)) = .ok [(1, 1)] ∧
       (∃ v, s.launches.get? 1 = some v ∧ (v.task 1).closing = none ∧ (v.task 1).st = .queued ∧ pktTasks v.pkt = 2 ∧ v.asid = mine) ∧
       (∃ v, s.launches.get? 2 = some v ∧ v.asid ≠ mine ∧ 0 < pktTasks v.pkt) ∧ s.launches.get? 9 = none ∧
       s.cancelNames mine 2 5 0 (some (0, 0)) = .ok [] ∧ s.cancelNames mine 2 4096 0 (some (0, 0)) = .error 8 ∧
       (s.cancelTasks [(0, 0)]).2 = (1, [(0, 0)])) ∧
    (let t : Task := { Task.fresh with closing := some .done }
     t.closing ≠ none) ∧ TaskSt.done.terminal = true := by
  refine ⟨⟨?_, ok_of ?_, ⟨_, rfl, ?_, ?_, ?_, ?_⟩, ⟨_, rfl, ?_, ?_⟩, ?_, ok_of ?_, ok_err ?_, ?_⟩, ?_, ?_⟩ <;> decide +kernel

theorem witness_PhaseAndCheckpointResults_counts :
    (let k : PhCtr := { PhCtr.fresh with target := 2, count := 1 }
     k.boundary = false ∧ k.count.toNat < k.target.toNat) ∧
    (let k : PhCtr := { PhCtr.fresh with target := 1, count := 1 }
     k.target ≠ 0 ∧ k.target.toNat ≤ k.count.toNat ∧ { k with boundary := true }.boundary = true) ∧
    (let s := tArea (2 ^ 19) default fun k => k
     s.Opens .c tz ∧ ((s.slot .c).core s.cur).save = none ∧ (s.slotCtx .c).te = false ∧ pktCkpt ((s.slot .c).pktOf s.cur) = true ∧
       (s.slot .c).areaOf s.cur ≠ none) ∧
    (let s := tArea (2 ^ 19) default fun k => { k with save := some (tSave .ckpt false 0) }
     s.Opens .c tz ∧ ((s.slot .c).core s.cur).save = some (tSave .ckpt false 0) ∧ (tSave .ckpt false 0).done = none ∧
       { s.slotCtx .c with te := true }.te = true) := by
  refine ⟨?_, ?_, ⟨opens_of ?_, ?_, ?_, ?_, ?_⟩, opens_of ?_, ?_, ?_, ?_⟩ <;> decide +kernel

theorem witness_VectorOperandFaults_conversions :
    (let x := tVec.slotCtx .v
     x.registerOperands (.vadd tz .f32 false 3 5 1) = some (tz, [5, 1], [3]) ∧
       x.registerOperands (.vcvt tz 7 1 false .f32 .bf16) = some (tz, [2], [7]) ∧
       { x with crm := 5 }.registerOperands (.vcvt tz 7 1 false .f32 .bf16) = some (tz, [2, 3], [7]) ∧
       x.registerOperands (.vpack tz 7 1 false .f32 .bf16) = some (tz, [2, 3], [7]) ∧
       x.registerOperands (.vunpk tz 7 1 .i8 .i16) = some (tz, [2], [7, 8])) := by decide +kernel

theorem witness_QuantisationResults_blocks :
    (∀ v ∈ [Num.fin true 3 0 false, Num.fin false 0 0 false], v.exact) ∧
    (∃ v ∈ [Num.fin true 3 0 false, Num.fin false 0 0 false], v.isZero = false) ∧ qPair .e4m3 .s16 = true ∧ qPair .i4 .g32 = true := by
  refine ⟨?_, ⟨_, List.mem_cons_self, ?_⟩, ?_, ?_⟩
  · intro v h
    simp only [List.mem_cons, List.not_mem_nil, or_false] at h
    rcases h with rfl | rfl <;> exact ⟨_, _, _, rfl⟩
  all_goals decide +kernel

theorem witness_VectorMemoryResults_frame :
    (let s := tVec.modCtx 0 fun x => { x with s := [(48, 0x80), (49, 1)] }
     s.Opens .v tz ∧ (∀ k, ((s.vecSeen [3]).ctx k).regs = []) ∧ s.VecReady ([] ++ [3]) [] allBytes) := by
  refine ⟨opens_of ?_, ?_, ⟨?_, ?_, clean_of ?_, ?_⟩⟩ <;> decide +kernel

theorem witness_MatrixElementValues_scaled :
    (let t := tTile 0 16 1 32 .e4m3
     let j := { tJob .block 1 t (tTile 0x100 16 32 1 .e4m3) (tTile 0 16 1 1 .f32) with sa := [[0x7F]], sb := [[0xFF]], st := 0x3F800000 }
     0 < mmaG j.kind j.geo j.a.fmt j.b.fmt ∧ 1 ≤ j.geo ∧ j.geo ≤ 3 ∧ (Num.ofCode .e8m0 (at2 j.sb 0 0)) = .nan ∧
       (∃ n m e, Num.ofCode .e8m0 (at2 j.sa 0 0) = .fin n m e false) ∧ ∃ n m e, Num.ofCode .f32 j.st.toNat = .fin n m e false) ∧
    (let j := { tJob .group 4 (tTile 0 16 1 32 .i8) (tTile 0x100 16 32 1 .i8) (tTile 0 16 1 1 .f32) with sa := [[0x3C00]], sb := [[0x7E00]] }
     0 < mmaG j.kind j.geo j.a.fmt j.b.fmt ∧ (∃ n m e, Num.ofCode .f16 (at2 j.sa 0 0 % 2 ^ 16) = .fin n m e false) ∧
       Num.ofCode .f16 (at2 j.sb 0 0 % 2 ^ 16) = .nan) ∧
    Num.nan ∈ [(Num.nan, Num.fin false 1 0 false)].map (fun q => (q.1.mul q.2).1) ∧
    (let qs := [(Num.inf true, Num.fin false 1 0 false)].map fun q : Num × Num => (q.1.mul q.2).1
     Num.nan ∉ qs ∧ Num.inf false ∉ qs ∧ Num.inf true ∈ qs) := by
  refine ⟨⟨?_, ?_, ?_, ?_, ⟨_, _, _, rfl⟩, _, _, _, rfl⟩, ⟨?_, ⟨_, _, _, rfl⟩, ?_⟩, ?_, ?_, ?_, ?_⟩ <;> decide +kernel

theorem witness_EngineItemsAndEvents_reads :
    (tEng []).lostOf 0 4 .xb (span 0 8) = none ∧ (tEng []).deadBanks = [] ∧
    (let k := tCmd false false .copy
     (∀ j q, j < 0 → (tEng [k] |>.ctx 0).cmds[j]? = some q → q.started = true ∧ q.kind ≠ .fence) ∧ k.kind ≠ .fence ∧ k.arrive = false) ∧
    (let n : MNest := { (default : MNest) with step := 0, tab := 0 }
     let s := (tEng []).modCtx 0 fun x => { x with mnest := some n }
     (s.ctx 0).cmds = [] ∧ (s.core 0).halting = false ∧ ((s.core 0).gov && s.cycle.getLsbD 0) = false ∧ tabGated n.tab = false) := by
  refine ⟨?_, ?_, ⟨?_, ?_, ?_⟩, ?_, ?_, ?_, ?_⟩
  case refine_3 =>
    intro j q h
    exact absurd h (by omega)
  all_goals decide +kernel

/-- A nest of one MMAI whose group scales stand at words of SM; each step of its first level adds 4 to SABASE. -/
def tScaled (n word : Nat) : State := tMat.modCtx 0 fun x => { x with
  tv := x.tv ++ [(13, tTile 0xB00 32 1 32 .i8), (14, tTile 0xC00 16 32 1 .i8)], av := x.av ++ [(4, tTile 0x40900 16 1 1 .f32)]
  s := [(48, BitVec.ofNat 64 word)]
  mn := [(0, BitVec.ofNat 64 (0x2C * 2 ^ 48 + 0x30 * 2 ^ 32 + 0x1024 * 2 ^ 16)), (1, BitVec.ofNat 64 (0x3B5002 * 2 ^ 32 + 2 ^ 20)),
    (2, BitVec.ofNat 64 (n * 2 ^ 52 + 4))] }

/-- The first extreme of the scales of that nest. -/
def tScaleFar (n word : Nat) : Option Word :=
  let s := tScaled n word
  let t := (s.slotCtx .m).shadowTab
  match nestBody (nd t 1 / 2 ^ 32) with
  | some (f, _) => (match (s.slot .m).mmaOperands s.cur f with
    | .ok (a, b, v) => (s.slot .m).scaleExtreme s.cur t (scaleOps (f.job a b v 0 false) (Scales.ofWord (BitVec.ofNat 64 word)))
    | .error _ => none)
  | none => none

theorem witness_MatrixControlResults_scales :
    (let s := tScaled 1 0
     let t := (s.slotCtx .m).shadowTab
     ∃ f sx, s.Opens .m tz ∧ nestBody (nd t 1 / 2 ^ 32) = some (f, sx) ∧ f.kind = .group ∧ matReserved t f.kind = false ∧
       scaleStepsAligned t = true ∧ (∃ p, (s.slot .m).mmaOperands s.cur f = .ok p) ∧ (Scales.ofWord 0).aligned = true ∧
       (Scales.ofWord 2).aligned = false) ∧
    tScaleFar 1 0 = none ∧ tScaleFar 1 0x1FFFC = some (nestWord 3 0 3) := by
  refine ⟨⟨_, _, opens_of ?_, rfl, ?_, ?_, ?_, ⟨_, rfl⟩, ?_, ?_⟩, ?_, ?_⟩ <;> decide +kernel

theorem witness_StreamEventResults_waits :
    (let s := (tRun .c 0).modStr 0 .c fun t => { t with held := some (.word 0x0123144A), wait := some (2, 2 ^ 32) }
     s.runs 0 .c = true ∧ (s.ctx 0).limit ≤ 2 ^ 32 ∧ s.stillWaits 0 .c 2 = true ∧
       (s.modCtx 0 fun x => { x with tok := [(2, 1)] }).stillWaits 0 .c 2 = false) ∧
    (let s := (tPhase true none).modStr 0 .c fun t => { t with held := some (.word 0x0000282C), wait := some (9, 2 ^ 32) }
     s.runs 0 .c = true ∧ s.stillWaits 0 .c 9 = true ∧ (s.ctx 0).limit ≤ 2 ^ 32) := by
  refine ⟨⟨?_, ?_, ?_, ?_⟩, ?_, ?_, ?_⟩ <;> decide +kernel

/-- A write that core 0 has sent and that is not acknowledged. -/
def tSentWrite : State := { tRun .c 0 with unacked := [{ wid := 0, src := .task 0 0 0 0, w := { via := some 0xFFFF, gen := 0, addr := 0x40000, cells := [(0x40000, [5])], later := [] } }] }

theorem witness_HomeAndLevelEventResults_others :
    (let s := tSentWrite
     ((s.ctx 0).str .c).sent = none ∧ (∃ u, s.unacked.filter (fun u => u.src.named 0 .c) = [u] ∧ u.w.cells = [(0x40000, [5])] ∧
       (∃ p, s.vRange none 0xFFFF .w u.w.addr 1 = .ok [p] ∧ p.1 = 0x40000) ∧ inRanges u.w.later 0x40000 = false) ∧
     s.sealedHit [(0x40000, 1)] = false ∧ s.sealedHit [(loadPc, 1)] = true) ∧
    (let r : Region := { loadRegion with target := 4, count := 5, rearm := false, fired := false }
     let s := { State.reset with regions := [(0, r)] }
     s.counts = [] ∧ s.regions.get? 0 = some r ∧ r.valid = true ∧ r.rearm = false ∧ r.fired = false ∧ r.target ≠ 0 ∧ r.target ≤ r.count ∧ 0 ∉ s.refire) ∧
    (let s := (tRun .c 0).modCore 0 fun k => { k with pend := [⟨0x40000, 0x40000, [5], 1⟩] }
     s.swept 0xFFFF = false) ∧
    (let w : EccReport := { (default : EccReport) with first := 5, bad := true, words := 4 }
     8 * w.first.toNat < 0x018000000000 ∧ { w with bad := false }.bad = false) := by
  refine ⟨⟨rfl, ⟨_, rfl, rfl, ⟨_, rfl, ?_⟩, rfl⟩, ?_, ?_⟩, ⟨rfl, rfl, rfl, rfl, rfl, ?_, ?_, ?_⟩, ?_, ?_, ?_⟩ <;> decide +kernel

theorem witness_TaskEventResults_others :
    (let s := { tFoot with queues := [(0, { (default : Queue) with waiting := [BitVec.ofNat 512 (2 ^ 184)] })] }
     s.recsWait 0 0 = true ∧ tFoot.recsWait 0 0 = false) ∧
    (let s := (tRun .c 0).modCtx 0 fun x => { x with failed := some (.misaligned, 4), strC := { x.strC with live := .exited } }
     s.ended 0 = true ∧ (s.ctx 0).failed = some (.misaligned, 4)) ∧
    (let l := tLaunch 1 Task.fresh
     (l.task 0).closing = none ∧ l.gatesOpen 0 = true ∧ pktStart l.pkt ≤ (0 : Word).toNat ∧ (l.task 0).st = .queued) ∧
    (let s := { tPhase true none with phases := [(3, { PhCtr.fresh with target := 1, count := 1 })] } |>.modCtx 0 fun x =>
       { x with shadow := some { x.strC with phaseArr := true, phaseGo := none } }
     s.phaseQuiet 3 = true ∧ ∃ u, (s.ctx 0).shadow = some u ∧ u.phaseArr = true ∧ u.phaseGo = none) := by
  refine ⟨⟨?_, ?_⟩, ⟨?_, ?_⟩, ⟨?_, ?_, ?_, ?_⟩, ?_, _, rfl, ?_, ?_⟩ <;> decide +kernel

theorem witness_PreemptionEventResults_others :
    (let s := tArea (2 ^ 19) default fun k => { k with save := some (tSave .ckpt false 0) }
     s.storesStand 0 = true) ∧
    (let s := tArea (2 ^ 19) default fun k => { k with save := some (tSave .ckpt true 13) }
     s.storesStand 0 = true ∧ { s with devTime := 2 ^ 63 }.hangNs ≤ (2 ^ 63 : Word).toNat ∧ (tSave .ckpt true 13).sect = 13) ∧
    (let s := { tArea (2 ^ 19) default fun k => k with emergUsed := [0] }
     s.siteOf 0 ∈ s.emergUsed ∧ (tSave .preempt true 1).sect ≠ 13 ∧ SaveWhy.preempt ≠ .ckpt) ∧
    (let s := tRun .c 0
     (s.core 0).run ≠ none ∧ (s.core 0).stop = none ∧ (s.core 0).frz = none) ∧
    (let s := State.reset
     { s.mgmt with debug := true }.debug = true ∧ { s.mgmt with debug := false }.debug = false) := by
  refine ⟨?_, ⟨?_, ?_, ?_⟩, ⟨?_, ?_, ?_⟩, ⟨?_, ?_, ?_⟩, ?_, ?_⟩ <;> decide +kernel

theorem witness_FabricEventResults_packets :
    (let s := State.reset
     let p : FabPkt := { src := 3, dst := s.devId + 1, id := 7, hops := 4, body := .send 2 0 0 [1] }
     p.dst ≠ s.devId ∧ 4 ≤ p.hops.toNat ∧ { p with hops := 3 }.hops.toNat < 4 ∧ s.doneSends.contains (2, p.src, 0) = false ∧
       { s with doneSends := [(2, 3, 0)] }.doneSends.contains (2, p.src, 0) = true ∧ s.recvOf p.src 2 = none) ∧
    (let q : SeenPkt := { src := 3, id := 7, cause := some 0, w := { (default : Written) with cells := [(0x40000, [5])] } }
     ({ State.reset with seenPkts := [q] }.seenPkts.find? fun r => r.src == 3 && r.id == 7) = some q ∧ { q with cause := none }.cause = none) ∧
    (let r : Recv := { (default : Recv) with chan := 2, peer := 3 }
     { State.reset with recvs := [r] }.recvOf 3 2 = some r ∧ { State.reset with recvs := [r] }.recvOf 4 2 = some r) ∧
    (∀ q ∈ [((1 : Nat), (4 : Nat))], q.1 ≤ q.2) ∧
    (let o : OutPkt := { (default : OutPkt) with sent := false }
     let s := { State.reset with outPkts := [{ o with sent := true }, o] }
     s.outPkts = [{ o with sent := true }] ++ [o] ∧ (∀ q ∈ [{ o with sent := true }], q.sent = true) ∧
       (s.outPkts.find? fun p => p.pkt.id == 0 && p.sent) = some { o with sent := true } ∧ ∀ p ∈ s.outPkts, p.sent = true → p.pkt.id ≠ 5) := by
  refine ⟨?_, ?_, ?_, ?_, ?_⟩ <;> decide +kernel

theorem witness_HostRequestResults_held :
    (let s := { tFoot with fwStage := .quiesced 0 }
     let h : Toc := { sess := none, seq := s.ctlSeq }
     s.frozen = false ∧ s.bootOk = true ∧ h.seq = s.ctlSeq ∧ (s.regValue 0).isSome = true ∧ s.fwStage ≠ .idle ∧ s.tocHeld = [] ∧
       { s with tocHeld := [.regRead h 0] }.tocHeld = [.regRead h 0] ∧ s.toclCancels = [] ∧ tFoot.fwStage = .idle) ∧
    (tFoot.sealedHit [(0x100000, 8)] = true ∧ State.reset.regValue 0x100 = none) ∧
    (let s := tFoot
     s.entryHeld loadRegion = true ∧ (s.space loadAsid).isSome = true ∧ (0x10000 : VAddr).toNat % 0x10000 = 0) := by decide +kernel

theorem witness_PowerAndBootResults_others :
    (let s := { State.reset with trimGoal := [(3, 20)], trims := [(3, 10)], devTime := 2000 }
     s.trimGoal = [(3, 20)] ∧ s.devTime.toNat / 1000 ≠ (1999 : Word).toNat / 1000 ∧ s.devTime.toNat / 1000 = (2001 : Word).toNat / 1000 ∧
       s.subs = [] ∧ (s.trims.getD 3 0).toNat + 5 < (20 : BitVec 16).toNat) ∧
    (let u : Sub := { (default : Sub) with kind := 3 }
     let s := { State.reset with subs := [(7, u)] }
     s.subs.get? 7 = some u ∧ u.kind ≠ 0 ∧ s.sampled.getD u.sensor 0 ≠ s.devTime.toNat / 1000 + 1 ∧
       { s with sampled := [(u.sensor, 1)] }.sampled.getD u.sensor 0 = s.devTime.toNat / 1000 + 1) ∧
    (let s := { (tCore fun k => { k with pwr := .waiting 0 }) with arbiter := [(0, [0])], cycle := 3 }
     s.arbiter.getD 0 [] = [0] ∧ (s.core 0).pwr = .waiting 0 ∧ 0 < s.cycle.toNat ∧ s.ramping 0 < 8) ∧
    (let s := State.reset
     s.bootStop = none ∧ { s with bootFinds := some .seed }.bootFinds = some .seed ∧ { s with bootFinds := some .bist }.bootStop = some .bist ∧
       s.cfgOk 2 = true ∧ { s with flashRecs := [(2, tFw 3)] }.cfgOk 2 = false ∧ { s with bootFail := some .botra }.bootFail = some .botra) ∧
    (let s := { State.reset with fwSlots := [(0, { tFw 1 with magic := 0 }), (1, { tFw 1 with magic := 0 })] }
     s.bootSlot = none) := by
  refine ⟨?_, ?_, ?_, ⟨?_, ?_, ?_, ?_, ?_, ?_⟩, ?_⟩ <;> decide +kernel

/-! ### Hypotheses of single clauses -/

theorem witness_StreamEventResults_turns :
    (let s := ((tRun .v 0).modCore 0 fun k => { k with gov := true }).modStr 0 .v fun t => { t with occ := 2 }
     ({ s with cycle := 1 }.core 0).govOdd 1 = true ∧ ({ s with cycle := 2 }.core 0).govOdd 2 = false ∧ s.sched.head? = some (.strm 0 .v) ∧
       (s.core 0).free = true ∧ (s.core 0).saveLets .v = true ∧ (s.ctx 0).strV.live = .live ∧ (s.ctx 0).strV.occ ≠ 0) ∧
    (let s := (tRun .c 0).modStr 0 .c fun t => { t with held := some (.word 0x0123144A), wait := some (2, 2 ^ 32), dfault := some (.misaligned, 4) }
     s.sched.head? = some (.strm 0 .c) ∧ { s with sched := [] }.sched.head? ≠ some (.strm 0 .c) ∧ s.stillWaits 0 .c 2 = true ∧
       (s.ctx 0).strC.skip = 0 ∧ (s.ctx 0).strC.occ = 0 ∧ (s.ctx 0).te = false ∧ (s.core 0).free = true ∧ (s.core 0).saveLets .c = true ∧
       (s.beginSlot 0 .c).2 = none) := by
  refine ⟨⟨?_, ?_, ?_, ?_, ?_, ?_, ?_⟩, ?_, ?_, ?_, ?_, ?_, ?_, ?_, ?_, ?_⟩ <;> decide +kernel

/-- A launch of three tasks that names graph 5, phase 7 and job 2, with one task running and one done; another waits for graph 5. -/
def tNamed : State :=
  { tRun .c 0 with
    launches := [(0, { tLaunch (2 * 2 ^ (8 * 0x38) + (5 + 2 ^ 15 + 7 * 2 ^ 16 + 2 ^ 31 + 2 * 2 ^ 32 + 2 ^ 47) * 2 ^ (8 * 0x70))
                          { Task.fresh with st := .running } with done := 1 }),
                 (1, tLaunch ((4 * 2 ^ 29 + 5) * 2 ^ (8 * 0x68)) Task.fresh)]
    graphs := [(5, { Ctr.fresh with target := 1 })]
    phases := [(7, { PhCtr.fresh with target := 1, count := 1 })] }

theorem witness_TaskEventResults_counts :
    (let s := tNamed
     ∃ l l2, s.launches.get? 0 = some l ∧ (l.task 0).st.terminal = false ∧ pktGraph l.pkt = some 5 ∧ pktPhase l.pkt = some 7 ∧
       pktJob l.pkt = some 2 ∧ ((s.graphs.getD 5 Ctr.fresh).arrive true).2 = true ∧ l.done + 1 + l.failed ≠ pktTasks l.pkt ∧
       { l with done := 2 }.done + 1 + l.failed = pktTasks l.pkt ∧ l.reported = false ∧ s.launches.get? 1 = some l2 ∧
       gateMode (pktGate l2.pkt 0) = 4 ∧ pktGate l2.pkt 0 % 4096 = 5) ∧
    (pktGraph loadLaunch.pkt = none ∧ pktJob loadLaunch.pkt = none ∧ pktPhase loadLaunch.pkt = none) ∧
    (let s := tNextRec false
     (s.core 0).next = some tRec ∧ s.fwStage = .idle ∧ { s with fwStage := .quiesced 0 }.fwStage ≠ .idle) ∧
    (let s := { tQueue with launches := [(0, tLaunch 0 Task.fresh)] }
     s.roomFor 0 0 0 = true ∧ s.roomFor 0 9 0 = false ∧ (1 : BitVec 128).getLsbD 0 = true ∧ (0 : BitVec 128).getLsbD 0 = false) ∧
    (let s := (tRun .c 0).modCtx 0 fun x => { x with failed := some (.misaligned, 4), strC := { x.strC with live := .exited } }
     s.ended 0 = true ∧ s.queues.get? 0 = none ∧ (s.ctx 0).failed = some (.misaligned, 4)) ∧
    (let q : Queue := { (default : Queue) with asid := 9, waiting := [BitVec.ofNat 512 (2 ^ 184)] }
     let s := { tFoot with queues := [(0, q)] }
     s.recsWait 0 0 = true ∧ s.queues.get? 0 = some q ∧ ∃ e, s.devRead none q.asid q.cons.toNat 8 = .error e) ∧
    (let s := tRun .c 0
     (s.core 0).run ≠ none ∧ (s.core 0).govUs ≠ s.devTime.toNat / 1000 + 1 ∧
       { s.core 0 with govUs := 1 }.govUs = s.devTime.toNat / 1000 + 1) := by
  refine ⟨⟨_, _, rfl, rfl, ?_, ?_, ?_, ?_, ?_, ?_, rfl, rfl, ?_, ?_⟩, ⟨?_, ?_, ?_⟩, ⟨?_, ?_, ?_⟩, ⟨?_, ?_, ?_, ?_⟩, ⟨?_, ?_, ?_⟩,
    ⟨?_, rfl, (.translation, 0), ok_err ?_⟩, ?_, ?_, ?_⟩ <;> decide +kernel

/-- A bad byte among those that a copy reads is found. -/
theorem emergBad_of {s : State} {area q : Nat} {a : Allot} {p : Nat × Nat} (hb : s.bad.isEmpty = false) (hp : p ∈ emergReads area a)
    (hq : q ∈ span p.1 p.2) (h : s.paBad q = true) : ∃ b, s.emergBad area a = some b := by
  have hm : q ∈ ((emergReads area a).map fun p => (span p.1 p.2).filter s.paBad).flatten :=
    List.mem_flatten.2 ⟨_, List.mem_map.2 ⟨p, hp, rfl⟩, List.mem_filter.2 ⟨hq, h⟩⟩
  unfold State.emergBad
  rw [hb]
  generalize ((emergReads area a).map fun p => (span p.1 p.2).filter s.paBad).flatten = l at hm
  cases l with
  | nil => cases hm
  | cons x t =>
    simp only [minOf]
    cases minOf t with
    | none => exact ⟨_, rfl⟩
    | some y => exact ⟨_, rfl⟩

theorem witness_PreemptionEventResults_copies :
    (let a : SaveArea := { (default : SaveArea) with base := 0x200000, slotSize := 0x40000, emerg := some (3, 0, default) }
     let l := tLaunch 0 { Task.fresh with st := .saved, area := some a }
     let s := { tRun .c 0 with launches := [(0, l)] }
     s.fwStage = .idle ∧ (l.task 0).closing = none ∧ s.emergBad 0x1000000 Ctx.reset.allot = none ∧
       (s.slotWrites l.asid [(0x200000, [1]), (0x200001, [2])]).isSome = true ∧ s.slotWrites l.asid [(2 ^ 42, [1])] = none) ∧
    (let s := { tRun .c 0 with bad := [0x22000] }
     ∃ q, s.emergBad 0x100000 Ctx.reset.allot = some q) ∧
    (let s := (tRun .c 0).modCore 0 fun k => { k with frz := some { (default : Frz) with cause := .misaligned, defer := true } }
     (s.core 0).run ≠ none ∧ (s.core 0).stop = none ∧ ∃ f, (s.core 0).frz = some f ∧ f.report = false ∧ f.defer = true) ∧
    (let s := { tCore fun k => { k with dead := true } with fwStage := .quiesced 0 }
     (s.core 0).run = none ∧ s.fwStage ≠ .idle ∧ (s.freeSpare 0).isSome = true) := by
  refine ⟨⟨?_, ?_, ?_, ?_, ?_⟩, ?_, ⟨?_, ?_, _, rfl, ?_, ?_⟩, ?_, ?_, ?_⟩
  case refine_6 =>
    refine emergBad_of (by decide) (p := (0x110000, 0x10000)) (q := 0x110000) ?_ (List.mem_map.2 ⟨0, List.mem_range.2 (by decide), rfl⟩) ?_ <;>
      decide +kernel
  all_goals decide +kernel

theorem witness_FabricEventResults_again :
    (let q : SeenPkt := { src := 3, id := 7, cause := some 0, w := { via := some 0xFFFF, gen := 0, addr := 0x40000, cells := [(0x40000, [5])], later := [(0x40008, 8)] } }
     let s := { tRun .c 0 with seenPkts := [q] }
     (s.seenPkts.find? fun r => r.src == 3 && r.id == 7) = some q ∧ inRanges q.w.later 0x40009 = true ∧ inRanges q.w.later 0x40000 = false ∧
       (∃ y, s.vRange none 0xFFFF .w q.w.addr 1 = .ok [y] ∧ y.1 = 0x40000) ∧ s.sealedHit [(0x40000, 1)] = false) ∧
    (let s := { State.reset with collFails := [(2, 6)] }
     (2, 6) ∈ s.collFails ∧ (2, 7) ∉ s.collFails) := by
  refine ⟨⟨?_, ?_, ?_, ⟨_, rfl, ?_⟩, ?_⟩, ?_, ?_⟩ <;> decide +kernel

theorem witness_HostRequestResults_sessions :
    (let s := { State.reset with tocHeld := [.regRead { sess := some 3, seq := 1 } 0] }
     (∃ i ∈ s.tocHeld, ∃ k, tocOf i = some k ∧ k.sess = some 3) ∧ ∀ i ∈ s.tocHeld, ∀ k, tocOf i = some k → k.sess ≠ some 4) ∧
    (let s := { State.reset with sessions := [(3, { asid := none, seq := 0 })] }
     s.bootOk = true ∧ ∀ e, s.sessions.get? 3 = some e → e.asid = none) ∧
    (∃ x, State.reset.hostRange 9 .w 0x40000 8 = .error x) := by
  refine ⟨⟨⟨_, List.mem_singleton.2 rfl, _, rfl, rfl⟩, ?_⟩, ⟨rfl, ?_⟩, (.translation, 0x40000), ok_err (by decide +kernel)⟩
  · intro i hi k hk
    rw [List.mem_singleton.1 hi] at hk
    cases hk
    decide
  · intro e he
    cases he
    rfl

theorem witness_LandingsTakeEffectInTheirSlot_late :
    (let x := { Ctx.reset with vLanded := [50] }
     (50 : SReg).toNat ∈ x.vLanded ∧ (51 : SReg).toNat ∉ x.vLanded) := by decide

theorem witness_BarrierResults_told :
    (let s := tFoot.modStr 0 .c fun t => { t with bar := some (0x40000, true) }
     s.Opens .c tz ∧ (s.slotCtx .c).strC.bar = some ((s.slot .c).barPa 0 0x40000, true)) ∧
    (let s := { (tFoot.memWrite 0x40000 (Barrier.init 3 0).bytes) with regions := [], launches := tFoot.launches }
     (s.cached 0 0x40000).vmCheck 0 .rw .atomic 0x40000 16 = .ok [(0x40000, 16)] ∧ (s.core 0).pend = [] ∧
       s.badPiece [(0x40000, 16)] = none ∧ 2 ≤ (Barrier.ofBytes (s.memRead 0x40000 16)).pend) := by
  refine ⟨⟨opens_of ?_, ?_⟩, ok_of ?_, ?_, ?_, ?_⟩ <;> decide +kernel

theorem witness_ArrivalInstructionResults_created :
    (let s := tFull
     let b : Word := BitVec.ofNat 64 (Space.xb.code * 2 ^ 60 + 12 * 2 ^ 48 + 8)
     (b.extractLsb' 0 48).toNat = 8 ∧ Space.ofCode (b.extractLsb' 60 4).toNat = some .xb ∧ (s.ctx 0).coreEntry .xb 0x2000 = none ∧
       ((b.extractLsb' 48 6).toNat = 12) ∧ (s.cellOf 0 .xb 0x2000).isSome = true ∧ (s.ctx 0).regs = [] ∧
       (2 ^ 60 : Word).getLsbD 60 = true ∧ (s.cellOf 0 .xb 0x200000) = none) ∧
    (let e := { tEntry 4 with count := 9 }
     (5 : Nat) ≤ e.count ∧ (2 ^ 61 : Word).getLsbD 61 = true ∧ (2 ^ 61 : Word).extractLsb' 62 2 = 0) := by
  refine ⟨⟨?_, ?_, ?_, ?_, ?_, ?_, ?_, ?_⟩, ?_, ?_, ?_⟩ <;> decide +kernel

theorem witness_SealAndFenceResults_whole :
    (let s := tFoot
     s.wholeHold 0 .seal .virt 0x100000 0x1000 = true ∧ s.footCheck 0 .seal .virt 0x100000 0x1000 = none) ∧
    (let s := { tFoot with launches := [(0, { loadLaunch with foot := [⟨.virt, 0x100000, 11, 1, false⟩, ⟨.virt, 0x100800, 11, 1, false⟩] })] }
     s.footCheck 0 .seal .virt 0x100000 0x1000 = none ∧ s.wholeHold 0 .seal .virt 0x100000 0x1000 = false ∧
       ∃ b v, (s.core 0).run = some b ∧ s.launchOf 0 = some v ∧
         ∀ h ∈ v.holds b.tidx.toNat, 0x100000 < h.base ∨ h.base + h.len < 0x100000 + 2 ^ 12) := by
  refine ⟨⟨?_, ?_⟩, ?_, ?_, _, _, rfl, rfl, ?_⟩ <;> decide +kernel

theorem witness_LaunchResults_held :
    (let s := { tReg [(1, 0x40), (2, 0x40000)] with memHold := true }
     s.Opens .c tz ∧ ((s.slotCtx .c).sr 1).toNat % 64 = 0 ∧ (s.slot .c).memHold = true ∧
       (s.slot .c).badOf s.cur 0 .cr (span 0x40 128) = none) := by
  refine ⟨opens_of ?_, ?_, ?_, ?_⟩ <;> decide +kernel

theorem witness_VectorOperandFaults_inactive :
    (let s := tVec.modCtx 0 fun x => { x with k := [(3, (BitVec.allOnes 128) <<< 1)], actm := 3 }
     s.vecActive 8 0 = false ∧ s.vecActive 8 1 = true) ∧
    tVec.spoils (tVec.takes (.vadd tz .i8 false 3 4 1)) 4 0x200 := by
  refine ⟨⟨?_, ?_⟩, ?_, 0, ?_, ?_, show tVec.vecActive 8 0 = true from ?_, ?_⟩ <;> decide +kernel

theorem witness_AccumulatorAndTileResults_lacking :
    (let s := { tMat with mgmt := { tMat.mgmt with usable := 0 } }
     s.mgmt.usable.getLsbD 0 = false ∧ (tTile 0x300 64 2 4 .f64).fmt = .f64 ∧ (s.slotCtx .m).tv.get? 3 = some (tTile 0x300 64 2 4 .f64)) := by
  refine ⟨?_, ?_, ?_⟩ <;> decide +kernel

theorem witness_EngineItemsAndEvents_turns :
    (let s := { tEng [] with sched := [.engine 0] }
     s.sched.head? = some (.engine 0) ∧ (∀ e : Strm, Agent.strm 0 e ∉ s.sched) ∧ ({ (default : MNest) with ahead := 2 }.ahead ≠ 0) ∧
       (default : MNest).ahead = 0) := by
  refine ⟨?_, ?_, ?_, ?_⟩
  case refine_2 =>
    intro e h
    simp at h
  all_goals decide +kernel

theorem witness_FloatValueLaws_powers :
    (3 : Nat) ≠ 0 ∧ (-1 : Int) < 0 ∧ (-1 : Int) + (Nat.log2 3 : Int) ≤ 20 ∧ ∀ k : Int, (Num.fin false 3 0 false).val ≠ (2 : Rat) ^ k :=
  ⟨by decide, by decide, by decide +kernel, three_ne_zpow⟩

end Sys2Proof.Machine
end

/-! ## Compares and predicate logic: the fields of C words, the conditions, and O3 -/

namespace Sys2Proof

/-! ### Fields of a word (R71, R72) -/

theorem fld_add (w lo m n : Nat) : fld w lo (m + n) = fld w lo m + 2 ^ m * fld w (lo + m) n := by
  simp only [fld, pow_add, Nat.mod_mul, Nat.div_div_eq_div_mul]

/-- A field is zero when its low part and its high part are. -/
theorem fld_add_eq_zero (w lo m n : Nat) : fld w lo (m + n) = 0 ↔ fld w lo m = 0 ∧ fld w (lo + m) n = 0 := by
  simp [fld_add]

/-- The operation code of a word of 32 bits is what stands above bit 28. -/
theorem fld_op {w : Nat} (hw : w < 2 ^ 32) : fld w 28 4 = w / 2 ^ 28 := by
  unfold fld
  omega

theorem fld_one_beq (w n : Nat) : (fld w n 1 == 1) = w.testBit n := by
  simp only [fld, pow_one, Nat.testBit_eq_decide_div_mod_eq, beq_eq_decide]

theorem ringOf_eq (w : Nat) : ringOf w = ⟨w.testBit 6, w.testBit 7, w.testBit 8, w.testBit 9⟩ := by
  simp only [ringOf, fld_one_beq]

/-! ### Rows of an opcode table -/

/-- What a table of operation codes gives for code f: its row, or RESERVED_OPCODE where it has none (R86). -/
def opRow (rows : List Instr) (f : Nat) : Except DecodeErr Instr := (rows[f]?).elim (.error .reservedField) .ok

theorem opRow_of_some {rows : List Instr} {f : Nat} {i : Instr} (h : rows[f]? = some i) : opRow rows f = .ok i := by
  simp [opRow, h]

theorem opRow_of_length_le {rows : List Instr} {f : Nat} (h : rows.length ≤ f) :
    opRow rows f = .error .reservedField := by
  simp [opRow, List.getElem?_eq_none h]

/-- A table whose rows are all well-formed loses none of them. -/
theorem wfOnly_opRow {rows : List Instr} (f : Nat) (h : ∀ i ∈ rows, i.wf = true) :
    wfOnly (opRow rows f) = opRow rows f := by
  cases hr : rows[f]? with
  | none => simp [opRow, hr, wfOnly]
  | some i => simp [opRow, hr, wfOnly, h i (List.mem_of_getElem? hr)]

/-! ### The words of compares and of predicate logic (R74, R108 to R110) -/

theorem condOf_of_table {n : Nat} {k : Cond}
    (h : [Cond.eq, .ne, .lt, .ge, .ltn, .gen, .any, .none][n]? = some k) : condOf n = k := by
  obtain ⟨hn, rfl⟩ := List.getElem?_eq_some_iff.mp h
  simp only [List.length_cons, List.length_nil] at hn
  interval_cases n <;> rfl

/-- The rows of major 0x11 (R108). -/
def cmpRows (r : Ring) (pd : PReg) (k : Cond) (a b : SReg) : List Instr :=
  [.cmp r pd k a b, .cmpAnd r pd k a b, .cmpOr r pd k a b]

/-- The rows of major 0x13 (R110): three with two sources, two with one. -/
def predRows (r : Ring) (pd pa pb : PReg) : List Instr :=
  [.pand r pd pa pb, .por r pd pa pb, .pxor r pd pa pb] ++ [.pnot r pd pa, .pmov r pd pa]

/-- The bits that a word of major 0x13 must leave zero; PNOT and PMOV have no second source (R72, R110). -/
def PredZeros (w : Nat) : Prop :=
  (w / 2 ^ 13 % 8 = 0 ∧ w / 2 ^ 22 % 64 = 0) ∧ (3 ≤ w / 2 ^ 28 → w / 2 ^ 19 % 8 = 0)

theorem decC11_eq (w : Nat) : decC11 w = opRow (cmpRows (ringOf w) (BitVec.ofNat 3 (w / 2 ^ 10)) (condOf (fld w 13 3))
    (BitVec.ofNat 6 (w / 2 ^ 16)) (BitVec.ofNat 6 (w / 2 ^ 22))) (fld w 28 4) := by
  unfold decC11
  match fld w 28 4 with
  | 0 | 1 | 2 | _ + 3 => rfl

theorem zero_zero_reserved {y z : Nat} {x : Except DecodeErr Instr} (h : ¬ (y = 0 ∧ z = 0)) :
    zero y (zero z x) = .error .reservedField := by
  by_cases hy : y = 0
  · simp [zero, hy, show z ≠ 0 from fun hz => h ⟨hy, hz⟩]
  · simp [zero, hy]

/-- The nine bits above pa are those of pb and the six above it. -/
theorem fld_19_9_eq_zero (w : Nat) : fld w 19 9 = 0 ↔ fld w 19 3 = 0 ∧ fld w 22 6 = 0 := fld_add_eq_zero w 19 3 6

theorem decC13_of_zeros {w : Nat} (hw : w < 2 ^ 32) (h : PredZeros w) :
    decC13 w = opRow (predRows (ringOf w) (BitVec.ofNat 3 (w / 2 ^ 10)) (BitVec.ofNat 3 (w / 2 ^ 16))
      (BitVec.ofNat 3 (w / 2 ^ 19))) (w / 2 ^ 28) := by
  obtain ⟨⟨hk : fld w 13 3 = 0, hz : fld w 22 6 = 0⟩, hb⟩ := h
  have hn : 3 ≤ w / 2 ^ 28 → fld w 19 9 = 0 := fun h3 => (fld_19_9_eq_zero w).mpr ⟨hb h3, hz⟩
  unfold decC13
  rw [fld_op hw]
  generalize w / 2 ^ 28 = f at hn
  match f with
  | 0 | 1 | 2 => rw [hk, hz]; rfl
  | 3 | 4 => rw [hk, hn (by omega)]; rfl
  | _ + 5 => rfl

theorem decC13_of_not_zeros {w : Nat} (hw : w < 2 ^ 32) (h : ¬ PredZeros w) : decC13 w = .error .reservedField := by
  have hn := fld_19_9_eq_zero w
  unfold PredZeros at h
  unfold decC13
  rw [fld_op hw]
  generalize w / 2 ^ 28 = f at h
  match f with
  | 0 | 1 | 2 => exact zero_zero_reserved fun hkz => h ⟨hkz, by omega⟩
  | 3 | 4 => exact zero_zero_reserved fun ⟨hk, h9⟩ => h ⟨⟨hk, (hn.mp h9).2⟩, fun _ => (hn.mp h9).1⟩
  | _ + 5 => rfl

/-! The words of the C stream with these majors. -/

theorem decodeWord_cmp {w : Nat} (hw : w < 2 ^ 32) (hm : w % 64 = 0x11) :
    decodeWord .c w = opRow (cmpRows (ringOf w) (BitVec.ofNat 3 (w / 2 ^ 10)) (condOf (fld w 13 3))
      (BitVec.ofNat 6 (w / 2 ^ 16)) (BitVec.ofNat 6 (w / 2 ^ 22))) (w / 2 ^ 28) := by
  have hc : decodeC w = decC11 w := by simp [decodeC, fld, hm]
  simp only [decodeWord, hc, decC11_eq, fld_op hw]
  exact wfOnly_opRow _ (by simp [cmpRows, Instr.wf])

theorem decodeWord_cmpi {w : Nat} (hm : w % 64 = 0x12) :
    decodeWord .c w = .ok (.cmpi (ringOf w) (BitVec.ofNat 3 (w / 2 ^ 10)) (condOf (fld w 13 3))
      (BitVec.ofNat 6 (w / 2 ^ 16)) (BitVec.ofNat 10 (w / 2 ^ 22))) := by
  have hc : decodeC w = decC12 w := by simp [decodeC, fld, hm]
  simp only [decodeWord, hc]
  rfl

theorem decodeWord_predLogic {w : Nat} (hm : w % 64 = 0x13) : decodeWord .c w = wfOnly (decC13 w) := by
  have hc : decodeC w = decC13 w := by simp [decodeC, fld, hm]
  simp only [decodeWord, hc]

theorem decodeWord_predLogic_of_zeros {w : Nat} (hw : w < 2 ^ 32) (hm : w % 64 = 0x13) (hz : PredZeros w) :
    decodeWord .c w = opRow (predRows (ringOf w) (BitVec.ofNat 3 (w / 2 ^ 10)) (BitVec.ofNat 3 (w / 2 ^ 16))
      (BitVec.ofNat 3 (w / 2 ^ 19))) (w / 2 ^ 28) := by
  rw [decodeWord_predLogic hm, decC13_of_zeros hw hz]
  exact wfOnly_opRow _ (by simp [predRows, Instr.wf])

theorem decodeWord_predLogic_of_not_zeros {w : Nat} (hw : w < 2 ^ 32) (hm : w % 64 = 0x13) (hz : ¬ PredZeros w) :
    decodeWord .c w = .error .reservedField := by
  rw [decodeWord_predLogic hm, decC13_of_not_zeros hw hz]
  rfl

end Sys2Proof

namespace Sys2Proof.Machine

/-! ### The conditions of R74 -/

@[simp] theorem condHolds_eq (x y : Word) : condHolds .eq x y = decide (x = y) := rfl
@[simp] theorem condHolds_ne (x y : Word) : condHolds .ne x y = decide (x ≠ y) := by
  simp [condHolds, bne, beq_eq_decide]
@[simp] theorem condHolds_lt (x y : Word) : condHolds .lt x y = decide (x.toInt < y.toInt) := rfl
@[simp] theorem condHolds_ge (x y : Word) : condHolds .ge x y = decide (y.toInt ≤ x.toInt) := by
  simp only [condHolds, BitVec.slt, ← not_lt, decide_not]
@[simp] theorem condHolds_ltn (x y : Word) : condHolds .ltn x y = decide (x.toNat < y.toNat) := rfl
@[simp] theorem condHolds_gen (x y : Word) : condHolds .gen x y = decide (y.toNat ≤ x.toNat) := by
  simp only [condHolds, BitVec.ult, ← not_lt, decide_not]
@[simp] theorem condHolds_any (x y : Word) : condHolds .any x y = decide (x &&& y ≠ 0) := by
  simp [condHolds, bne, beq_eq_decide]
@[simp] theorem condHolds_none (x y : Word) : condHolds .none x y = decide (x &&& y = 0) := rfl

/-! ### Compares and predicate logic in an open slot (R108 to R110), by the rule of `predOp` -/

section
variable {s : State} {r : Ring} (h : s.Opens .c r) (pd pa pb : PReg) (k : Cond) (a b : SReg) (imm : BitVec 10)
include h

theorem exec_cmp_open : exec (.cmp r pd k a b) s =
    .next (s.yields .c r 1 (.pred pd (condHolds k ((s.slotCtx .c).sr a) ((s.slotCtx .c).sr b)))) := by
  rw [exec_cmp, execCmp, predOp_open h]

theorem exec_cmpAnd_open : exec (.cmpAnd r pd k a b) s = .next (s.yields .c r 1
    (.pred pd ((s.slotCtx .c).pr pd && condHolds k ((s.slotCtx .c).sr a) ((s.slotCtx .c).sr b)))) := by
  rw [exec_cmpAnd, execCmpAnd, predOp_open h]

theorem exec_cmpOr_open : exec (.cmpOr r pd k a b) s = .next (s.yields .c r 1
    (.pred pd ((s.slotCtx .c).pr pd || condHolds k ((s.slotCtx .c).sr a) ((s.slotCtx .c).sr b)))) := by
  rw [exec_cmpOr, execCmpOr, predOp_open h]

theorem exec_cmpi_open : exec (.cmpi r pd k a imm) s =
    .next (s.yields .c r 1 (.pred pd (condHolds k ((s.slotCtx .c).sr a) (imm.signExtend 64)))) := by
  rw [exec_cmpi, execCmpi, predOp_open h]

theorem exec_pand_open : exec (.pand r pd pa pb) s =
    .next (s.yields .c r 1 (.pred pd ((s.slotCtx .c).pr pa && (s.slotCtx .c).pr pb))) := by
  rw [exec_pand, execPand, predOp_open h]

theorem exec_por_open : exec (.por r pd pa pb) s =
    .next (s.yields .c r 1 (.pred pd ((s.slotCtx .c).pr pa || (s.slotCtx .c).pr pb))) := by
  rw [exec_por, execPor, predOp_open h]

theorem exec_pxor_open : exec (.pxor r pd pa pb) s =
    .next (s.yields .c r 1 (.pred pd (xor ((s.slotCtx .c).pr pa) ((s.slotCtx .c).pr pb)))) := by
  rw [exec_pxor, execPxor, predOp_open h]

theorem exec_pnot_open : exec (.pnot r pd pa) s = .next (s.yields .c r 1 (.pred pd (!(s.slotCtx .c).pr pa))) := by
  rw [exec_pnot, execPnot, predOp_open h]

theorem exec_pmov_open : exec (.pmov r pd pa) s = .next (s.yields .c r 1 (.pred pd ((s.slotCtx .c).pr pa))) := by
  rw [exec_pmov, execPmov, predOp_open h]

end

/-- Settles O3: in an open slot each form lands the value of its rule, and a C word of major 0x11, 0x12 or 0x13 is the row
of its table when its zero bits are zero. -/
theorem predicateResults : Obligations.PredicateResults := by
  unfold Obligations.PredicateResults
  refine ⟨?_, ?_⟩
  · intro s r pd pa pb k a b imm h A B I P Q old holds lands
    have hk : ∀ x y, holds x y = condHolds k x y := by
      intro x y
      cases k with
      | eq => exact (condHolds_eq x y).symm
      | ne => exact (condHolds_ne x y).symm
      | lt => exact (condHolds_lt x y).symm
      | ge => exact (condHolds_ge x y).symm
      | ltn => exact (condHolds_ltn x y).symm
      | gen => exact (condHolds_gen x y).symm
      | any => exact (condHolds_any x y).symm
      | none => exact (condHolds_none x y).symm
    simp only [hk]
    exact ⟨exec_cmp_open h pd k a b, exec_cmpAnd_open h pd k a b, exec_cmpOr_open h pd k a b, exec_cmpi_open h pd k a imm,
      exec_pand_open h pd pa pb, exec_por_open h pd pa pb, exec_pxor_open h pd pa pb, exec_pnot_open h pd pa,
      exec_pmov_open h pd pa⟩
  · intro w hw r pd pa pb a b f zeros
    have hr : ringOf w = r := ringOf_eq w
    refine ⟨fun k hk => ⟨fun hm => ?_, fun hm => ?_⟩, fun hm => ⟨fun hz i hi => ?_, fun hz hb i hi hf => ?_, fun hbad => ?_⟩⟩
    · rw [decodeWord_cmp hw hm, hr, condOf_of_table (n := fld w 13 3) hk]
      exact ⟨fun i hi => opRow_of_some hi, fun hf => opRow_of_length_le hf⟩
    · rw [decodeWord_cmpi hm, hr, condOf_of_table (n := fld w 13 3) hk]
    · have hf : f < 3 := (List.getElem?_eq_some_iff.mp hi).1
      rw [decodeWord_predLogic_of_zeros hw hm ⟨hz, by omega⟩, hr]
      exact opRow_of_some ((List.getElem?_append_left hf).trans hi)
    · rw [decodeWord_predLogic_of_zeros hw hm ⟨hz, fun _ => hb⟩, hr]
      exact opRow_of_some ((List.getElem?_append_right hf).trans hi)
    · by_cases hpz : PredZeros w
      · have hf : 5 ≤ f := by
          rcases hbad with hnz | hf | ⟨h3, hne⟩
          · exact absurd hpz.1 hnz
          · exact hf
          · exact absurd (hpz.2 h3) hne
        rw [decodeWord_predLogic_of_zeros hw hm hpz]
        exact opRow_of_length_le hf
      · exact decodeWord_predLogic_of_not_zeros hw hm hpz

end Sys2Proof.Machine

/-! ## Scalar arithmetic (R100, R101, R103 to R105, R137): results, words, and O1 -/

namespace Sys2Proof

/-! ### Words of a C major whose codes are the rows of a table -/

/-- When a major's codes are the rows of a table, none of them ill-formed, its words are those rows. -/
theorem decodeWord_of_rows {w : Nat} {rows : List Instr} (hw : w < 2 ^ 32) (hc : decodeC w = opRow rows (fld w 28 4))
    (hwf : rows.all Instr.wf = true) : decodeWord .c w = opRow rows (w / 2 ^ 28) := by
  simp only [decodeWord, hc, fld_op hw]
  exact wfOnly_opRow _ (List.all_eq_true.mp hwf)

/-- What it is for words to be the rows of a table: each row for its code, and no other code (R86). -/
theorem rows_of_eq_opRow {x : Except DecodeErr Instr} {rows : List Instr} {f : Nat} (h : x = opRow rows f) :
    (∀ i, rows[f]? = some i → x = .ok i) ∧ (rows[f]? = none → x = .error .reservedField) := by
  rw [h]
  exact ⟨fun i hi => opRow_of_some hi, fun hn => opRow_of_length_le (List.getElem?_eq_none_iff.mp hn)⟩

/-- The rows of major 0x01 (R100). -/
def aluRows (r : Ring) (d a b : SReg) : List Instr :=
  [.add r d a b, .sub r d a b, .and r d a b, .or r d a b, .xor r d a b, .andn r d a b, .orn r d a b, .sll r d a b,
    .srl r d a b, .sra r d a b, .rol r d a b, .ror r d a b, .sel r d a b, .min r d a b, .max r d a b, .minn r d a b]

/-- The rows of major 0x02 (R101). -/
def mulDivRows (r : Ring) (d a b : SReg) : List Instr :=
  [.mul r d a b, .mulh r d a b, .mulhn r d a b, .div r d a b, .divn r d a b, .rem r d a b, .remn r d a b, .maxn r d a b]

/-- The rows of major 0x08 (R104). -/
def shiftImmRows (r : Ring) (d a : SReg) (sh : BitVec 6) : List Instr :=
  [.slli r d a sh, .srli r d a sh, .srai r d a sh, .rori r d a sh]

theorem decC01_eq (w : Nat) : decC01 w = opRow (aluRows (ringOf w) (BitVec.ofNat 6 (w / 2 ^ 10))
    (BitVec.ofNat 6 (w / 2 ^ 16)) (BitVec.ofNat 6 (w / 2 ^ 22))) (fld w 28 4) := by
  unfold decC01
  match fld w 28 4 with
  | 0 | 1 | 2 | 3 | 4 | 5 | 6 | 7 | 8 | 9 | 10 | 11 | 12 | 13 | 14 | 15 | _ + 16 => rfl

theorem decC02_eq (w : Nat) : decC02 w = opRow (mulDivRows (ringOf w) (BitVec.ofNat 6 (w / 2 ^ 10))
    (BitVec.ofNat 6 (w / 2 ^ 16)) (BitVec.ofNat 6 (w / 2 ^ 22))) (fld w 28 4) := by
  unfold decC02
  match fld w 28 4 with
  | 0 | 1 | 2 | 3 | 4 | 5 | 6 | 7 | _ + 8 => rfl

theorem decC08_eq (w : Nat) : decC08 w = opRow (shiftImmRows (ringOf w) (BitVec.ofNat 6 (w / 2 ^ 10))
    (BitVec.ofNat 6 (w / 2 ^ 16)) (BitVec.ofNat 6 (w / 2 ^ 22))) (fld w 28 4) := by
  unfold decC08
  match fld w 28 4 with
  | 0 | 1 | 2 | 3 | _ + 4 => rfl

theorem decodeWord_alu {w : Nat} (hw : w < 2 ^ 32) (hm : w % 64 = 0x01) :
    decodeWord .c w = opRow (aluRows (ringOf w) (BitVec.ofNat 6 (w / 2 ^ 10)) (BitVec.ofNat 6 (w / 2 ^ 16))
      (BitVec.ofNat 6 (w / 2 ^ 22))) (w / 2 ^ 28) := by
  have hc : decodeC w = decC01 w := by simp [decodeC, fld, hm]
  exact decodeWord_of_rows hw (hc.trans (decC01_eq w)) rfl

theorem decodeWord_mulDiv {w : Nat} (hw : w < 2 ^ 32) (hm : w % 64 = 0x02) :
    decodeWord .c w = opRow (mulDivRows (ringOf w) (BitVec.ofNat 6 (w / 2 ^ 10)) (BitVec.ofNat 6 (w / 2 ^ 16))
      (BitVec.ofNat 6 (w / 2 ^ 22))) (w / 2 ^ 28) := by
  have hc : decodeC w = decC02 w := by simp [decodeC, fld, hm]
  exact decodeWord_of_rows hw (hc.trans (decC02_eq w)) rfl

theorem decodeWord_shiftImm {w : Nat} (hw : w < 2 ^ 32) (hm : w % 64 = 0x08) :
    decodeWord .c w = opRow (shiftImmRows (ringOf w) (BitVec.ofNat 6 (w / 2 ^ 10)) (BitVec.ofNat 6 (w / 2 ^ 16))
      (BitVec.ofNat 6 (w / 2 ^ 22))) (w / 2 ^ 28) := by
  have hc : decodeC w = decC08 w := by simp [decodeC, fld, hm]
  exact decodeWord_of_rows hw (hc.trans (decC08_eq w)) rfl

/-- A major that is one instruction, well-formed whatever its fields. -/
theorem decodeWord_of_ok {w : Nat} {i : Instr} (hc : decodeC w = .ok i) (hi : i.wf = true) : decodeWord .c w = .ok i := by
  simp [decodeWord, hc, wfOnly, hi]

/-- The words of R103: each immediate form is a major of its own. -/
theorem decodeWord_arithImm (w : Nat) :
    let d := BitVec.ofNat 6 (w / 2 ^ 10)
    let a := BitVec.ofNat 6 (w / 2 ^ 16)
    let imm := BitVec.ofNat 10 (w / 2 ^ 22)
    (w % 64 = 0x04 → decodeWord .c w = .ok (.addi (ringOf w) d a imm)) ∧
    (w % 64 = 0x05 → decodeWord .c w = .ok (.andi (ringOf w) d a imm)) ∧
    (w % 64 = 0x06 → decodeWord .c w = .ok (.ori (ringOf w) d a imm)) ∧
    (w % 64 = 0x07 → decodeWord .c w = .ok (.xori (ringOf w) d a imm)) ∧
    (w % 64 = 0x09 → decodeWord .c w = .ok (.muli (ringOf w) d a imm)) := by
  refine ⟨fun hm => ?_, fun hm => ?_, fun hm => ?_, fun hm => ?_, fun hm => ?_⟩ <;>
    refine decodeWord_of_ok ?_ rfl
  · simp [decodeC, fld, hm, decC04]
  · simp [decodeC, fld, hm, decC05]
  · simp [decodeC, fld, hm, decC06]
  · simp [decodeC, fld, hm, decC07]
  · simp [decodeC, fld, hm, decC09]

end Sys2Proof

namespace Sys2Proof.Machine

/-! ### Word operations as arithmetic on the numbers that the words stand for (R100, R101) -/

theorem add_eq_ofInt (A B : Word) : A + B = BitVec.ofInt 64 (A.toInt + B.toInt) := by
  simp only [BitVec.ofInt_add, BitVec.ofInt_toInt]

theorem sub_eq_ofInt (A B : Word) : A - B = BitVec.ofInt 64 ((A.toNat : Int) - B.toNat) := by
  simp [Int.sub_eq_add_neg, BitVec.ofInt_add, BitVec.ofInt_neg, BitVec.sub_eq_add_neg]

theorem mul_eq_ofNat (A B : Word) : A * B = BitVec.ofNat 64 (A.toNat * B.toNat) := by
  simp only [BitVec.ofNat_mul, BitVec.ofNat_toNat, BitVec.setWidth_eq]

theorem mul_eq_ofInt (A B : Word) : A * B = BitVec.ofInt 64 (A.toInt * B.toInt) := by
  simp only [BitVec.ofInt_mul, BitVec.ofInt_toInt]

theorem signExtend_toInt (imm : BitVec 10) : (imm.signExtend 64).toInt = imm.toInt :=
  BitVec.toInt_signExtend_of_le (by decide)

theorem shiftLeft_eq_ofNat (A : Word) (n : Nat) : A <<< n = BitVec.ofNat 64 (A.toNat * 2 ^ n) := by
  apply BitVec.eq_of_toNat_eq
  simp [Nat.shiftLeft_eq]

theorem ushiftRight_eq_ofNat (A : Word) (n : Nat) : A >>> n = BitVec.ofNat 64 (A.toNat / 2 ^ n) := by
  apply BitVec.eq_of_toNat_eq
  rw [BitVec.toNat_ushiftRight, Nat.shiftRight_eq_div_pow, BitVec.toNat_ofNat,
    Nat.mod_eq_of_lt (lt_of_le_of_lt (Nat.div_le_self _ _) A.isLt)]

theorem sshiftRight_eq_ofInt (A : Word) (n : Nat) : A.sshiftRight n = BitVec.ofInt 64 (A.toInt / 2 ^ n) := by
  simp [BitVec.sshiftRight, Int.shiftRight_eq_div_pow]

theorem shiftOf_lt (B : Word) : shiftOf B < 64 := Nat.mod_lt _ (by decide)

theorem rotl_eq_rotateLeft (A : Word) {n : Nat} (h : n < 64) : rotl A n = A.rotateLeft n := by
  simp [rotl, BitVec.rotateLeft_def, Nat.mod_eq_of_lt h]

/-- To the right by n is to the left by what n lacks to 64, and no rotation for n = 0. -/
theorem rotl_eq_rotateRight (A : Word) {n : Nat} (h : n < 64) : rotl A ((64 - n) % 64) = A.rotateRight n := by
  rcases Nat.eq_zero_or_pos n with rfl | hn
  · simp [rotl, BitVec.rotateRight_def, BitVec.ushiftRight_eq_zero, BitVec.shiftLeft_eq_zero]
  · rw [rotl, Nat.mod_eq_of_lt (by omega), BitVec.rotateRight_def, Nat.mod_eq_of_lt h, BitVec.or_comm,
      show 64 - (64 - n) = n by omega]

theorem ite_slt_eq_min (A B : Word) : (if A.slt B then A else B) = BitVec.ofInt 64 (min A.toInt B.toInt) := by
  simp only [BitVec.slt, decide_eq_true_eq, min_def_lt, apply_ite (BitVec.ofInt 64), BitVec.ofInt_toInt]

theorem ite_slt_eq_max (A B : Word) : (if A.slt B then B else A) = BitVec.ofInt 64 (max A.toInt B.toInt) := by
  simp only [BitVec.slt, decide_eq_true_eq, max_def_lt, apply_ite (BitVec.ofInt 64), BitVec.ofInt_toInt]

theorem ite_ult_eq_min (A B : Word) : (if A.ult B then A else B) = BitVec.ofNat 64 (min A.toNat B.toNat) := by
  simp only [BitVec.ult, decide_eq_true_eq, min_def_lt, apply_ite (BitVec.ofNat 64), BitVec.ofNat_toNat, BitVec.setWidth_eq]

theorem ite_ult_eq_max (A B : Word) : (if A.ult B then B else A) = BitVec.ofNat 64 (max A.toNat B.toNat) := by
  simp only [BitVec.ult, decide_eq_true_eq, max_def_lt, apply_ite (BitVec.ofNat 64), BitVec.ofNat_toNat, BitVec.setWidth_eq]

/-- SEXT (R102) by the library's sign extension of the low n bits. -/
theorem sextTo_eq_signExtend (A : Word) {n : Nat} (h0 : 0 < n) (h : n ≤ 64) :
    sextTo A n = (A.extractLsb' 0 n).signExtend 64 := by
  ext i hi
  rw [sextTo, BitVec.getElem_sshiftRight, BitVec.getElem_signExtend]
  by_cases hin : i < n
  · have hlow : 64 - n + i < 64 := by omega
    simp [hin, hlow, BitVec.getLsbD_eq_getElem hi]
  · have hhigh : ¬ 64 - n + i < 64 := by omega
    have hsign : 63 - (64 - n) = n - 1 := by omega
    have hshift : ¬ 63 < 64 - n := by omega
    have hlast : n - 1 < 64 := by omega
    simp [hin, hhigh, hsign, hshift, h0, BitVec.msb_eq_getLsbD_last, BitVec.getLsbD_eq_getElem hlast]

theorem low32_mul_eq_ofNat (A B : Word) : (A * B).extractLsb' 0 32 = BitVec.ofNat 32 (A.toNat * B.toNat) := by
  apply BitVec.eq_of_toNat_eq
  simp

theorem shiftLeft_16_or (D : Word) (imm : BitVec 16) : (D <<< 16) ||| imm.setWidth 64 = D.extractLsb' 0 48 ++ imm := by
  ext i hi
  refine Eq.trans ?_ (BitVec.getElem_append (x := D.extractLsb' 0 48) (y := imm) hi).symm
  by_cases h : i < 16
  · simp [h]
  · have himm : imm.getLsbD i = false := BitVec.getLsbD_of_ge imm i (by omega)
    have hD : D.getLsbD (i - 16) = D[i - 16] := BitVec.getLsbD_eq_getElem (by omega)
    simp [h, himm, hD]

/-- ADDPC's sum (R105) keeps of the PC its bits [63:0] (R111). -/
theorem pc_add_eq_ofInt (pc : VAddr) (imm : BitVec 16) :
    pc.setWidth 64 + 2 * imm.signExtend 64 = BitVec.ofInt 64 (pc.toNat + 2 * imm.toInt) := by
  simp [BitVec.ofInt_add, BitVec.ofInt_mul, BitVec.signExtend]

/-! ### The results in an open slot -/

/-- An instruction of the shape of `scalarOp` lands the value that its function gives on the slot's context. -/
theorem exec_of_scalarOp {i : Instr} {lat : Nat} {r : Ring} {d : SReg} {f : Ctx → Word} {s : State} {v : Word}
    (h : s.Opens .c r) (hi : exec i s = scalarOp lat r d f s) (hv : f (s.slotCtx .c) = v) :
    exec i s = .next (s.yields .c r lat (.scalar d v)) := by
  rw [hi, scalarOp_open h, hv]

/-- The one quotient that its width cannot hold, −2^63 by −1, wraps (R101). -/
theorem quotS_overflow : quotS 0x8000000000000000 0xFFFFFFFFFFFFFFFF = 0x8000000000000000 := by decide

theorem remS_overflow : remS 0x8000000000000000 0xFFFFFFFFFFFFFFFF = 0 := by decide

theorem exec_mulw_open {s : State} {r : Ring} (h : s.Opens .c r) (d a b : SReg) :
    exec (.mulw r d a b) s = .next (State.complete s.cur .c r (Done.one ((s.slot .c).countDeprecated s.cur)
      (New.plain 3 (.scalar d ((BitVec.ofNat 32
        (((s.slotCtx .c).sr a).toNat * ((s.slotCtx .c).sr b).toNat)).signExtend 64))))) := by
  rw [exec_mulw, ← low32_mul_eq_ofNat, ← sextTo_eq_signExtend _ (by decide) (by decide)]
  exact issue_ok h rfl rfl

/-- Settles O1: each form is a `scalarOp` whose value is the arithmetic of its rule, and each major's words are the rows of its
table. -/
theorem scalarArithmeticResults : Obligations.ScalarArithmeticResults := by
  unfold Obligations.ScalarArithmeticResults
  refine ⟨?_, ?_, ?_, ?_⟩
  · intro s r d a b h A B D n lands
    have hn : n < 64 := shiftOf_lt B
    exact ⟨
      exec_of_scalarOp h (exec_add r d a b s) (BitVec.add_def A B),
      exec_of_scalarOp h (exec_sub r d a b s) (sub_eq_ofInt A B),
      exec_of_scalarOp h (exec_and r d a b s) rfl,
      exec_of_scalarOp h (exec_or r d a b s) rfl,
      exec_of_scalarOp h (exec_xor r d a b s) rfl,
      exec_of_scalarOp h (exec_andn r d a b s) rfl,
      exec_of_scalarOp h (exec_orn r d a b s) rfl,
      exec_of_scalarOp h (exec_sll r d a b s) (shiftLeft_eq_ofNat A n),
      exec_of_scalarOp h (exec_srl r d a b s) (ushiftRight_eq_ofNat A n),
      exec_of_scalarOp h (exec_sra r d a b s) (sshiftRight_eq_ofInt A n),
      exec_of_scalarOp h (exec_rol r d a b s) (rotl_eq_rotateLeft A hn),
      exec_of_scalarOp h (exec_ror r d a b s) (rotl_eq_rotateRight A hn),
      exec_of_scalarOp h (exec_sel r d a b s) rfl,
      exec_of_scalarOp h (exec_min r d a b s) (ite_slt_eq_min A B),
      exec_of_scalarOp h (exec_max r d a b s) (ite_slt_eq_max A B),
      exec_of_scalarOp h (exec_minn r d a b s) (ite_ult_eq_min A B)⟩
  · intro s r d a b h A B lands
    refine ⟨
      exec_of_scalarOp h (exec_mul r d a b s) (mul_eq_ofNat A B),
      exec_of_scalarOp h (exec_mulh r d a b s) rfl,
      exec_of_scalarOp h (exec_mulhn r d a b s) rfl,
      exec_of_scalarOp h (exec_div r d a b s) rfl,
      exec_of_scalarOp h (exec_divn r d a b s) rfl,
      exec_of_scalarOp h (exec_rem r d a b s) rfl,
      exec_of_scalarOp h (exec_remn r d a b s) rfl,
      fun hA hB => ⟨?_, ?_⟩,
      exec_of_scalarOp h (exec_maxn r d a b s) (ite_ult_eq_max A B),
      exec_mulw_open h d a b⟩
    · exact exec_of_scalarOp h (exec_div r d a b s) ((congrArg₂ quotS hA hB).trans quotS_overflow)
    · exact exec_of_scalarOp h (exec_rem r d a b s) ((congrArg₂ remS hA hB).trans remS_overflow)
  · intro s r d a imm sh wide h A D i pc lands
    have hi : i.toInt = imm.toInt := signExtend_toInt imm
    exact ⟨
      exec_of_scalarOp h (exec_addi r d a imm s) (hi ▸ add_eq_ofInt A i),
      exec_of_scalarOp h (exec_andi r d a imm s) rfl,
      exec_of_scalarOp h (exec_ori r d a imm s) rfl,
      exec_of_scalarOp h (exec_xori r d a imm s) rfl,
      exec_of_scalarOp h (exec_muli r d a imm s) (hi ▸ mul_eq_ofInt A i),
      exec_of_scalarOp h (exec_slli r d a sh s) (shiftLeft_eq_ofNat A sh.toNat),
      exec_of_scalarOp h (exec_srli r d a sh s) (ushiftRight_eq_ofNat A sh.toNat),
      exec_of_scalarOp h (exec_srai r d a sh s) (sshiftRight_eq_ofInt A sh.toNat),
      exec_of_scalarOp h (exec_rori r d a sh s) (rotl_eq_rotateRight A sh.isLt),
      exec_of_scalarOp h (exec_movi r d wide s) rfl,
      exec_of_scalarOp h (exec_movk r d wide s) (shiftLeft_16_or D wide),
      exec_of_scalarOp h (exec_addpc r d wide s) (pc_add_eq_ofInt pc wide)⟩
  · intro w hw r d a b imm f rows
    have hr : ringOf w = r := ringOf_eq w
    rw [← hr]
    exact ⟨fun hm => rows_of_eq_opRow (decodeWord_alu hw hm), fun hm => rows_of_eq_opRow (decodeWord_mulDiv hw hm),
      fun hm => rows_of_eq_opRow (decodeWord_shiftImm hw hm), decodeWord_arithImm w⟩

end Sys2Proof.Machine

/-! ## TOKEN and TWAIT (R132, R133): waits, ring effects, words, and O10 -/

namespace Sys2Proof

/-! ### The words of TOKEN and TWAIT -/

/-- The rows of major 0x29 (R132, R133). -/
def tokenRows (r : Ring) (dir : Bool) (n : BitVec 4) : List Instr := [.token r dir n, .twait r dir n]

/-- The operand bits that a word of major 0x29 must leave zero, and its count, which may not be zero (R72, R132, R133). -/
def TokenFields (w : Nat) : Prop :=
  fld w 11 5 = 0 ∧ fld w 16 6 = 0 ∧ fld w 26 2 = 0 ∧ fld w 22 4 ≠ 0

theorem zero_of_eq {z : Nat} {x : Except DecodeErr Instr} (h : z = 0) : zero z x = x := if_pos h

theorem zero_of_ne {z : Nat} {x : Except DecodeErr Instr} (h : z ≠ 0) : zero z x = .error .reservedField := if_neg h

theorem zero_reserved (z : Nat) : zero z (.error .reservedField) = .error .reservedField := ite_self _

theorem decC29_eq (w : Nat) : decC29 w = zero (fld w 11 5) (zero (fld w 16 6) (zero (fld w 26 2)
    (opRow (tokenRows (ringOf w) (w.testBit 10) (BitVec.ofNat 4 (w / 2 ^ 22))) (fld w 28 4)))) := by
  unfold decC29
  rw [← fld_one_beq]
  match fld w 28 4 with
  | 0 | 1 => rfl
  | _ + 2 => simp only [opRow_of_length_le (show (tokenRows _ _ _).length ≤ _ + 2 from Nat.le_add_left ..), zero_reserved]

/-- A count of zero is no instruction of the table. -/
theorem wfOnly_tokenRows (r : Ring) (dir : Bool) (n : BitVec 4) (f : Nat) :
    wfOnly (opRow (tokenRows r dir n) f) = if n = 0 then .error .reservedField else opRow (tokenRows r dir n) f := by
  by_cases hn : n = 0
  · subst hn
    match f with
    | 0 | 1 | _ + 2 => rfl
  · have hwf : (n != 0) = true := bne_iff_ne.mpr hn
    rw [if_neg hn]
    refine wfOnly_opRow f ?_
    intro i hi
    simp only [tokenRows, List.mem_cons, List.not_mem_nil, or_false] at hi
    rcases hi with rfl | rfl <;> exact hwf

theorem ofNat_count_eq_zero (w : Nat) : BitVec.ofNat 4 (w / 2 ^ 22) = 0 ↔ fld w 22 4 = 0 := by
  simp [← BitVec.toNat_inj, fld]

theorem decodeWord_major29 {w : Nat} (hm : w % 64 = 0x29) : decodeWord .c w = wfOnly (decC29 w) := by
  have hc : decodeC w = decC29 w := by simp [decodeC, fld, hm]
  simp only [decodeWord, hc]

theorem decodeWord_token {w : Nat} (hw : w < 2 ^ 32) (hm : w % 64 = 0x29) (h : TokenFields w) :
    decodeWord .c w = opRow (tokenRows (ringOf w) (w.testBit 10) (BitVec.ofNat 4 (w / 2 ^ 22))) (w / 2 ^ 28) := by
  obtain ⟨h11, h16, h26, hn⟩ := h
  rw [decodeWord_major29 hm, decC29_eq, zero_of_eq h11, zero_of_eq h16, zero_of_eq h26, wfOnly_tokenRows,
    if_neg (mt (ofNat_count_eq_zero w).mp hn), fld_op hw]

theorem decodeWord_token_reserved {w : Nat} (hm : w % 64 = 0x29) (h : ¬ TokenFields w) :
    decodeWord .c w = .error .reservedField := by
  rw [decodeWord_major29 hm, decC29_eq]
  by_cases h11 : fld w 11 5 = 0
  · by_cases h16 : fld w 16 6 = 0
    · by_cases h26 : fld w 26 2 = 0
      · have hn : fld w 22 4 = 0 := by_contra fun hn => h ⟨h11, h16, h26, hn⟩
        rw [zero_of_eq h11, zero_of_eq h16, zero_of_eq h26, wfOnly_tokenRows,
          if_pos ((ofNat_count_eq_zero w).mpr hn)]
      · rw [zero_of_ne h26, zero_reserved, zero_reserved]; rfl
    · rw [zero_of_ne h16, zero_reserved]; rfl
  · rw [zero_of_ne h11]; rfl

end Sys2Proof

namespace Sys2Proof.Machine

/-! ### The ring bits of an instruction that issues, by queue (R26 to R28) -/

theorem Ctx.ready_consume (x : Ctx) (q n p : Nat) : (x.consume q n).ready p = x.ready p - if p = q then n else 0 := by
  unfold Ctx.consume Ctx.ready
  by_cases h : p = q
  · subst h
    rw [if_pos rfl]
    exact FMap.getD_put_same _ _ _ _
  · rw [if_neg h]
    exact FMap.getD_put_other _ _ _ _ _ _ h

theorem Ctx.fresh_deposit (x : Ctx) (q n p : Nat) :
    (x.deposit q n).fresh.getD p 0 = x.fresh.getD p 0 + if p = q then n else 0 := by
  unfold Ctx.deposit
  by_cases h : p = q
  · subst h
    rw [if_pos rfl]
    exact FMap.getD_put_same _ _ _ _
  · rw [if_neg h]
    exact FMap.getD_put_other _ _ _ _ _ _ h

theorem Ctx.ready_iff_consume (x : Ctx) (b : Bool) (q p : Nat) :
    (x.iff b fun y => y.consume q 1).ready p = x.ready p - if b = true ∧ p = q then 1 else 0 := by
  cases b
  · simp [Ctx.iff]
  · simpa [Ctx.iff] using x.ready_consume q 1 p

theorem Ctx.fresh_iff_deposit (x : Ctx) (b : Bool) (q p : Nat) :
    (x.iff b fun y => (y.release q).deposit q 1).fresh.getD p 0 =
      x.fresh.getD p 0 + if b = true ∧ p = q then 1 else 0 := by
  cases b
  · simp [Ctx.iff]
  · simpa [Ctx.iff] using (x.release q).fresh_deposit q 1 p

/-- A change that keeps a part of the context keeps it under a flag. -/
theorem Ctx.iff_keeps {α : Type} (g : Ctx → α) {f : Ctx → Ctx} (h : ∀ x, g (f x) = g x) (x : Ctx) (b : Bool) :
    g (x.iff b f) = g x := by
  cases b
  · rfl
  · exact h x

theorem Ctx.ready_signal (x : Ctx) (e : Strm) (sp sn : Bool) (p : Nat) : (x.signal e sp sn).ready p = x.ready p := by
  unfold Ctx.signal
  rw [Ctx.iff_keeps (Ctx.ready · p), Ctx.iff_keeps (Ctx.ready · p)] <;> exact fun _ => rfl

theorem Ctx.fresh_signal (x : Ctx) (e : Strm) (sp sn : Bool) (p : Nat) : (x.signal e sp sn).fresh.getD p 0 =
    x.fresh.getD p 0 + (if sp = true ∧ p = outQueue e true then 1 else 0) +
      (if sn = true ∧ p = outQueue e false then 1 else 0) := by
  rw [Ctx.signal, Ctx.fresh_iff_deposit, Ctx.fresh_iff_deposit]

/-- The wait bits take one token each from their queues. -/
theorem Ctx.ready_ringStep (x : Ctx) (e : Strm) (r : Ring) (now : Bool) (p : Nat) : (x.ringStep e r now).ready p =
    x.ready p - (if r.wp = true ∧ p = inQueue e true then 1 else 0) -
      (if r.wn = true ∧ p = inQueue e false then 1 else 0) := by
  have hres : ∀ (z : Ctx) (b c : Bool) (q k : Nat),
      ((z.iff b fun y => y.reserve q).iff c fun y => y.reserve k).ready p = z.ready p := by
    intro z b c q k
    rw [Ctx.iff_keeps (Ctx.ready · p), Ctx.iff_keeps (Ctx.ready · p)] <;> exact fun _ => rfl
  unfold Ctx.ringStep
  dsimp only
  rw [apply_ite (Ctx.ready · p), Ctx.ready_signal, ite_self, hres, Ctx.ready_iff_consume, Ctx.ready_iff_consume]

/-- The signal bits of an instruction without results deposit one token each in their queues. -/
theorem Ctx.fresh_ringStep (x : Ctx) (e : Strm) (r : Ring) (p : Nat) : (x.ringStep e r true).fresh.getD p 0 =
    x.fresh.getD p 0 + (if r.sp = true ∧ p = outQueue e true then 1 else 0) +
      (if r.sn = true ∧ p = outQueue e false then 1 else 0) := by
  unfold Ctx.ringStep
  dsimp only
  rw [if_pos rfl, Ctx.fresh_signal]
  congr 3
  rw [Ctx.iff_keeps Ctx.fresh, Ctx.iff_keeps Ctx.fresh, Ctx.iff_keeps Ctx.fresh, Ctx.iff_keeps Ctx.fresh] <;>
    exact fun _ => rfl

theorem Ctx.ringStep_s (x : Ctx) (e : Strm) (r : Ring) (now : Bool) : (x.ringStep e r now).s = x.s := by
  rw [← Ctx.ringStep_but x e r now]
  rfl

/-- Toward the queue of a direction only the signal bit of that direction deposits. -/
theorem Ctx.fresh_ringStep_dir (x : Ctx) (r : Ring) (dir : Bool) :
    (x.ringStep .c r true).fresh.getD (outQueue .c (!dir)) 0 =
      x.fresh.getD (outQueue .c (!dir)) 0 + (ringSignals r dir).toNat := by
  rw [Ctx.fresh_ringStep]
  cases dir <;> simp [ringSignals, outQueue, Bool.toNat, cond_eq_ite]

/-- From the queue of a direction only the wait bit of that direction takes. -/
theorem Ctx.ready_ringStep_dir (x : Ctx) (r : Ring) (dir now : Bool) :
    (x.ringStep .c r now).ready (inQueue .c (!dir)) = x.ready (inQueue .c (!dir)) - (ringWaits r dir).toNat := by
  rw [Ctx.ready_ringStep]
  cases dir <;> simp [ringWaits, inQueue, Bool.toNat, cond_eq_ite]

/-! ### An instruction of C that only changes its context -/

/-- Such an instruction leaves the changed context with the ring bits' effect, and a stream C that has moved on. -/
theorem State.passes_modCtx_ctx (s : State) (r : Ring) (g : Ctx → Ctx) : ∃ u,
    (s.passes .c r fun s1 => s1.modCtx s.cur g).ctx s.cur = ((g (s.slotCtx .c)).ringStep .c r true).setStr .c u := by
  rw [State.passes, State.complete_eq, State.ctx_modCtx]
  simp only [Done.plain, State.ctx_modCtx]
  exact ⟨_, rfl⟩

theorem State.passes_modCtx_mem (s : State) (r : Ring) (g : Ctx → Ctx) :
    (s.passes .c r fun s1 => s1.modCtx s.cur g).mem = (s.slot .c).mem := by
  rw [State.passes, State.complete_eq]
  rfl

theorem Ctx.sr_eq_of_s {x y : Ctx} (h : x.s = y.s) (j : SReg) : x.sr j = y.sr j := by
  simp only [Ctx.sr, h]

/-- The frame of such an instruction: a change that keeps the scalar registers keeps them in its slot, and no byte of memory
changes. -/
theorem State.passes_modCtx_frame (s : State) (r : Ring) {g : Ctx → Ctx} (hg : ∀ x, (g x).s = x.s) :
    let t := s.passes .c r fun s1 => s1.modCtx s.cur g
    (∀ j, (t.ctx s.cur).sr j = (s.slotCtx .c).sr j) ∧ ∀ a, t.memByte a = (s.slot .c).memByte a := by
  obtain ⟨u, hu⟩ := s.passes_modCtx_ctx r g
  refine ⟨fun j => Ctx.sr_eq_of_s ?_ j, fun a => ?_⟩
  · rw [hu, Ctx.setStr_s, Ctx.ringStep_s, hg]
  · rw [State.memByte, State.passes_modCtx_mem, State.memByte]

/-! ### A wait under the watchdog (R30) -/

theorem State.waitCycle_within {s : State} {c : CoreId} {e : Strm} {key : Nat}
    (h : ((s.ctx c).str e).waited key ≤ (s.ctx c).limit) :
    s.waitCycle c e key = s.modStr c e fun t => { t with wait := some (key, ((s.ctx c).str e).waited key) } := by
  unfold State.waitCycle
  exact if_neg fun hk => absurd hk.2 (not_lt.mpr h)

/-- A wait for a queue past the limit. -/
theorem State.waitCycle_past {s : State} {c : CoreId} {e : Strm} {key : Nat} (hq : key < 8)
    (h : (s.ctx c).limit < ((s.ctx c).str e).waited key) :
    s.waitCycle c e key = s.takeFault c e .ringTimeout (BitVec.ofNat 64 key) false := by
  have hk : key ≠ 9 := by omega
  have hw : key < otherWait := by unfold otherWait; omega
  unfold State.waitCycle
  simp only [if_pos (And.intro hw h), timeoutCause, State.timeoutAddr, if_neg hk]

theorem inQueue_lt (e : Strm) (p : Bool) : inQueue e p < 8 := by
  cases e <;> cases p <;> decide

theorem outQueue_lt (e : Strm) (p : Bool) : outQueue e p < 8 := by
  cases e <;> cases p <;> decide

/-- An instruction of C that waits for a queue counts the cycle, or ends in RING_TIMEOUT. -/
theorem holds_of_waitCycle {s : State} {i : Instr} {q : Nat} (hq : q < 8)
    (h : exec i s = .next (s.waitCycle s.cur .c q)) :
    let n := ((s.ctx s.cur).str .c).waited q
    (n ≤ (s.ctx s.cur).limit → exec i s = .next (s.modStr s.cur .c fun t => { t with wait := some (q, n) })) ∧
    ((s.ctx s.cur).limit < n → exec i s = .next (s.takeFault s.cur .c .ringTimeout (BitVec.ofNat 64 q) false)) :=
  ⟨fun hn => h.trans (congrArg _ (State.waitCycle_within hn)), fun hn => h.trans (congrArg _ (State.waitCycle_past hq hn))⟩

/-! ### TOKEN and TWAIT in an open slot (R132, R133) -/

section
variable {s : State} {r : Ring} (h : s.Opens .c r) (dir : Bool) (n : BitVec 4)
include h

theorem exec_token_of_room
    (hroom : (s.slotCtx .c).taken (outQueue .c (!dir)) + n.toNat + (ringSignals r dir).toNat ≤ 15) :
    exec (.token r dir n) s =
      .next (s.passes .c r fun s1 => s1.modCtx s.cur fun x => x.deposit (outQueue .c (!dir)) n.toNat) := by
  rw [exec_token, execToken]
  exact issue_ok h (if_neg (not_lt.mpr hroom)) rfl

theorem exec_token_of_full
    (hfull : 15 < (s.slotCtx .c).taken (outQueue .c (!dir)) + n.toNat + (ringSignals r dir).toNat) :
    exec (.token r dir n) s = .next (s.waitCycle s.cur .c (outQueue .c (!dir))) := by
  rw [exec_token, execToken]
  exact issue_wait (left := fun s => s) h (if_pos hfull)

theorem exec_twait_of_ready (hready : n.toNat + (ringWaits r dir).toNat ≤ (s.slotCtx .c).ready (inQueue .c (!dir))) :
    exec (.twait r dir n) s =
      .next (s.passes .c r fun s1 => s1.modCtx s.cur fun x => x.consume (inQueue .c (!dir)) n.toNat) := by
  rw [exec_twait, execTwait]
  exact issue_ok h (if_neg (not_lt.mpr hready)) rfl

theorem exec_twait_of_lack (hlack : (s.slotCtx .c).ready (inQueue .c (!dir)) < n.toNat + (ringWaits r dir).toNat) :
    exec (.twait r dir n) s = .next (s.waitCycle s.cur .c (inQueue .c (!dir))) := by
  rw [exec_twait, execTwait]
  exact issue_wait (left := fun s => s) h (if_pos hlack)

end

/-- What a TOKEN that issues leaves in its queue. -/
theorem token_fresh (s : State) (r : Ring) (dir : Bool) (n : Nat) :
    let q := outQueue .c (!dir)
    ((s.passes .c r fun s1 => s1.modCtx s.cur fun x => x.deposit q n).ctx s.cur).fresh.getD q 0 =
      (s.slotCtx .c).fresh.getD q 0 + n + (ringSignals r dir).toNat := by
  intro q
  obtain ⟨u, hu⟩ := s.passes_modCtx_ctx r fun x => x.deposit q n
  rw [hu, Ctx.setStr_fresh, Ctx.fresh_ringStep_dir, Ctx.fresh_deposit, if_pos rfl]

/-- What a TWAIT that issues leaves in its queue. -/
theorem twait_ready (s : State) (r : Ring) (dir : Bool) (n : Nat) :
    let q := inQueue .c (!dir)
    ((s.passes .c r fun s1 => s1.modCtx s.cur fun x => x.consume q n).ctx s.cur).ready q =
      (s.slotCtx .c).ready q - n - (ringWaits r dir).toNat := by
  intro q
  obtain ⟨u, hu⟩ := s.passes_modCtx_ctx r fun x => x.consume q n
  rw [hu, Ctx.ready, Ctx.setStr_tok, ← Ctx.ready, Ctx.ready_ringStep_dir, Ctx.ready_consume, if_pos rfl]

/-- Settles O10: with room, or with tokens, the instruction issues and its queue gains or loses n and its own bit's token; else it
waits for that queue; and a word of major 0x29 is the row of its table when its fields allow it. -/
theorem tokenInstructionResults : Obligations.TokenInstructionResults := by
  unfold Obligations.TokenInstructionResults
  intro holds
  refine ⟨?_, ?_, ?_⟩
  · intro s r dir n h x q own
    have hq : q = outQueue .c (!dir) := by cases dir <;> rfl
    have hown : own = (ringSignals r dir).toNat := by cases dir <;> simp [own, ringSignals, Bool.toNat, cond_eq_ite]
    rw [hown, hq]
    exact ⟨fun hroom => ⟨_, exec_token_of_room h dir n hroom, rfl, token_fresh s r dir n.toNat,
        s.passes_modCtx_frame r fun _ => rfl⟩,
      fun hfull => holds_of_waitCycle (outQueue_lt _ _) (exec_token_of_full h dir n hfull)⟩
  · intro s r dir n h x q own
    have hq : q = inQueue .c (!dir) := by cases dir <;> rfl
    have hown : own = (ringWaits r dir).toNat := by cases dir <;> simp [own, ringWaits, Bool.toNat, cond_eq_ite]
    rw [hown, hq]
    exact ⟨fun hready => ⟨_, exec_twait_of_ready h dir n hready, rfl, twait_ready s r dir n.toNat,
        s.passes_modCtx_frame r fun _ => rfl⟩,
      fun hlack => holds_of_waitCycle (inQueue_lt _ _) (exec_twait_of_lack h dir n hlack)⟩
  · intro w hw hm hf n clear r
    have hr : ringOf w = r := ringOf_eq w
    have hn : BitVec.ofNat 4 n = BitVec.ofNat 4 (w / 2 ^ 22) := by
      apply BitVec.eq_of_toNat_eq
      simp [n]
    have hclear : clear ↔ TokenFields w := Iff.rfl
    rw [hn, ← hr]
    refine ⟨fun hc => ?_, fun hc => decodeWord_token_reserved hm (mt hclear.mpr hc)⟩
    rw [decodeWord_token hw hm (hclear.mp hc)]
    generalize w / 2 ^ 28 = f at hf
    match f with
    | 0 | 1 => rfl

end Sys2Proof.Machine

/-! ## MWAIT and MNOP (R224): what a slot of M leaves of a matrix nest, and O52 -/

namespace Sys2Proof.Machine

/-! ### A matrix nest that waits for earlier results (R222) -/

theorem Ctx.ringStep_mnest (x : Ctx) (e : Strm) (r : Ring) (now : Bool) : (x.ringStep e r now).mnest = x.mnest := by
  rw [← Ctx.ringStep_but x e r now]
  rfl

theorem Ctx.nestSlot_mnest (x : Ctx) : x.nestSlot.mnest = x.mnest.map fun n => { n with ahead := n.ahead - 1 } := rfl

/-- An instruction of M without an effect of its own still counts its slot for a nest that waits for earlier results. -/
theorem State.passes_m_mnest (s : State) (r : Ring) :
    ((s.passes .m r id).ctx s.cur).mnest = (s.slotCtx .m).mnest.map fun n => { n with ahead := n.ahead - 1 } := by
  rw [State.passes, State.complete_eq, State.ctx_modCtx]
  simp only [Ctx.ageStep, Ctx.nestSlot_mnest, Ctx.setStr_mnest, Ctx.ringStep_mnest]
  rfl

/-- MNOP, which issues in every open slot, changes the record of a nest that still waits. -/
theorem mnop_mnest_ne {s t : State} {r : Ring} {n : MNest} (h : s.Opens .m r) (hn : (s.slotCtx .m).mnest = some n)
    (hahead : n.ahead ≠ 0) (ht : exec (.mnop r) s = .next t) : (t.ctx s.cur).mnest ≠ (s.slotCtx .m).mnest := by
  rw [exec_mnop, execMnop, idleOp_open h] at ht
  obtain rfl := Host.Outcome.next.inj ht
  rw [State.passes_m_mnest, hn]
  intro heq
  have hsame : n.ahead - 1 = n.ahead := congrArg MNest.ahead (Option.some.inj heq)
  omega

/-! ### A nest with an earlier result in flight -/

/-- Core 0 after an MNEST behind a result of M that lands one byte in the accumulator buffer: one slot is left to that result, and the
nest waits two, as `Stream.drained` counts them (R222). -/
def waitingNest : State := State.reset.modCtx 0 fun x =>
  { x with mnest := some { (default : MNest) with ahead := 2 }
           strM := { x.strM with queue := [{ (default : Landing) with left := 1, dest := .cells .acs [(0, 0)] }] } }

theorem waitingNest_opens : waitingNest.Opens .m ⟨false, false, false, false⟩ := ⟨ringOpen_of_block rfl, rfl⟩

theorem waitingNest_mnest : (waitingNest.slotCtx .m).mnest = some { (default : MNest) with ahead := 2 } := rfl

/-- Refutes O52: its clause on MNOP has the record of a running nest unchanged, but every slot of M brings a nest that waits for
earlier results one slot nearer to its first instance (R222), so in `waitingNest` an MNOP leaves one slot to wait in place of two. -/
theorem not_commandWaitsAndNops : ¬ Obligations.CommandWaitsAndNops := by
  unfold Obligations.CommandWaitsAndNops
  intro h
  obtain ⟨-, hm, -⟩ := h
  obtain ⟨-, -, t, ht, -, -, hnest, -⟩ := hm waitingNest _ waitingNest_opens
  exact mnop_mnest_ne waitingNest_opens waitingNest_mnest two_ne_zero ht hnest

end Sys2Proof.Machine
